-- ==== Sys2Proof/Word.lean ====
section
/-! DEFINITION. The plainest words of the model: bytes, 64-bit words and keys (R14: bit 0 is the least significant). -/

namespace Sys2Proof

/-- A byte on a wire, on media or in a key (R14). -/
abbrev Byte := BitVec 8

/-- A 64-bit word (R515) or a hash lane (R155). -/
abbrev Word := BitVec 64

/-- A key: a string of 1 to 255 bytes (R55); the length is checked where a command carries one. -/
abbrev Key := List Byte

end Sys2Proof
end

