-- ==== Sys2Proof/Types.lean ====
section
/-! DEFINITION. The vocabulary that commands and state share: roles, slot states, policies, the records of a
configuration image, firmware packages, Milmo bodies (Tables 8.6 to 8.16, 16.9) and hinge bodies (Tables 10.5 to 10.20). -/

namespace Sys2Proof

/-- Role state codes of Table 3.24 offset 5. -/
inductive RoleState where
  | solo | active | standby | yielded | recovery | dormant | unassigned
  deriving DecidableEq, Repr

/-- Slot states of Table 8.1, in code order. -/
inductive SlotState where
  | absent | joining | placing | closed | retiring | lost
  deriving DecidableEq, Repr

/-- Failure-domain levels (Table 8.8 offset 39). -/
inductive DomLevel where
  | zone | rack | feed
  deriving DecidableEq, Repr

/-- Classes of BEAT_IN (R408). -/
inductive BeatClass where
  | release | silent | normal
  deriving DecidableEq, Repr

/-- Forms of BEAT_OUT (R405). -/
inductive BeatForm where
  | normal | release | none
  deriving DecidableEq, Repr

/-- Kinds of start (Table 15.1). -/
inductive StartKind where
  | cold | wake | warm
  deriving DecidableEq, Repr

/-- Why the keeper begins a warm start (Table 15.1 and the rules it cites). -/
inductive WarmCause where
  | keeperRelease | flushSupply | thermalStop | memoryError | controllerReenable | update | confirmation | tftp | unheldPowerFail
  deriving DecidableEq, Repr

/-- MESI states of a line at a cluster (R43). -/
inductive Mesi where
  | m | e | s | i
  deriving DecidableEq, Repr

/-- Effective policy of a command (R64, R65); `thr` is the replication threshold in units of 4 KiB. -/
structure Policy where
  k : Nat
  m : Nat
  thr : Nat
  ack : Nat
  dom : DomLevel
  qos : Nat
  deriving DecidableEq, Repr

/-- One namespace entry of the Namespaces record (Table 14.14). -/
structure NsEntry where
  id : Nat
  pol : Policy
  maxKey : Nat
  redirect : Bool
  bankSet : List Nat
  q0 : BitVec 64
  q1 : BitVec 64
  hosts : List String
  deriving DecidableEq, Repr

/-- A Ward action record (Table 5.2): an absent field keeps the namespace's own. -/
structure WardAction where
  km : Option (Nat × Nat)
  thr : Option Nat
  ack : Option Nat
  qos : Option Nat
  deriving DecidableEq, Repr

/-- A Ward entry: 128 ternary digits, priority, action (R196). -/
structure WardEntry where
  prio : Nat
  action : Nat
  value : BitVec 128
  mask : BitVec 128
  deriving DecidableEq, Repr

/-- A Ward entry image (Table 5.3). -/
structure WardImage where
  bank : Nat
  entry : Nat
  e : WardEntry
  deriving DecidableEq, Repr

/-- The Ward rules record (Table 14.15). -/
structure WardRec where
  cascade : List Nat
  actions : List WardAction
  images : List WardImage
  deriving DecidableEq, Repr

/-- A MAC setting word (Table 14.9). -/
structure MacCfg where
  vlan : Nat
  untagged : Bool
  milmo : Bool
  ptp : Bool
  mcast : Bool
  deriving DecidableEq, Repr

/-- The Network record (Table 14.8); addresses are the number their network-order bytes spell. -/
structure NetRec where
  v6 : Bool
  v4 : Bool
  tcp : Bool
  rdma : Bool
  port : Nat
  svcMac : Nat
  svc4 : Nat
  svc6 : Nat
  dev4 : Nat × Nat
  dev6 : Nat × Nat
  sgmii : Bool
  ptpPeer : Bool
  ptpTransport : Nat
  ptpDomain : Nat
  lossless : List Nat
  groupModes : List Nat
  groupConn : List Nat
  marks : List (Nat × Nat)
  macs : List MacCfg
  prefix6 : Nat := 0
  prefix4 : Nat := 0
  router6 : Nat := 0
  router4 : Nat := 0
  devPrefix4 : Nat := 0
  devPrefix6 : Nat := 0
  deriving DecidableEq, Repr

/-- The Flash geometry record (Table 14.10); `absentDies` are the die positions whose expected bit is clear. -/
structure GeoRec where
  soloBus : Bool
  jedec : Bool
  rate : Nat
  bits : Nat
  planes : Nat
  page : Nat
  spare : Nat
  pages : Nat
  blocks : Nat
  gbit : Nat
  absentDies : List Nat
  deriving DecidableEq, Repr

/-- The Power record (Table 14.11), in the units of that table. -/
structure PowRec where
  capMf : Nat
  vCut : Nat
  vFull : Nat
  iT : Nat
  esr : Nat
  eFix : Nat
  eGib : Nat
  eMin : Nat
  periodH : Nat
  budget : Nat
  thaw : Nat
  idle : Nat
  cRead : Nat
  cTlc : Nat
  cSlc : Nat
  cErase : Nat
  cX24 : Nat
  cX36 : Nat
  cWake : Nat
  intervalMs : Nat
  dormant : Bool
  deriving DecidableEq, Repr

/-- A roster entry (Table 14.13); an address is absent when its valid bit is clear. -/
structure RosterEntry where
  slot : Nat
  pair : Nat
  zone : Nat
  rack : Nat
  feed : Nat
  retiring : Bool
  a4 : Option Nat
  a6 : Option Nat
  deriving DecidableEq, Repr

/-- The Icefield roster record (Table 14.12). -/
structure Roster where
  ident : Nat
  port : Nat
  lossS : Nat
  calThr : Nat
  inBulk : Nat
  outBulk : Nat
  mcast : Bool
  p0 : BitVec 64
  p1 : BitVec 64
  slots : List RosterEntry
  deriving DecidableEq, Repr

/-- One override of the Event limits record (Table 14.16). -/
structure LimitOverride where
  code : Nat
  rate : Nat
  burst : Nat
  deriving DecidableEq, Repr

/-- The Event limits record (Table 14.16). -/
structure LimRec where
  rate : Nat
  burst : Nat
  overs : List LimitOverride
  deriving DecidableEq, Repr

/-- The Media care record (Table 14.17). -/
structure MediaRec where
  sweepDays : Nat
  rdThr : Nat
  rdSpill : Nat
  spread : Nat
  goal : Nat
  floor : Nat
  reserve : Nat
  spare : Nat
  spareThr : Nat
  deriving DecidableEq, Repr

/-- The Hinge record (Table 14.18). -/
structure HingeRec where
  twin : Bool
  netLoss : Bool
  missLimit : Nat
  windowMs : Nat
  serialA : Nat
  serialB : Nat
  deriving DecidableEq, Repr

/-- A register that holds a value as two Boolean shares: the value is their XOR (R501). -/
structure Masked where
  share0 : List Byte
  share1 : List Byte
  deriving DecidableEq, Repr

/-- A key package (Table 12.5): unit serial number and pair ID, contents byte, field generation and its activation epoch, ephemeral
public key, IV, wrapped keys, tag, check values. -/
structure KeyPkg where
  serial : Nat
  pair : Nat
  contents : Nat
  gen : Nat
  epoch : Nat
  ephemeral : List Byte
  iv : List Byte
  wrapped : List Byte
  tag : List Byte
  rootCheck : Nat
  fieldCheck : Nat
  deriving DecidableEq, Repr

/-- The Security record (Table 14.19). -/
structure SecRec where
  erase : Bool
  windowH : Nat
  rekey : Nat
  successor : Nat
  pkgs : List KeyPkg
  deriving DecidableEq, Repr

/-- A Gauge input (Table 14.21). -/
structure GaIn where
  fn : Nat
  rail : Nat
  scale : Int
  offset : Int
  fail : Nat
  deriving DecidableEq, Repr

/-- The Gauge inputs record (Table 14.20). -/
structure GaugeRec where
  div : Nat
  ins : List GaIn
  deriving DecidableEq, Repr

/-- The configuration in force: every record, with its defaults filled in where it was absent (R554). -/
structure Cfg where
  pair : Nat
  seq : Nat
  name : String
  net : NetRec
  geo : GeoRec
  pow : PowRec
  roster : Option Roster
  nss : List NsEntry
  ward : WardRec
  lim : LimRec
  media : MediaRec
  hinge : HingeRec
  sec : SecRec
  gauge : GaugeRec
  deriving DecidableEq, Repr

/-- A configuration image as it came in: header, body and signature block (Tables 14.2, 14.3, 14.6). Machine/CfgImage.lean reads it. -/
structure Image where
  bytes : List Byte
  deriving DecidableEq, Repr

/-- A manifest entry of a firmware package (Table 16.2). -/
structure PartEntry where
  code : Nat
  version : Nat
  offset : Nat
  length : Nat
  digest : List Byte
  deriving DecidableEq, Repr

/-- A firmware package as it came in: header block and parts (Tables 16.1 to 16.3). Machine/Wire.lean reads it. -/
structure Package where
  bytes : List Byte
  deriving DecidableEq, Repr

/-! ### Milmo bodies -/

/-- A received datagram's common header and its tag, as they came in (Tables 8.4, R356). Machine/Wire.lean reads the header's fields. -/
structure Hdr where
  bytes : List Byte
  tag : List Byte
  deriving DecidableEq, Repr

/-- A membership update (Table 8.7). -/
structure MUpdate where
  slot : Nat
  state : SlotState
  suspected : Bool
  inc : Nat
  time : Nat
  deriving DecidableEq, Repr

/-- Probe, Probe Ack and Probe Request bodies (Table 8.6). -/
structure ProbeB where
  target : Nat
  requester : Nat
  pid : Nat
  senderState : SlotState
  updates : List MUpdate
  deriving DecidableEq, Repr

/-- Store option bits (Table 8.8 offset 42). -/
structure StoreOpts where
  ifExists : Bool
  ifAbsent : Bool
  ifVersion : Bool
  expected : Nat
  deriving DecidableEq, Repr

/-- Fragment and Read Data bodies (Table 8.8); a datagram stands for all segments of one item (log entry 8). -/
structure FragB where
  ns : Nat
  chunk : Nat
  key : Key
  pos : Nat
  k : Nat
  m : Nat
  storeId : Nat
  version : Nat
  len : Nat
  valueLen : Nat
  segOff : Nat
  verReq : Bool
  replica : Bool
  tomb : Bool
  repair : Bool
  domShort : Bool
  dom : DomLevel
  ack : Nat
  thr : Nat
  opts : StoreOpts
  result : Nat
  holders : List Nat
  data : List Byte
  /-- of Read Data: data grains that are no longer on media, whose bytes here are zeros (R135, R301; log 24) -/
  gone : List Nat := []
  deriving DecidableEq, Repr

/-- Fragment Ack body (Table 8.10). -/
structure AckB where
  storeId : Nat
  chunk : Nat
  pos : Nat
  level : Nat
  result : Nat
  cond : Nat
  hint : Nat
  version : Nat
  ref : Nat
  deriving DecidableEq, Repr

/-- Store control body (Table 8.11). -/
structure CtlB where
  storeId : Nat
  version : Nat
  ns : Nat
  chunks : Nat
  level : Nat
  result : Nat
  pos : Nat
  commitTime : Nat
  key : Key
  deriving DecidableEq, Repr

/-- Stripe record (Table 8.9); `exts` and `level` are the coordinator's zero extents and durability level of the version,
which a reader needs and the table has no field for (log 19). -/
structure StripeB where
  ns : Nat
  chunk : Nat
  key : Key
  state : Nat
  intent : Bool
  tomb : Bool
  domShort : Bool
  zeroExt : Bool
  final : Bool
  holders : List Nat
  version : Nat
  greatest : Nat
  valueLen : Nat
  k : Nat
  m : Nat
  dom : DomLevel
  thr : Nat
  d3 : List Nat
  exts : List (Nat × Nat) := []
  level : Nat := 0
  deriving DecidableEq, Repr

/-- Locate, Read Request, Record Query and Durability Query bodies (Table 8.12). -/
structure LocB where
  ns : Nat
  first : Nat
  count : Nat
  key : Key
  pos : Nat
  version : Nat
  off : Nat
  len : Nat
  deriving DecidableEq, Repr

/-- Lease Request and Permit bodies (Table 8.13). -/
structure LeaseB where
  id : Nat
  queue : Nat
  locked : Bool
  calendar : Bool
  rate : Nat
  bytes : Nat
  deriving DecidableEq, Repr

/-- One entry of a listing gather reply (Table 8.16). -/
structure GEntry where
  lf : Nat
  th : Nat
  version : Nat
  key : Key
  tomb : Bool
  deriving DecidableEq, Repr

/-- Listing Gather body (Table 8.16). -/
structure GatherB where
  ns : Nat
  gid : Nat
  pattern : Bool
  byCursor : Bool
  cursor : List Byte
  startKey : Key
  source : List Byte
  more : Bool
  entries : List GEntry
  deriving DecidableEq, Repr

/-- Update Forward body (Table 16.9). -/
structure FwdB where
  chain : Bool
  solo : Bool
  confirmed : Bool
  mask : List Nat
  reason : Nat
  origin : Nat
  pkg : Nat
  length : Nat
  off : Nat
  ask : Nat
  data : List Byte
  deriving DecidableEq, Repr

/-- Durability record (Table 3.14). -/
structure DurRec where
  version : Nat
  greatest : Nat
  state : Nat
  level : Nat
  holders : Nat
  atD1 : Nat
  atD3 : Nat
  tomb : Bool
  successor : Bool
  commitTime : Nat
  deriving DecidableEq, Repr

/-- Every Milmo body a device sends (Table 8.5), one constructor per type. -/
inductive Body where
  | probe (b : ProbeB) | probeAck (b : ProbeB) | probeRequest (b : ProbeB)
  | viewDigest (d : Nat) | viewSync (us : List MUpdate)
  | fragment (b : FragB) | fragmentAck (b : AckB)
  | commitRequest (b : CtlB) | commitIntent (b : CtlB) | commitConfirm (b : CtlB) | commitNotice (b : CtlB)
  | abortNotice (b : CtlB) | statusQuery (b : CtlB) | intentAck (b : CtlB)
  | locate (b : LocB) | locateReply (result hint : Nat) (rs : List StripeB)
  | readRequest (b : LocB) | readData (b : FragB)
  | recordQuery (b : LocB) | recordReply (rs : List StripeB) (floor : Nat)
  | floorNotice (bin floor : Nat) | floorAck (bin floor : Nat)
  | durabilityQuery (b : LocB) | durabilityReply (result hint : Nat) (r : DurRec)
  | orphanNotice (b : StripeB) | handoverRecord (b : StripeB) (floor : Nat) | holderReturn (b : StripeB) (keep : Option Bool)
  | repairOrder (b : StripeB) (pos : Nat)
  | leaseRequest (b : LeaseB) | permit (b : LeaseB)
  | gatherRequest (b : GatherB) | gatherReply (b : GatherB)
  | updateForward (op : Nat) (b : FwdB)
  | shedRecord (ns : Nat) (key : Key) (version off len : Nat)
  | mediaFailure (b : StripeB) (pos : Nat)
  deriving DecidableEq, Repr

/-! ### Hinge bodies -/

/-- Hello body (Table 10.5). -/
structure HelloB where
  major : Nat
  minor : Nat
  role : Nat
  state : RoleState
  cfgSeq : Nat
  serial : Nat
  pair : Nat
  dram : Nat
  firn : Nat
  fw : Nat
  check : Nat
  geo : Nat
  stage : Nat
  deriving DecidableEq, Repr

/-- Status body (Table 10.16); `hold` is 0 not holding, 1 acquiring, 2 holding. -/
structure StatusB where
  hold : Nat
  role : RoleState
  trial : Bool
  width : Nat
  healthy : Bool
  gauge : Bool
  flush : Bool
  shutdown : Bool
  macs : List Nat
  aDev : Nat
  deriving DecidableEq, Repr

/-- Health Report body (Table 10.17). -/
structure HealthB where
  criterion : Nat
  j3 : Bool
  width4 : Bool
  gauge : Bool
  trained : Bool
  macs : List Nat
  regions : List Nat
  time : Nat
  misses : Nat
  deriving DecidableEq, Repr

/-! ### Host commands -/

/-- NVMe status: code type, code, Do Not Retry (Tables 3.19 to 3.21). -/
structure Status where
  sct : Nat
  sc : Nat
  dnr : Bool
  deriving DecidableEq, Repr

/-- A submission queue entry as it came in (Table 3.9): its connection, its 16 dwords, dword 0 first, and the verdict of
transport and digest checks. Machine/Entry.lean reads its fields. -/
structure Sqe where
  conn : Nat
  dws : List Nat
  transportOk : Bool
  deriving DecidableEq, Repr

/-- A Key Carrier as it came in: its entry and its key block (R123). -/
structure Carrier where
  q : Sqe
  block : List Byte
  deriving DecidableEq, Repr

/-- Who attempts a TCP connection: the MAC it comes in at, whether over IPv6, its maximum segment size (Table 9.8). -/
structure TcpPeer where
  mac : Nat
  v6 : Bool
  mss : Nat
  deriving DecidableEq, Repr

/-- A RoCE connection request: the UDP port it comes to, the service port it asks for, MAC, address family, path MTU (R95, Table 9.8). -/
structure CmRequest where
  v6 : Bool
  udp : Nat
  port : Nat
  mac : Nat
  mtu : Nat
  deriving DecidableEq, Repr

/-- A filter as engines run it: whether it was registered as an image, its source (empty for one registered as an image), its automaton
image (R131, R132, R226). -/
structure Automaton where
  precompiled : Bool
  source : List Byte
  image : List Byte
  deriving DecidableEq, Repr

/-- Origin of an admin command: connection and command identifier. -/
structure Adm where
  conn : Nat
  cid : Nat
  deriving DecidableEq, Repr

/-- A received Ethernet frame as the checks of Table 9.3 see it, with its 48-bit destination address. -/
structure Frame where
  mac : Nat
  len : Nat
  fcsOk : Bool
  symbolOk : Bool
  bufferFull : Bool
  dest : Nat
  vlan : Option Nat
  prio : Nat
  etherType : Nat
  ipOk : Bool
  arp : Bool
  l4Ok : Bool
  milmo : Bool
  bytes : List Byte
  deriving DecidableEq, Repr

/-- Where a frame goes: a group address, the broadcast address, or the neighbour that ARP or neighbour discovery gives (R369). -/
inductive TxDest where
  | group (a : Nat)
  | broadcast
  | neighbour
  deriving DecidableEq, Repr

/-- An Ethernet frame that leaves a MAC: source address (R367, R368), VLAN tag as VLAN ID and priority code point (R370, R371), DSCP of an
IP packet, EtherType, length of what the frame carries, length of the frame with tag and FCS (R372), and, of a Milmo frame, the UDP
payload (R356). -/
structure TxFrame where
  mac : Nat
  dest : TxDest
  src : Nat
  tag : Option (Nat × Nat)
  dscp : Option Nat
  etherType : Nat
  packet : Nat
  len : Nat
  datagram : List Byte
  deriving DecidableEq, Repr

/-- What a data flit carries: offset of the first frame header that begins in it, and its 496 payload bytes (Table 10.2). -/
structure Flit where
  start : Nat
  payload : List Byte
  deriving DecidableEq, Repr

/-- DRAM memory types (R44). -/
inductive MemType where
  | coherent | uncached | payload
  deriving DecidableEq, Repr

/-- A coherence message: the cluster it comes from or goes to (an engine or DMA channel of die X from 32 on), and the line. -/
structure Coh where
  cluster : Nat
  line : Nat
  deriving DecidableEq, Repr

/-- A request of a core: its cluster and line, and the core of the cluster (R43). -/
structure CoreReq where
  at_ : Coh
  core : Nat
  deriving DecidableEq, Repr

/-- What a write-back or a write carries: the words from word `first` of the line on with their poison, or an engine's segments (R51, R523). -/
structure PutData where
  first : Nat
  words : List (Word × Bool)
  segs : List (List Byte)
  deriving DecidableEq, Repr

/-- A site of Table 13.5 with the word at fault: memory (0 SRAM, 1 DRAM, 2 Firn, 255 none), the Moraine source path of
its unit (a memory bank of Table 13.1 is such a unit), the row, page, block, die or lane index, the kind code, and the
physical address of the word. -/
structure Site where
  mem : Nat
  path : Nat
  idx : Nat
  kind : Nat
  addr : Nat
  deriving DecidableEq, Repr

/-- What a die's parameter page, or its ID and parameter page, says (Table 6.2): a JESD230 device; bits per cell, an SLC mode beside
them; capacity in Gbit; planes, blocks per plane, pages per block; data and spare bytes of a page; highest rate in MT/s; program and
erase suspend. -/
structure DieParam where
  jedec : Bool
  bits : Nat
  slc : Bool
  gbit : Nat
  planes : Nat
  blocks : Nat
  pages : Nat
  page : Nat
  spare : Nat
  rate : Nat
  suspend : Bool
  deriving DecidableEq, Repr

/-- What a start reads from the flash array: the parameter pages of dies, where one is not listed those of the Flash geometry record at
the highest rate of Table 6.2, and positions that do not answer (R237), Cornice
indices of spill grains that are uncorrectable (R269), granules whose image cannot be read (R186), and grains of open superblocks
that fail the check of R254 when they are read back (Table 6.10). -/
structure Discovery where
  params : List (Nat × DieParam)
  silent : List Nat
  /-- blocks marked bad by the die maker: die, block row (R297) -/
  factoryBad : List (Nat × Nat) := []
  badSpill : List Nat
  badGranules : List Nat
  badOpen : List Nat
  deriving DecidableEq, Repr

end Sys2Proof
end

