-- ==== Sys2Proof/Records.lean ====
section
/-! DEFINITION. The records the device keeps in Firn, on media and in its tables, and the bodies of the hinge frames
that mirror them (Tables 4.3 to 4.10, 6.3 to 6.8, 10.6 to 10.20). Commands carry them, so they stand before the syntax. -/

namespace Sys2Proof

/-! ### Keyway and items -/

/-- A Keyway entry with flag V set (Tables 4.3 to 4.5); the overflow mark M is kept beside the slots (R165). -/
structure KwEntry where
  fp : Nat
  loc : Nat
  size : Nat
  kind : Nat
  ver : Nat
  alt : Bool
  pend : Bool
  cor : Bool
  zext : Bool
  pos : Nat
  stash : Bool
  deriving DecidableEq, Repr

/-- One slot write of a Keyway journal record: the new content, and whether it sets the mark M of its bucket (R170). -/
structure SlotWrite where
  bucket : Nat
  slot : Nat
  entry : Option KwEntry
  mark : Bool
  deriving DecidableEq, Repr

/-- A Keyway journal record (Table 4.7); operations 1 insert to 7 purge. A record whose CRC does not match is torn (R174). -/
structure KwRec where
  seq : Nat
  op : Nat
  writes : List SlotWrite
  crc : Nat
  deriving DecidableEq, Repr

/-- An item a holder keeps (R152), with its header. `st` is 0 held under a Store ID without a version, 1 pending,
2 committed; `grains` are its Cornice grain indices while it is there; `flash` its grain addresses once laid. -/
structure Item where
  ns : Nat
  chunk : Nat
  key : Key
  pos : Nat
  storeId : Nat
  version : Nat
  st : Nat
  intent : Bool
  d3 : Bool
  replica : Bool
  tomb : Bool
  repair : Bool
  domShort : Bool
  k : Nat
  m : Nat
  thr : Nat
  ack : Nat
  dom : DomLevel
  holders : List Nat
  len : Nat
  valueLen : Nat
  grains : List Nat
  flash : List Nat
  sb : Nat
  counter : Nat
  ackAt : Nat
  queryAt : Nat
  coord : Nat
  zext : Bool
  released : List Nat
  deriving DecidableEq, Repr

/-- A ledger entry (Table 4.10). -/
structure LEntry where
  ns : Nat
  lf : Nat
  th : Nat
  version : Nat
  key : Key
  pos : Nat
  tomb : Bool
  ahead : List Nat
  at_ : Nat
  deriving DecidableEq, Repr

/-- A superblock record (Table 6.6) with the fields the write order and the life of a superblock need (R249, R257,
R286, R292): `cursor` counts filled grain slots, `limit` the program units it will have (fewer when it is closed early),
`done` the data units programmed beyond the wordlines whose parity is programmed, `waitSince` is when its next unit took
its first grain, `reloc` marks a relocation superblock, `lastAt` when it was last
programmed, `hold` parity kept until relaying is verified (Table 6.10). -/
structure SbRec where
  seq : Nat
  kind : Nat
  state : Nat
  group : Nat
  parity : Nat
  members : List Nat
  rows : List (Nat × Nat)
  programmed : Nat
  verified : Nat
  summary : Option Nat
  cursor : Nat
  limit : Nat
  done : List Nat
  waitSince : Option Nat
  live : Nat
  reloc : Bool
  hold : Bool
  lastAt : Nat
  /-- opened for static wear levelling: the most worn free block rows (R294, R296) -/
  high : Bool := false
  deriving DecidableEq, Repr

/-- What a metadata grain belongs to (R247): the image of a granule in one of its two places, a delta-log segment by its first sequence,
a ledger run by its namespace and whether it is the base run, the summary of a superblock by its sequence. -/
inductive MetaOf where
  | image (granule place : Nat)
  | segment (first : Nat)
  | run (ns : Nat) (base : Bool)
  | summary (seq : Nat)
  deriving DecidableEq, Repr

/-- A grain on flash (Table 6.5): kind 0 data, 1 key, 2 metadata, 3 pad, 4 spill, 5 reference; the full key of its item; its payload
in clear. `dead` is whether it counts no longer as live while its item stands: a SHED has released it (R300). -/
structure FGrain where
  kind : Nat
  fp : Nat := 0
  counter : Nat
  index : Nat
  ns : Nat := 0
  chunk : Nat := 0
  version : Nat := 0
  len : Nat := 0
  dataGrains : Nat := 0
  key : Key := []
  pos : Nat := 0
  k : Nat := 0
  m : Nat := 0
  lead : Bool := false
  replica : Bool := false
  zext : Bool := false
  sbSeq : Nat := 0
  data : List Byte
  dead : Bool := false
  owner : Option MetaOf := none
  deriving DecidableEq, Repr

/-- A spill superblock (R247, R266): its sequence, parity group, parity member and members, and the end record of the flush it holds
(R267). -/
structure SpillSb where
  seq : Nat
  group : Nat
  parity : Nat
  members : List Nat
  endRec : List Byte
  deriving DecidableEq, Repr

/-- A spill set (R266): its state 0 erased and verified, 1 written, 2 dirty; the flush number it holds; the flush is
journaled complete; the grains it holds by Cornice index; its erase count, the block rows that replace its own on
some dies (R298), its spill superblocks, and the indices of grains spilled poisoned (R526). -/
structure SpillSet where
  state : Nat
  flush : Nat
  complete : Bool
  grains : List (Nat × List Byte)
  pe : Nat
  repl : List (Nat × Nat)
  supers : List SpillSb := []
  bad : List Nat := []
  deriving DecidableEq, Repr

/-! ### Coordination (R310 to R349) -/

/-- The holders of one chunk of a version, by position, and which positions are held at D1 and at D3. -/
structure CoChunk where
  chunk : Nat
  holders : List (Nat × Nat)
  d1 : List Nat
  d3 : List Nat
  lost : List Nat
  deriving DecidableEq, Repr

/-- A version at its coordinator. States as Table 3.14: 1 pending, 2 committed, 3 superseded, 4 aborted. -/
structure CoVer where
  version : Nat
  storeId : Nat
  st : Nat
  intent : Bool
  tomb : Bool
  k : Nat
  m : Nat
  thr : Nat
  ack : Nat
  dom : DomLevel
  domShort : Bool
  valueLen : Nat
  nChunks : Nat
  chunks : List CoChunk
  assignedAt : Nat
  commitTime : Nat
  zext : List (Nat × Nat)
  unacked : List Nat
  sentAt : Nat
  deriving DecidableEq, Repr

/-- A coordinating record of one key (R68): greatest version assigned, and its versions. -/
structure CoRec where
  ns : Nat
  key : Key
  bin : Nat
  greatest : Nat
  vers : List CoVer
  deriving DecidableEq, Repr

/-! ### Firn journal -/

/-- A Firn journal record (Table 10.6): each sets one journaled object to its new value, so that the STANDBY applies
it without computing a placement, allocation or version of its own (R173, R418). -/
inductive JRec where
  | kw (r : KwRec)
  | item (i : Item)
  | itemDel (ns chunk : Nat) (key : Key) (storeId pos : Nat)
  | co (r : CoRec)
  | coDel (ns : Nat) (key : Key)
  | floor (bin v : Nat)
  | ledger (e : LEntry)
  | ledgerPurge (ns : Nat)
  | sb (r : SbRec)
  | counter (v : Nat)
  | flush (n : Nat) (set : Nat) (complete : Bool)
  | pe (die block n : Nat)
  | bad (die block : Nat)
  | drift (die group v : Nat)
  | salt (ns gen : Nat)
  | incarnation (n : Nat)
  | storeIntent (storeId : Nat)
  | purge (ns : Nat) (pending : Bool)
  | metaMap (add : List (Nat × FGrain)) (gone : List Nat)
  deriving DecidableEq, Repr

/-! ### Hinge frames -/

/-- An entry of the Error Information log (Table 3.22). -/
structure ErrEntry where
  count : Nat
  qid : Nat
  cid : Nat
  st : Status
  ns : Nat
  deriving DecidableEq, Repr

/-- A controller (R101). Asynchronous event kinds: 0 SMART / Health, 1 Notice, 2 Moraine record, 3 Service Address. -/
structure Ctrl where
  id : Nat
  mgmt : Bool
  disc : Bool
  nqn : String
  /-- keep-alive timeout in ms, last command -/
  kato : Nat
  seenAt : Nat
  /-- I/O queues granted (R101) -/
  queues : Nat
  /-- Asynchronous Event Configuration, outstanding requests, kinds reported and not read, kinds waiting for a request -/
  aec : Nat
  aers : List Nat
  masked : List Nat
  waiting : List (Nat × Nat)
  /-- Store Admission Timeout in ms (R106) -/
  sat : Nat
  /-- controller configuration and shutdown status (R593) -/
  cc : Nat
  shst : Nat
  /-- properties without a behaviour of their own, by offset, as written (Table 3.3) -/
  props : List (Nat × Nat)
  errors : List ErrEntry
  errCount : Nat
  changed : List Nat
  deriving DecidableEq, Repr

/-- State of a connection or queue pair that the twins share, with its controller and queue (Table 10.7, kinds 2 and 8). -/
structure ConnSt where
  idx : Nat
  rdma : Bool
  mgmt : Bool
  disc : Bool
  cntl : Nat
  qid : Nat
  qsize : Nat
  inited : Bool
  hdgst : Bool
  ddgst : Bool
  align : Nat
  sndAck : Nat
  sndNxt : Nat
  rcvNxt : Nat
  wnd : Nat
  mac : Nat
  v6 : Bool := true
  mss : Nat := 8940
  nqn : String
  kato : Nat
  /-- the controller, of its admin queue (R96; log 49) -/
  ctrl : Option Ctrl
  deriving DecidableEq, Repr

/-- A capsule as it is mirrored, whole: opcode, submission queue entry, the key of its fused pair or its own, and the filter its
handle named when the command was accepted (R133). -/
structure Cap where
  opc : Nat
  q : Sqe
  key : Key
  filter : Option Automaton
  /-- data of an admin command -/
  data : List Byte := []
  deriving DecidableEq, Repr

/-- Transport entries (Table 10.7). -/
inductive TEntry where
  | select (idx : Nat)
  | openConn (c : ConnSt)
  | close
  | context (ns hostBuf opts : Nat)
  | compact (cid opc opts : Nat) (key : Key)
  | capsule (c : Cap)
  | plan (cid off first : Nat)
  | progress (sndAck rcvNxt wnd cong : Nat)
  deriving DecidableEq, Repr

/-- An operation table entry (Table 10.8). -/
structure OpEntry where
  die : Nat
  op : Nat
  state : Nat
  block : Nat
  wl : Nat
  planes : Nat
  suspends : Nat
  source : Nat
  sb : Nat
  issued : Nat
  deriving DecidableEq, Repr

/-- A view entry (R307, Table 8.7), with the slot that marked it suspected first (R336) and how often it is still to
be carried (R333). -/
structure VSlot where
  slot : Nat
  state : SlotState
  suspected : Bool
  inc : Nat
  time : Nat
  marker : Nat
  left : Nat
  deriving DecidableEq, Repr

/-- A bulk lease (R351): `peer` is the sender at a receiver and the receiver at a sender. -/
structure Lease where
  id : Nat
  peer : Nat
  queue : Nat
  asked : Nat
  rate : Nat
  locked : Bool
  last : Nat
  deriving DecidableEq, Repr

/-- A receive window (R360): the greatest sequence accepted and the accepted ones among the 1 024 below it. -/
structure RxWin where
  slot : Nat
  role : Nat
  greatest : Nat
  seen : List Nat
  deriving DecidableEq, Repr

/-- One position of a chunk at its entry pair (R319, R322). -/
structure EPos where
  pos : Nat
  slot : Nat
  sentAt : Option Nat
  resends : Nat
  level : Nat
  unplaced : Bool
  deriving DecidableEq, Repr

/-- One chunk of a Store at its entry pair. -/
structure EChunk where
  chunk : Nat
  len : Nat
  grains : List Nat
  bin : Nat
  poss : List EPos
  passed : List Nat
  sentAt : Nat
  allSent : Bool
  domShort : Bool
  deriving DecidableEq, Repr

/-- A changing command at its entry pair (R71, R319 to R327). Stages: 0 waiting for admission, 1 gathering
acknowledgements, 2 Commit Request sent, 3 confirmed and waiting for intents, 4 ended and only discharging. -/
structure EStore where
  id : Nat
  conn : Nat
  cid : Nat
  ns : Nat
  key : Key
  tomb : Bool
  pol : Policy
  opts : StoreOpts
  valueLen : Nat
  /-- payload bytes received so far (R102), 0 to valueLen -/
  got : Nat
  data : List Byte
  chunks : List EChunk
  version : Nat
  versionAt : Nat
  coord : Nat
  tries : Nat
  stage : Nat
  at_ : Nat
  commitAt : Nat
  intents : List Nat
  asked : List Nat
  posted : Bool
  d1 : Bool
  timeout : Nat
  qos : Nat
  deriving DecidableEq, Repr

/-- What Milmo State frames carry (Table 10.6); a lease is one held as sender or granted as receiver, and `final` notes the
end of a bin's handover to a slot (R343). -/
inductive MState where
  | view (v : VSlot)
  | lease (held : Bool) (l : Lease) | leaseEnd (held : Bool) (id peer : Nat)
  | window (w : RxWin)
  | storeCounter (n : Nat)
  | pendingStore (e : EStore) | storeEnd (id : Nat)
  | final (slot bin : Nat)
  deriving DecidableEq, Repr

/-- A registered filter (R130): its handle and what engines run (R226). -/
structure Filter where
  handle : Nat
  auto : Automaton
  deriving DecidableEq, Repr

/-- Bodies of hinge frames (Table 10.4). -/
inductive HBody where
  | hello (b : HelloB)
  | status (b : StatusB)
  | health (b : HealthB)
  | journal (first : Nat) (rs : List JRec)
  | corniceWrite (idx : Nat) (gs : List (List Byte))
  | corniceRelease (runs : List (Nat × Nat))
  | transport (es : List TEntry)
  | operation (es : List OpEntry) (gone : List (Nat × Nat × Nat))
  | milmoState (ms : List MState)
  | settings (fs : List Filter) (pstate : Nat) (feats : List (Nat × Nat × Nat))
  | counters (cs : List (Nat × Nat × Nat))
  | flushProgress (set idx : Nat)
  | mirrorAck (held jseq : Nat)
  | copyFirn (rs : List JRec) (es : List TEntry) (ops : List OpEntry) (ms : List MState)
  | copyCornice (gs : List (Nat × List Byte))
  | copyGranule (g tag : Nat) (ws : List SlotWrite)
  | joinStage (stage units : Nat)
  | yield (crit detail time : Nat)
  | handoff (last : Nat)
  deriving DecidableEq, Repr

end Sys2Proof
end

