-- ==== Sys2Proof/Syntax.lean ====
section
/-! DEFINITION. The commands of the VK8: one constructor for each row of spec/opcode_table.json, in the table's order,
with the operands its rule gives it. An operand is what reaches the device from outside with the command (the fields of
a capsule, datagram, frame or image, the level of a pin, a reading of a sensor or of a die); what the device keeps
stands in the state. Ranges are checked in WellFormed.lean. -/

namespace Sys2Proof

/-- What the keeper phase and core release meet on the board: the end times of the fills in ns after time 0 (R583), how long a
copy at start took and whether it succeeded within its two attempts (R617), the engines that failed their known-answer tests
(R500), PROV_EN and TWIN_PRESENT, whether the wrapped root key opens, what discovery reads, how long the media take to give the
checkpoint (R185), the layout version of the tunables that the running firmware has, the places of the retirement list whose
CRC fails, whether the last Keyway record of the ended run was torn, and the memory types firmware gives the granules that are not
coherent (R44, R174, R400, R486, R237, R269, R536, R572, R675). -/
structure ReleaseEnv where
  rows : List Nat
  copyNs : Nat
  copyOk : Bool
  katFails : List Nat
  provEn : Bool
  fitted : Bool
  rootOk : Bool
  disc : Discovery
  reloadNs : Nat
  layout : Nat
  badEntries : List Nat := []
  torn : Bool := false
  memMap : List (Nat × MemType) := []
  deriving DecidableEq, Repr

inductive Instr where
  -- start-up and shutdown
  | coldStart (role : Nat) (testEn : Bool) (dram : Nat)
  | wakeStart
  | warmStart
  | powerGoodRise (step : Nat) (frefOk mrefOk : Bool)
  | sequencingTimeout (step : Nat)
  | sequencingRetry
  | powerGoodFall (step : Nat)
  | fillDeadline
  | bankCopyDeadline (written : Nat)
  | coreRelease (env : ReleaseEnv)
  | unconfiguredRetry
  | helloWaitTimeout
  | keywayReloadDeadline
  | lendDeadline (trained : Nat)
  | servingDeadline
  | vddKeepLoss
  | controllerShutdown (a : Adm)
  | orderlyShutdown (a : Adm)
  | abruptShutdown (a : Adm)
  | shutdownDeadline
  | controllerEnable (a : Adm)
  | propertySet (a : Adm) (off val : Nat)
  | propertyGet (a : Adm) (off : Nat) (wide : Bool)
  | wakeFrame (f : Frame)
  | pfailWakeHold
  -- connections and admin commands
  | tcpConnectionAttempt (mgmt : Bool) (port : Nat) (peer : TcpPeer)
  | roceConnectionRequest (r : CmRequest)
  | tlsHandshake (conn : Nat)
  | initializeConnection (conn : Nat) (hdgst ddgst : Bool) (align : Nat) (other : Bool)
  | connectionLost (conn : Nat)
  | connect (a : Adm) (nqn : String) (subnqnOk : Bool) (cntl qid qsize kato : Nat)
  | disconnect (a : Adm)
  | authenticationSend (a : Adm)
  | authenticationReceive (a : Adm)
  | unsupportedOpcode (a : Adm) (opcode : Nat)
  | getLogPage (a : Adm) (lid off len : Nat) (rae : Bool) (lsp lsi : Nat)
  | identify (a : Adm) (cns nsid cntid csi : Nat)
  | abort (a : Adm) (sqid cid : Nat)
  | getFeatures (a : Adm) (fid sel : Nat)
  | setPowerManagement (a : Adm) (dw11 : Nat)
  | setNumberOfQueues (a : Adm) (dw11 : Nat)
  | setAsyncEventConfiguration (a : Adm) (dw11 : Nat)
  | setKeepAliveTimer (a : Adm) (dw11 : Nat)
  | setStoreAdmissionTimeout (a : Adm) (dw11 : Nat)
  | setFeaturesInvalid (a : Adm) (fid : Nat) (save : Bool)
  | asynchronousEventRequest (a : Adm)
  | keepAlive (a : Adm)
  | formatNvm (a : Adm) (nsid dw10 : Nat)
  | purgePassComplete (ns : Nat)
  | filterRegister (a : Adm) (dw10 : Nat) (bytes : List Byte)
  | filterRelease (a : Adm) (handle : Nat)
  | plannedTakeover (a : Adm)
  | firmwareImageDownload (a : Adm) (numd off : Nat) (data : List Byte)
  | commitConfiguration (a : Adm) (action bank : Nat)
  | commitStage (a : Adm) (slot opts : Nat)
  | commitStageActivate (a : Adm) (slot opts : Nat)
  | commitActivateStaged (a : Adm) (slot opts : Nat)
  | commitActivateRestart (a : Adm) (slot opts : Nat)
  | bankEraseComplete
  | bankEraseDeadline
  | trialConfirm
  | confirmationMonitor
  | rollbackFuseTimer
  | tftpWriteRequest (peer : Nat) (read octet : Bool)
  -- `len` is the number of data bytes by the datagram's UDP length; `raw` may hold padding of its frame after them
  | tftpData (peer block len : Nat) (raw : List Byte)
  -- host I/O commands
  | flush (q : Sqe)
  -- the value size is Dword 10 of the entry, the cursor its key field, offset and length of a SHED Dwords 10 and 12 (log 2)
  | store (q : Sqe) (valueLen : Nat) (data : List Byte)
  | retrieve (q : Sqe)
  | list (q : Sqe)
  | delete (q : Sqe)
  | exist (q : Sqe)
  | longStore (q : Sqe) (valueLen : Nat) (data : List Byte)
  | longRetrieve (q : Sqe)
  | longDelete (q : Sqe)
  | longExist (q : Sqe)
  | filteredRetrieve (q : Sqe)
  | patternList (q : Sqe) (cursor : List Byte)
  | keyCarrier (k : Carrier)
  | durabilityQuery (q : Sqe)
  | shed (q : Sqe) (off len : Nat)
  | corniceAdmissionGrant
  | admissionTimeout (conn cid : Nat)
  -- Keyway
  | keywayPendingWaitEnd (ns chunk : Nat) (key : Key)
  | checkpointGranuleWrite (ok : Bool)
  | deltaLogSegmentWrite (ok : Bool)
  | granuleRebuild (granule : Nat)
  | ledgerDeltaRunWrite (ns : Nat)
  | ledgerMerge (ns : Nat)
  | tombstoneRelease (ns : Nat) (key : Key)
  | versionRecordLapse (ns : Nat) (key : Key) (version : Nat)
  -- Ward and Rime
  | wardScrubTick (flips : List (Nat × WardEntry)) (lost : List Nat)
  | wardShadowRebuilt (bank entry : Nat)
  | wardScrubPassDeadline (bank : Nat)
  | wardGroupRelocation (bank : Nat)
  | rimeStringEnd (engine : Nat)
  | rimeEngineStall (engine : Nat)
  -- media
  | programUnitTimeout (sb : Nat)
  | flashProgramComplete (die block wl : Nat) (ok : Bool)
  | flashReadComplete (id : Nat) (step bits : Nat) (decoded tagOk crcOk : Bool) (levels : Nat)
  | flashEraseComplete (die block : Nat) (ok : Bool)
  | readingLadderDeadline (id : Nat)
  | dieReadyTimeout (die : Nat)
  | spillSetErase (set : Nat) (ok : Bool)
  | backgroundLevelRise (kind id id2 : Nat)
  | backgroundDeadline (kind id id2 : Nat)
  | sweepVisit (die block bits bitsDefault : Nat) (failed : List Nat)
  | sweepPassEnd
  | readCounterCopy
  | rewrite (die block : Nat)
  | garbageCollection
  | staticWearLevelling (die : Nat)
  | shedRecord (from_ : Nat) (ns : Nat) (key : Key) (version off len : Nat)
  -- power
  | powerFailDetected (cause v : Nat)
  | flushComplete (vEnd : Nat) (wrote : Bool)
  | flushDeadline
  | gaugePeriodTimer
  | gaugeRetryTimer
  | gaugeTestStart (v0 : Nat)
  | gaugeTestComplete (iT : Option Nat) (step : List Nat) (fit : List Nat)
  | gaugeTestDeadline
  | gaugeReading (v : Nat)
  | readOnlyExit
  | admissionExcessDeadline
  | powerMeasurement (core rails flash : Nat) (modelled : Bool)
  | capExceededDeadline
  | thermalAction (hottest : Int)
  | thermalTrip
  | thermalRestart
  | tokenRequest (use count rank : Nat)
  | tokenGrant
  | energyIntervalClose
  | powerStateAdopt
  -- pace and clocks
  | paceWindow (paces : List Nat)
  | paceDecision
  | avsbusTransaction (ok : Bool) (v i : Nat)
  | avsbusFailure
  | avsbusRetry (ok : Bool) (v i : Nat)
  | paceDeficit
  | refclockLoss (clock : Nat)
  | commandRestartDeadline (element : Nat)
  -- coherence
  | gets (r : CoreReq)
  | getm (r : CoreReq)
  | upgrade (r : CoreReq)
  | putm (c : Coh) (w : PutData)
  | pute (c : Coh)
  | puts (c : Coh)
  | fwdgets (c : Coh) (req : Nat) (evicting : Bool) (ws : List (Word × Bool))
  | fwdgetm (c : Coh) (req : Nat) (evicting : Bool) (ws : List (Word × Bool))
  | inv (c : Coh) (evicting : Bool)
  | recall (c : Coh) (evicting : Bool) (ws : List (Word × Bool))
  | crossedevict (c : Coh)
  | data (c : Coh) (toDir : Bool) (ws : List (Word × Bool)) (excl : Bool)
  | invack (c : Coh)
  | putack (c : Coh)
  -- memory integrity
  | coreLoadUncorrectable (core : Nat) (s : Site) (poison : Bool) (struct_ arg : Nat)
  | instructionFetchUncorrectable (cluster : Nat) (s : Site) (poison : Bool)
  | dmaReadUncorrectable (channel : Nat) (s : Site) (poison : Bool)
  | dmaChannelRestart (channel : Nat)
  | correctableRead (s : Site)
  | narrowWrite (core : Nat) (s : Site)
  | bucketLeak (bank : Nat)
  | memoryScrub (single bad : List Site)
  | selfTestComplete (s : Site) (failed : Bool)
  | selfTestDeadline (s : Site)
  | retirementEntryExpiry (s : Site)
  -- cipher
  | knownAnswerTest (path : Nat) (ok : Bool)
  | drbgReseed
  | maskReseed
  | entropyHealthFail (source test : Nat)
  | keyEpochChange (epoch : Nat)
  -- membership
  | probeTimer (targets : List Nat)
  | probeAckTimeout (pid : Nat) (helpers : List Nat)
  | probeRequestTimeout (pid : Nat)
  | lossTimeout (slot : Nat)
  | digestTimer (slot : Nat)
  | viewSyncRetry
  | placingReannounce
  | probe (h : Hdr) (b : ProbeB)
  | probeAck (h : Hdr) (b : ProbeB)
  | probeRequest (h : Hdr) (b : ProbeB)
  | viewDigest (h : Hdr) (d : Nat)
  | viewSync (h : Hdr) (us : List MUpdate)
  -- Store across the icefield
  | fragment (h : Hdr) (b : FragB)
  | fragmentAck (h : Hdr) (b : AckB)
  | d2DispatchTimeout (storeId chunk : Nat)
  | fragmentResend (storeId chunk pos : Nat)
  | commitRequest (h : Hdr) (b : CtlB)
  | commitIntent (h : Hdr) (b : CtlB)
  | intentAck (h : Hdr) (b : CtlB)
  | commitConfirm (h : Hdr) (b : CtlB)
  | commitNotice (h : Hdr) (b : CtlB)
  | abortNotice (h : Hdr) (b : CtlB)
  | statusQuery (h : Hdr) (b : CtlB)
  | versionAbortTimer (ns : Nat) (key : Key) (version : Nat)
  | abortNoticeResend (ns : Nat) (key : Key) (version : Nat)
  | storeLevelTimeout (storeId : Nat)
  | commitRequestResend (storeId : Nat)
  | holderStatusQuery (storeId chunk : Nat)
  -- reads and succession
  | locate (h : Hdr) (b : LocB)
  | locateReply (h : Hdr) (result hint : Nat) (rs : List StripeB)
  | readRequest (h : Hdr) (b : LocB)
  | readData (h : Hdr) (b : FragB)
  | readRequestTimeout (id chunk pos : Nat)
  | recordQuery (h : Hdr) (b : LocB)
  | recordReply (h : Hdr) (rs : List StripeB) (floor : Nat)
  | floorNotice (h : Hdr) (bin floor : Nat)
  | floorAck (h : Hdr) (bin floor : Nat)
  | floorNoticeResend (bin : Nat)
  | milmoDurabilityQuery (h : Hdr) (b : LocB)
  | durabilityReply (h : Hdr) (result hint : Nat) (r : DurRec)
  | orphanNotice (h : Hdr) (b : StripeB)
  | handoverRecord (h : Hdr) (b : StripeB) (floor : Nat)
  | handoverFinal (bin : Nat)
  | holderReturn (h : Hdr) (b : StripeB) (keep : Option Bool)
  | holderReturnTimeout (ns : Nat) (key : Key)
  | repairOrder (h : Hdr) (b : StripeB) (pos : Nat)
  | repairRetry (ns : Nat) (key : Key)
  | rebalance (slot : Nat)
  -- bulk and listing
  | leaseRequest (h : Hdr) (b : LeaseB)
  | permit (h : Hdr) (b : LeaseB)
  | permitTimer
  | leaseExpiry (id : Nat)
  | calendarSlot (frame slot : Nat)
  | listingGatherRequest (h : Hdr) (b : GatherB)
  | listingGatherReply (h : Hdr) (b : GatherB)
  | listingGatherResend (id slot : Nat)
  | milmoInvalidType (h : Hdr) (body : List Byte)
  -- update forwarding
  | updateOffer (h : Hdr) (b : FwdB)
  | updatePull (h : Hdr) (b : FwdB)
  | updateSegment (h : Hdr) (b : FwdB)
  | updateStaged (h : Hdr) (b : FwdB)
  | updateRefused (h : Hdr) (b : FwdB)
  | updateConfirmed (h : Hdr) (b : FwdB)
  | offerTimer
  | pullProgressTimeout
  | chainGiveUp
  | confirmedTimer
  -- network
  | frameReceive (f : Frame)
  | linkDown (mac : Nat) (fault : Nat)
  | linkUp (mac : Nat)
  | pfcFrameReceive (mac : Nat) (quanta : List (Nat × Nat))
  | pfcXoffRefresh (mac prio share : Nat)
  | pfcPauseDeadline (mac prio : Nat)
  | receiveBufferStall (mac : Nat)
  | txFrameAge (mac queue : Nat)
  | counterBit31 (mac counter : Nat)
  | counterSweep
  | arpRequest (mac target : Nat)
  | neighbourSolicitation (mac target : Nat)
  | echoRequest (mac : Nat) (v6 : Bool) (target : Nat) (bytes : List Byte)
  | pauseFrame (mac : Nat)
  | ptpSync (mac domain : Nat) (offset : Int) (parent : Nat)
  | ptpSyncTimeout
  | lldpTransmit
  | announcementRepeat
  | nrefclkLoss
  -- hold and beat
  | holdInRise
  | holdCollisionTimeout
  | keeperFeed
  | beatEdge
  | holdDriverTimer
  | beatInEdge
  | beatInSilent
  | takeoverTrigger
  | takeoverMonitor
  | standbyRoleRetake
  | yieldCriterion (crit detail : Nat)
  | yieldReturnTimeout
  | keeperReleaseRestart
  | twinPresentPoll (fitted : Bool)
  -- hinge link
  | linkLaneFail (lane : Nat)
  | linkRetrainTimeout
  | linkRetrainRetry
  | flitReceive (seq ack kind credits : Nat) (crcOk : Bool)
  | replayRequest (lastGood : Nat)
  | idleFlitTimer
  | hingeStatusTimer
  | healthReportTimer
  | hello (fseq : Nat) (b : HelloB)
  | joinRetry
  | status (fseq : Nat) (b : StatusB)
  | healthReport (fseq : Nat) (b : HealthB)
  | journal (fseq first : Nat) (rs : List JRec)
  | corniceWrite (fseq idx : Nat) (gs : List (List Byte))
  | corniceRelease (fseq : Nat) (runs : List (Nat × Nat))
  | transport (fseq : Nat) (es : List TEntry)
  | operation (fseq : Nat) (es : List OpEntry) (gone : List (Nat × Nat × Nat))
  | milmoState (fseq : Nat) (ms : List MState)
  | settings (fseq : Nat) (fs : List Filter) (pstate : Nat) (feats : List (Nat × Nat × Nat))
  | counters (fseq : Nat) (cs : List (Nat × Nat × Nat))
  | flushProgress (fseq set idx : Nat)
  | mirrorAck (fseq held jseq : Nat)
  | mirrorAckDeadline
  | copyFirn (fseq : Nat) (rs : List JRec) (es : List TEntry) (ops : List OpEntry) (ms : List MState)
  | copyCornice (fseq : Nat) (gs : List (Nat × List Byte))
  | copyGranule (fseq granule tag : Nat) (ws : List SlotWrite)
  | joinStage (fseq stage units : Nat)
  | yield (fseq crit detail time : Nat)
  | handoff (fseq last : Nat)
  | hingeInvalidFrame (type : Nat)
  -- Moraine
  | ringWrite
  | ringWriteComplete
  | ringWriteDeadline
  | summaryRecordTimer (code : Nat)
  -- later rows of the table
  | keepAliveTimeout (cntl : Nat)
  | hostToControllerData (conn cid off : Nat) (bytes : List Byte) (digestOk : Bool)
  | nvmeMiBasicManagement (cmd len : Nat)
  | nvmeMiCommand (msg : Nat) (opcode : Nat) (args : List Nat)
  | inputSupplyReturn
  | ptpAnnounce (mac domain : Nat) (prio : Nat) (parent : Nat)
  | holdInFall
  | hingeTrainingComplete (width : Nat)
  | healthReportTimeout
  | transportProgressTimer
  | retransmissionTimeout (conn : Nat)
  | thermalHandoverTimeout
  | localMediaFailureReport (slot : Nat) (b : StripeB) (pos : Nat)
  deriving DecidableEq, Repr

end Sys2Proof
end

