-- ==== Sys2Proof/Decode.lean ====
section
/-! DEFINITION. The command a table word spells. The rows of the table give their commands neither bits nor operands, so no word
spells one (log 2). -/

namespace Sys2Proof

/-- The command of a word of the table's bits: none, for no row gives bits. -/
def decodeTableWord (_nbits _w : Nat) : Option Instr := none

end Sys2Proof
end

