-- ==== Sys2Proof/Config.lean ====
section
/-! DEFINITION. What one implementation fixes and the values the spec leaves open: opaque constants without a body, so
that no statement can lean on a value (the assumption log names each). -/

namespace Sys2Proof

/-- 128 fresh mask bits, by the number of the draw (R501, R502; log 5). -/
opaque Config.maskBits : Nat → BitVec 128

/-- A namespace salt drawn from the DRBG: check value of the pair root key, namespace, number of the salt (R484, R502; log 5). -/
opaque Config.salt : Nat → Nat → Nat → BitVec 256

/-- The provisioning private key of a unit, by its serial number (R485, R505; log 5). -/
opaque Config.provisioningKey : Nat → Nat

/-- SHA-384 of an Esiosum firmware signing key, 0 or 1, in boot ROM (R604; log 5). -/
opaque Config.firmwareKey : Nat → BitVec 384

/-- The LDPC parity of the 4 192 bytes before it; the code is not in the spec (Table 6.4; log 5). -/
opaque Config.ldpcParity : List (BitVec 8) → Vector (BitVec 8) 334

/-- A fresh free value each time it is asked for, by the state's counter: bytes a read of released grains returns, and
every other value the spec leaves open at run time (log 6). -/
opaque Config.freeValue : Nat → BitVec 64

/-- The code of an event that a rule orders and that no table of codes lists, by the number of the rule (R39, R161, R168,
R186, R269, R400; log 13). -/
opaque Config.eventCode : Nat → BitVec 16

/-- The severity of such an event where its rule names none (R161, R168, R400; log 13). -/
opaque Config.eventSeverity : Nat → Fin 7

/-- Types of the two reports for which Table 8.5 has no type: 0 a SHED record, 1 a media failure report (log 147). -/
opaque Config.reportType : Fin 2 → BitVec 8

/-- Bytes the spec lays no field over in a hinge frame or a Milmo segment: what carries them, its sequence, index of the byte (logs 12,
147). -/
opaque Config.wireByte : Nat → Nat → Nat → BitVec 8

/-- The longest operation time of the dies in ns (R265; log 151). -/
opaque Config.dieOpTime : BitVec 32

/-- The rated endurance of a block in P/E cycles (Table 3.23; log 28). -/
opaque Config.ratedEndurance : BitVec 32

/-- The result of an activity model for a rail without a current input, in mW (R470: calibrated by Esiosum; log 6). -/
opaque Config.railModel : Nat → Nat

end Sys2Proof
end

