-- ==== Sys2Proof/Machine/Data.lean ====
section
/-! DEFINITION. Byte order (R15) and lists kept in one canonical form: association lists with strictly rising keys,
which hold sparse tables (Cornice grains, flash grains, Keyway slots, counters), and small list helpers. -/

namespace Sys2Proof.Machine

/-- `n` bytes of `v`, least significant first (R15). -/
def le (n v : Nat) : List Byte :=
  match n with
  | 0 => []
  | k + 1 => BitVec.ofNat 8 v :: le k (v / 256)

/-- `n` bytes of `v`, most significant first (R15). -/
def be (n v : Nat) : List Byte := (le n v).reverse

/-- The number little-endian bytes spell. -/
def ofLe : List Byte → Nat
  | [] => 0
  | b :: bs => b.toNat + 256 * ofLe bs

/-- The number network-order bytes spell. -/
def ofBe (bs : List Byte) : Nat := ofLe bs.reverse

/-- `bs` cut or padded with zeros to `n` bytes (R17). -/
def padTo (n : Nat) (bs : List Byte) : List Byte := (bs ++ List.replicate n 0#8).take n

/-- A Boolean as the value of one bit. -/
def bit (b : Bool) (n : Nat) : Nat := if b then 2 ^ n else 0

/-- Value of key `k`. -/
def aGet {α : Type} (k : Nat) : List (Nat × α) → Option α
  | [] => none
  | (a, x) :: r => if a = k then some x else aGet k r

/-- Set key `k`, keeping keys strictly rising. -/
def aSet {α : Type} (k : Nat) (v : α) : List (Nat × α) → List (Nat × α)
  | [] => [(k, v)]
  | (a, x) :: r =>
    if k < a then (k, v) :: (a, x) :: r
    else if k = a then (k, v) :: r
    else (a, x) :: aSet k v r

/-- Remove key `k`. -/
def aDel {α : Type} (k : Nat) (l : List (Nat × α)) : List (Nat × α) := l.filter (fun p => p.1 != k)

/-- Keys strictly rising: the canonical form of the sparse tables. -/
def aWf {α : Type} : List (Nat × α) → Bool
  | [] => true
  | [_] => true
  | (a, _) :: (b, y) :: r => decide (a < b) && aWf ((b, y) :: r)

/-- Insert into an ascending list without repeats. -/
def sIns (k : Nat) : List Nat → List Nat
  | [] => [k]
  | a :: r => if k < a then k :: a :: r else if k = a then a :: r else a :: sIns k r

/-- The least number not in `l` that is at least `from_`, looking at most `fuel` numbers. -/
def leastFree (l : List Nat) (from_ : Nat) : Nat → Nat
  | 0 => from_
  | f + 1 => if l.contains from_ then leastFree l (from_ + 1) f else from_

/-- Replace the elements that `p` picks. -/
def updIf {α : Type} (p : α → Bool) (f : α → α) (l : List α) : List α := l.map (fun x => if p x then f x else x)

/-- Replace the first element that `p` picks, or append one. -/
def putIf {α : Type} (p : α → Bool) (v : α) : List α → List α
  | [] => [v]
  | x :: r => if p x then v :: r else x :: putIf p v r

/-- Bits of a mask as the list of their positions below `n`. -/
def maskBits (n m : Nat) : List Nat := (List.range n).filter (fun i => m.testBit i)

/-- The mask whose bits are the listed positions. -/
def toMask (l : List Nat) : Nat := l.foldl (fun m i => m ||| 2 ^ i) 0

/-- Greatest element, 0 of none. -/
def maxL (l : List Nat) : Nat := l.foldl max 0

/-- Sum. -/
def sumL (l : List Nat) : Nat := l.foldl (· + ·) 0

/-- ⌈a / b⌉. -/
def ceilDiv (a b : Nat) : Nat := (a + b - 1) / b

end Sys2Proof.Machine
end

