-- ==== Sys2Proof/Machine/Sha.lean ====
section
/-! DEFINITION. The hash functions the manual names: SHA-256 of sources and parts (R4, R223, R226) and SHA-384, the 64-bit variant cut
to 48 bytes (R505). -/

namespace Sys2Proof.Machine

/-- Blocks of `n` bytes. -/
def blocksOf (n : Nat) : Nat → List Byte → List (List Byte)
  | 0, _ => []
  | f + 1, bs => if bs.isEmpty then [] else bs.take n :: blocksOf n f (bs.drop n)

/-- A message with its padding: a one bit, zeros, and its length in bits in the last `l` bytes of a block of `n` bytes. -/
def shaPad (n l : Nat) (m : List Byte) : List Byte :=
  let z := (n - (m.length + 1 + l) % n) % n
  m ++ [0x80#8] ++ List.replicate z 0#8 ++ be l (8 * m.length)

/-- The round constants' fractional parts of cube roots of the first 80 primes, 64 bits each; SHA-256 uses the upper halves of the first
64. -/
def shaK1 : List (BitVec 64) :=
  [0x428a2f98d728ae22#64, 0x7137449123ef65cd#64, 0xb5c0fbcfec4d3b2f#64, 0xe9b5dba58189dbbc#64,
   0x3956c25bf348b538#64, 0x59f111f1b605d019#64, 0x923f82a4af194f9b#64, 0xab1c5ed5da6d8118#64,
   0xd807aa98a3030242#64, 0x12835b0145706fbe#64, 0x243185be4ee4b28c#64, 0x550c7dc3d5ffb4e2#64,
   0x72be5d74f27b896f#64, 0x80deb1fe3b1696b1#64, 0x9bdc06a725c71235#64, 0xc19bf174cf692694#64,
   0xe49b69c19ef14ad2#64, 0xefbe4786384f25e3#64, 0x0fc19dc68b8cd5b5#64, 0x240ca1cc77ac9c65#64]

def shaK2 : List (BitVec 64) :=
  [0x2de92c6f592b0275#64, 0x4a7484aa6ea6e483#64, 0x5cb0a9dcbd41fbd4#64, 0x76f988da831153b5#64,
   0x983e5152ee66dfab#64, 0xa831c66d2db43210#64, 0xb00327c898fb213f#64, 0xbf597fc7beef0ee4#64,
   0xc6e00bf33da88fc2#64, 0xd5a79147930aa725#64, 0x06ca6351e003826f#64, 0x142929670a0e6e70#64,
   0x27b70a8546d22ffc#64, 0x2e1b21385c26c926#64, 0x4d2c6dfc5ac42aed#64, 0x53380d139d95b3df#64,
   0x650a73548baf63de#64, 0x766a0abb3c77b2a8#64, 0x81c2c92e47edaee6#64, 0x92722c851482353b#64]

def shaK3 : List (BitVec 64) :=
  [0xa2bfe8a14cf10364#64, 0xa81a664bbc423001#64, 0xc24b8b70d0f89791#64, 0xc76c51a30654be30#64,
   0xd192e819d6ef5218#64, 0xd69906245565a910#64, 0xf40e35855771202a#64, 0x106aa07032bbd1b8#64,
   0x19a4c116b8d2d0c8#64, 0x1e376c085141ab53#64, 0x2748774cdf8eeb99#64, 0x34b0bcb5e19b48a8#64,
   0x391c0cb3c5c95a63#64, 0x4ed8aa4ae3418acb#64, 0x5b9cca4f7763e373#64, 0x682e6ff3d6b2b8a3#64,
   0x748f82ee5defb2fc#64, 0x78a5636f43172f60#64, 0x84c87814a1f0ab72#64, 0x8cc702081a6439ec#64]

def shaK4 : List (BitVec 64) :=
  [0x90befffa23631e28#64, 0xa4506cebde82bde9#64, 0xbef9a3f7b2c67915#64, 0xc67178f2e372532b#64,
   0xca273eceea26619c#64, 0xd186b8c721c0c207#64, 0xeada7dd6cde0eb1e#64, 0xf57d4f7fee6ed178#64,
   0x06f067aa72176fba#64, 0x0a637dc5a2c898a6#64, 0x113f9804bef90dae#64, 0x1b710b35131c471b#64,
   0x28db77f523047d84#64, 0x32caab7b40c72493#64, 0x3c9ebe0a15c9bebc#64, 0x431d67c49c100d4c#64,
   0x4cc5d4becb3e42b6#64, 0x597f299cfc657e2a#64, 0x5fcb6fab3ad6faec#64, 0x6c44198c4a475817#64]

def shaK : List (BitVec 64) := shaK1 ++ shaK2 ++ shaK3 ++ shaK4

/-- The rotations of a SHA-2 variant: large sigmas, then small sigmas with a shift as the last of three. -/
structure ShaRot where
  s0 : Nat × Nat × Nat
  s1 : Nat × Nat × Nat
  m0 : Nat × Nat × Nat
  m1 : Nat × Nat × Nat

def rot256 : ShaRot := ⟨(2, 13, 22), (6, 11, 25), (7, 18, 3), (17, 19, 10)⟩
def rot512 : ShaRot := ⟨(28, 34, 39), (14, 18, 41), (1, 8, 7), (19, 61, 6)⟩

/-- Message schedule: `n` further words after the last sixteen, latest first. -/
def shaSchedule {w : Nat} (r : ShaRot) : Nat → List (BitVec w) → List (BitVec w)
  | 0, ws => ws
  | n + 1, ws =>
    let g (i : Nat) : BitVec w := ws[i]?.getD 0
    let a := g 14
    let b := g 1
    let x := (a.rotateRight r.m0.1 ^^^ a.rotateRight r.m0.2.1) ^^^ a >>> r.m0.2.2
    let y := (b.rotateRight r.m1.1 ^^^ b.rotateRight r.m1.2.1) ^^^ b >>> r.m1.2.2
    shaSchedule r n ((g 15 + x + g 6 + y) :: ws)

/-- One round with a schedule word and its constant. -/
def shaRound {w : Nat} (r : ShaRot) (v : List (BitVec w)) (kw : BitVec w × BitVec w) : List (BitVec w) :=
  match v with
  | [a, b, c, d, e, f, g, h] =>
    let t1 := h + ((e.rotateRight r.s1.1 ^^^ e.rotateRight r.s1.2.1) ^^^ e.rotateRight r.s1.2.2) + ((e &&& f) ^^^ (~~~ e &&& g)) + kw.1 + kw.2
    let t2 := ((a.rotateRight r.s0.1 ^^^ a.rotateRight r.s0.2.1) ^^^ a.rotateRight r.s0.2.2) + (((a &&& b) ^^^ (a &&& c)) ^^^ (b &&& c))
    [t1 + t2, a, b, c, d + t1, e, f, g]
  | x => x

/-- One block into the chaining value. -/
def shaBlock {w : Nat} (r : ShaRot) (ks : List (BitVec w)) (h : List (BitVec w)) (blk : List Byte) : List (BitVec w) :=
  let ws := ((blocksOf (w / 8) 16 blk).map (fun b => BitVec.ofNat w (ofBe b))).reverse
  let all := (shaSchedule r (ks.length - 16) ws).reverse
  let v := (List.zip ks all).foldl (shaRound r) h
  (List.zip h v).map (fun p => p.1 + p.2)

/-- SHA-256. -/
def sha256 (m : List Byte) : List Byte :=
  let ks := (shaK.take 64).map (fun k => BitVec.ofNat 32 (k.toNat / 2 ^ 32))
  let h0 : List (BitVec 32) := [0x6a09e667#32, 0xbb67ae85#32, 0x3c6ef372#32, 0xa54ff53a#32, 0x510e527f#32, 0x9b05688c#32, 0x1f83d9ab#32, 0x5be0cd19#32]
  let p := shaPad 64 8 m
  ((blocksOf 64 (p.length / 64) p).foldl (shaBlock rot256 ks) h0).flatMap (fun x => be 4 x.toNat)

/-- SHA-384. -/
def sha384 (m : List Byte) : List Byte :=
  let h0 : List (BitVec 64) := [0xcbbb9d5dc1059ed8#64, 0x629a292a367cd507#64, 0x9159015a3070dd17#64, 0x152fecd8f70e5939#64,
    0x67332667ffc00b31#64, 0x8eb44a8768581511#64, 0xdb0c2e0d64f98fa7#64, 0x47b5481dbefa4fa4#64]
  let p := shaPad 128 16 m
  (((blocksOf 128 (p.length / 128) p).foldl (shaBlock rot512 shaK) h0).flatMap (fun x => be 8 x.toNat)).take 48

end Sys2Proof.Machine
end

