-- ==== Sys2Proof/Machine/Aes.lean ====
section
/-! DEFINITION. The ciphers the manual names: AES-256 in masked registers (R501), AES-256-GCM (R242, R493, R496), AES-256-CMAC and the
key derivation on it (R489), P-384 and the key derivation of a package (R505). -/

namespace Sys2Proof.Machine

/-! ### Masked registers (R501) -/

/-- XOR of two byte strings. -/
def xorBytes (a b : List Byte) : List Byte := List.zipWith (· ^^^ ·) a b

/-- The value a register stands for. -/
def unmask (x : Masked) : List Byte := xorBytes x.share0 x.share1

/-- A value under a mask. -/
def maskWith (v mask : List Byte) : Masked := ⟨xorBytes v mask, mask⟩

/-- 128 fresh mask bits: those of draw `n` of the device's mask generators (R501, R502). -/
def maskOf (n : Nat) : List Byte := le 16 (Config.maskBits n).toNat

/-- A key register of 256 bits under the masks of two draws. -/
def maskKey (v : List Byte) (n : Nat) : Masked := maskWith v (maskOf n ++ maskOf (n + 1))

/-- A round step: its result is held under the mask of draw `n`. -/
def roundStep (f : List Byte → List Byte) (n : Nat) (x : Masked) : Masked := maskWith (f (unmask x)) (maskOf n)

/-! ### AES-256 (FIPS 197) -/

/-- Multiply by x modulo x^8 + x^4 + x^3 + x + 1. -/
def aesX (a : Byte) : Byte := if a.getLsbD 7 then (a <<< 1) ^^^ 0x1B#8 else a <<< 1

/-- Product in the field of AES: `n` bits of `b` remain. -/
def aesMulN : Nat → Byte → Byte → Byte
  | 0, _, _ => 0
  | n + 1, a, b => (if b.getLsbD 0 then a else 0) ^^^ aesMulN n (aesX a) (b >>> 1)

/-- a^(2^(n+1) - 2), for n = 7 the inverse of every nonzero element. -/
def aesPow : Nat → Byte → Byte
  | 0, _ => 1
  | n + 1, a => let r := aesMulN 8 (aesPow n a) (if n = 0 then 1 else a)
                aesMulN 8 r r

/-- SubBytes of one byte. -/
def aesSub (a : Byte) : Byte :=
  let b := aesPow 8 a
  b ^^^ b.rotateLeft 1 ^^^ b.rotateLeft 2 ^^^ b.rotateLeft 3 ^^^ b.rotateLeft 4 ^^^ 0x63#8

/-- ShiftRows on sixteen bytes, column by column. -/
def shiftRows (b : List Byte) : List Byte := (List.range 16).map (fun i => b.getD ((i + 4 * (i % 4)) % 16) 0)

/-- MixColumns of one column. -/
def mixColumn (c : List Byte) : List Byte :=
  (List.range 4).map (fun i =>
    let g (j : Nat) : Byte := c.getD ((i + j) % 4) 0
    aesX (g 0) ^^^ (aesX (g 1) ^^^ g 1) ^^^ g 2 ^^^ g 3)

/-- MixColumns. -/
def mixColumns (b : List Byte) : List Byte := (blocksOf 4 4 b).flatMap mixColumn

/-- The words of the key schedule, latest first: `i` is the number of the next word. -/
def keyWords : Nat → Nat → Byte → List (List Byte) → List (List Byte)
  | 0, _, _, ws => ws
  | f + 1, i, rcon, ws =>
    let last := ws.headD []
    let t := if i % 8 = 0 then xorBytes ((last.drop 1 ++ last.take 1).map aesSub) [rcon, 0, 0, 0]
      else if i % 8 = 4 then last.map aesSub else last
    keyWords f (i + 1) (if i % 8 = 0 then aesX rcon else rcon) (xorBytes (ws.getD 7 []) t :: ws)

/-- Round key `r`, in a masked register. -/
def roundKeys (key : Masked) (n : Nat) : List Masked :=
  let ws := (keyWords 52 8 1 (blocksOf 4 8 (unmask key)).reverse).reverse
  (List.range 15).map (fun r => maskWith (((ws.drop (4 * r)).take 4).flatten) (maskOf (n + r)))

/-- Mask draws of one block: a round key and a round step each take one. -/
def aesDraws : Nat := 30

/-- One block through the cipher from draw `n` on, its state and its round keys in masked registers throughout. -/
def aesBlock (key : Masked) (n : Nat) (blk : List Byte) : List Byte :=
  let ks := roundKeys key n
  let k (r : Nat) : List Byte := (ks[r]?.map unmask).getD []
  let start := roundStep (fun b => xorBytes b (k 0)) (n + 15) (maskWith blk (maskOf n))
  let mid := (List.range 13).foldl (fun x r =>
    roundStep (fun b => xorBytes (mixColumns (shiftRows (b.map aesSub))) (k (r + 1))) (n + 16 + r) x) start
  unmask (roundStep (fun b => xorBytes (shiftRows (b.map aesSub)) (k 14)) (n + 29) mid)

/-! ### GCM (SP 800-38D) -/

/-- Product in the field of GHASH: bit 0 is the most significant. `m` bits of `x` remain. -/
def ghMulN : Nat → BitVec 128 → BitVec 128 → BitVec 128 → BitVec 128
  | 0, _, _, z => z
  | m + 1, x, v, z =>
    ghMulN m (x <<< 1) (if v.getLsbD 0 then (v >>> 1) ^^^ (0xE1#128 <<< 120) else v >>> 1) (if x.getMsbD 0 then z ^^^ v else z)

/-- GHASH of blocks under a hash key. -/
def ghash (h : BitVec 128) (blks : List (List Byte)) : BitVec 128 :=
  blks.foldl (fun y b => ghMulN 128 (y ^^^ BitVec.ofNat 128 (ofBe (padTo 16 b))) h 0) 0

/-- Blocks of 16 bytes, the last one short. -/
def blocks16 (bs : List Byte) : List (List Byte) := blocksOf 16 (ceilDiv bs.length 16) bs

/-- Counter-mode keystream XOR text; the counter block is the IV and a counter from `c` on. -/
def ctr (key : Masked) (n : Nat) (iv : List Byte) (c : Nat) (text : List Byte) : List Byte :=
  (blocks16 text).zipIdx.flatMap (fun p => xorBytes p.1 (aesBlock key (n + aesDraws * p.2) (iv ++ be 4 (c + p.2))))

/-- Tag over associated data and ciphertext. -/
def gcmTag (key : Masked) (n : Nat) (iv aad ct : List Byte) : List Byte :=
  let h := BitVec.ofNat 128 (ofBe (aesBlock key n (List.replicate 16 0#8)))
  let s := ghash h (blocks16 aad ++ blocks16 ct ++ [be 8 (8 * aad.length) ++ be 8 (8 * ct.length)])
  xorBytes (be 16 s.toNat) (aesBlock key (n + aesDraws) (iv ++ be 4 1))

/-- AES-256-GCM under a 96-bit IV: ciphertext and tag. -/
def gcmSeal (key : Masked) (n : Nat) (iv aad text : List Byte) : List Byte × List Byte :=
  let ct := ctr key (n + 2 * aesDraws) iv 2 text
  (ct, gcmTag key n iv aad ct)

/-- Open a sealed text: nothing where the tag fails. -/
def gcmOpen (key : Masked) (n : Nat) (iv aad ct tag : List Byte) : Option (List Byte) :=
  if gcmTag key n iv aad ct = tag then some (ctr key (n + 2 * aesDraws) iv 2 ct) else none

/-! ### CMAC and key derivation (SP 800-38B, SP 800-108, R489) -/

/-- Double a block in the field of CMAC. -/
def cmacDouble (b : List Byte) : List Byte :=
  let v := BitVec.ofNat 128 (ofBe b)
  be 16 (if v.getMsbD 0 then (v <<< 1) ^^^ 0x87#128 else v <<< 1).toNat

/-- CMAC-AES-256. -/
def cmac (key : Masked) (n : Nat) (m : List Byte) : List Byte :=
  let k1 := cmacDouble (aesBlock key n (List.replicate 16 0#8))
  let bs := blocks16 m
  let last := bs.getLastD []
  let fin := if last.length = 16 then xorBytes last k1 else xorBytes (padTo 16 (last ++ [0x80#8])) (cmacDouble k1)
  (bs.dropLast ++ [fin]).zipIdx.foldl (fun x b => aesBlock key (n + aesDraws * (b.2 + 1)) (xorBytes x b.1)) (List.replicate 16 0#8)

/-- Input block of the key derivation (Table 12.2). -/
def kdfBlock (i purpose ns : Nat) (salt : List Byte) (epoch l : Nat) : List Byte :=
  be 4 i ++ [0x56#8, 0x4B#8, 0x4B#8, 0x44#8] ++ [0x00#8] ++ le 1 purpose ++ le 2 ns ++ padTo 32 salt ++ le 8 epoch ++ be 4 l

/-- Output length of a purpose in bits (Table 12.3). -/
def kdfBits (purpose : Nat) : Nat := if purpose = 5 ∨ purpose = 6 then 128 else 256

/-- Mask draws of one PRF and of one derivation: five blocks for the 56 bytes of Table 12.2, twice. -/
def prfDraws : Nat := 5 * aesDraws
def kdfDraws : Nat := 2 * prfDraws

/-- A derived key (R489): the first L bits of PRF(1) and PRF(2). -/
def kdf (root : Masked) (n purpose ns : Nat) (salt : List Byte) (epoch : Nat) : List Byte :=
  let l := kdfBits purpose
  let prf (i : Nat) : List Byte := cmac root (n + prfDraws * (i - 1)) (kdfBlock i purpose ns salt epoch l)
  if l = 128 then prf 1 else prf 1 ++ prf 2

/-- Key check value of a root key: the first 4 bytes of purpose 0x05, as the number they spell (R487, R504). -/
def checkOf (root : Masked) (n : Nat) : Nat := ofLe ((kdf root n 5 0 [] 0).take 4)

/-! ### P-384 (FIPS 186) -/

/-- The field's modulus and the curve's coefficient b. -/
def p384 : Nat := 2 ^ 384 - 2 ^ 128 - 2 ^ 96 + 2 ^ 32 - 1
def b384 : Nat :=
  0xb3312fa7e23ee7e4988e056be3f82d19181d9c6efe8141120314088f5013875ac656398d8a2ed19d2a85c8edd3ec2aef

/-- x^e modulo the field, `f` bits of `e`. -/
def powMod : Nat → Nat → Nat → Nat
  | 0, _, _ => 1
  | f + 1, x, e => let r := powMod f (x * x % p384) (e / 2); if e % 2 = 1 then r * x % p384 else r

/-- Inverse and difference in the field. -/
def invMod (x : Nat) : Nat := powMod 384 x (p384 - 2)
def subMod (a b : Nat) : Nat := (a + p384 - b % p384) % p384

/-- A point of the curve; none is the one at infinity. -/
abbrev Point := Option (Nat × Nat)

/-- A pair of coordinates is a point: y² = x³ − 3x + b. -/
def onCurve (x y : Nat) : Bool :=
  decide (x < p384) && decide (y < p384) && decide (y * y % p384 = (subMod (x * x * x) (3 * x) + b384) % p384)

/-- Sum of two points. -/
def addPoint (p q : Point) : Point :=
  match p, q with
  | none, _ => q
  | _, none => p
  | some (x1, y1), some (x2, y2) =>
    if x1 = x2 ∧ (y1 + y2) % p384 = 0 then none
    else
      let s := if x1 = x2 then subMod (3 * x1 * x1) 3 * invMod (2 * y1 % p384) % p384
        else subMod y2 y1 * invMod (subMod x2 x1) % p384
      let x := subMod (s * s) (x1 + x2)
      some (x, subMod (s * subMod x1 x) y1)

/-- A multiple of a point: `f` bits of `e`. -/
def mulPoint : Nat → Nat → Point → Point
  | 0, _, _ => none
  | f + 1, e, p => let r := mulPoint f (e / 2) (addPoint p p); if e % 2 = 1 then addPoint r p else r

/-- A point in the uncompressed encoding of SEC 1. -/
def decodePoint (bs : List Byte) : Point :=
  let x := ofBe ((bs.drop 1).take 48)
  let y := ofBe ((bs.drop 49).take 48)
  if bs.length = 97 ∧ bs.head? = some 0x04#8 ∧ onCurve x y then some (x, y) else none

/-- ECDH: the x coordinate of the shared point (SP 800-56A); none for no point. -/
def ecdh (scalar : Nat) (bs : List Byte) : Option (List Byte) :=
  (mulPoint 384 scalar (decodePoint bs)).map (fun p => be 48 p.1)

/-- Order of the base point, and the base point (FIPS 186). -/
def order384 : Nat :=
  0xffffffffffffffffffffffffffffffffffffffffffffffffc7634d81f4372ddf581a0db248b0a77aecec196accc52973
def base384 : Point :=
  some (0xaa87ca22be8b05378eb1c71ef320ad746e1d3b628ba79b9859f741e082542a385502f25dbf55296c3a545e3872760ab7,
        0x3617de4a96262c6f5d9e98bf9292dc29f8f41dbd289a147ce9da3113b5f0b8c00a60b1ce1d7e819d7a431d7c90ea0e5f)

/-- x^e modulo the order, `f` bits of `e`. -/
def powOrder : Nat → Nat → Nat → Nat
  | 0, _, _ => 1
  | f + 1, x, e => let r := powOrder f (x * x % order384) (e / 2); if e % 2 = 1 then r * x % order384 else r

/-- ECDSA over P-384 with SHA-384: the signature (r, s) of a message verifies under a public key (FIPS 186-5, R544). -/
def ecdsaVerify (pub msg : List Byte) (r s : Nat) : Bool :=
  let z := ofBe (sha384 msg)
  let w := powOrder 384 s (order384 - 2)
  let q := decodePoint pub
  decide (0 < r) && decide (r < order384) && decide (0 < s) && decide (s < order384) && q.isSome &&
    match addPoint (mulPoint 384 (z * w % order384) base384) (mulPoint 384 (r * w % order384) q) with
    | some (x, _) => x % order384 == r
    | none => false

/-- The one-step key derivation of SP 800-56C with SHA-384, 256 bits (R505). -/
def oneStep (z fixedInfo : List Byte) : List Byte := (sha384 (be 4 1 ++ z ++ fixedInfo)).take 32

end Sys2Proof.Machine
end

