-- ==== Sys2Proof/Machine/State.lean ====
section
/-! DEFINITION. The state of one VK8 device as plain data, subsystem by subsystem, with its value right after reset:
VDD_KEEP is absent and the device has never run. Each field's comment names the rule of spec/ that gives it. -/

namespace Sys2Proof.Machine

/-- Why the machine stops. No command of this model stops it: every row of the table has an effect, or leaves the
state as it is while the row's condition does not hold (R12). -/
inductive Fault where
  /-- never raised; kept so that the type is inhabited. Safe. -/
  | none
  deriving DecidableEq, Repr

/-- Why a command has no meaning. -/
inductive Refusal where
  /-- a row of the table without a meaning yet, by its mnemonic; raised by Dispatch.lean only. Safe. -/
  | notModelled (mnemonic : String)
  deriving DecidableEq, Repr

/-- What the device sends or drives, in the order it does so. Addresses of hosts and of other slots are carried as the
numbers that name them in this model. -/
inductive Out where
  /-- a Milmo datagram to one slot: transmit queue (Table 8.3), datagram sequence (R358), body -/
  | milmo (slot queue seq : Nat) (b : Body)
  /-- one multicast datagram to the group of a bin (R320) -/
  | milmoGroup (bin queue seq : Nat) (b : Body)
  /-- a datagram relayed to the former coordinator of a bin under handover, or to its new one, as from its first sender
  (R343): to, from, body -/
  | forward (slot from_ : Nat) (b : Body)
  /-- a frame on the hinge link with its frame sequence (R413) -/
  | hinge (seq : Nat) (b : HBody)
  /-- the bytes of that frame (Table 10.3) -/
  | frameBytes (bytes : List Byte)
  /-- a flit: kind, acknowledged sequence, first data flit resent (R412); and the bytes of flits (Table 10.2) -/
  | flit (kind ack from_ : Nat) | flitBytes (bytes : List Byte)
  /-- an Ethernet frame of what stands before it leaves a MAC (chapter 9) -/
  | frame (f : TxFrame)
  /-- completion of a command: connection, command, status, result Dwords 0 and 1, bytes transferred to the host -/
  | complete (conn cid : Nat) (st : Status) (dw0 dw1 : Nat) (bytes : List Byte)
  /-- ready-to-transfer for payload (R102): connection, command, offset, length -/
  | readyToTransfer (conn cid off len : Nat)
  /-- an RDMA Read of payload (R102): connection, command, offset, length -/
  | rdmaRead (conn cid off len : Nat)
  /-- transport acknowledgement of received bytes (R83) -/
  | transportAck (conn seq : Nat)
  /-- retransmission from a sequence (R421, R436) -/
  | retransmit (conn from_ : Nat)
  /-- a connection accepted, reset or rejected (R98, R101) -/
  | connAccept (conn : Nat) | connReset (conn : Nat) | connReject (mgmt : Bool)
  /-- NVMe/TCP initialize response: PDU format version, digests, data alignment asked, largest host-to-controller data of a PDU; and
  termination request (R102) -/
  | icResp (conn pfv : Nat) (hdgst ddgst : Bool) (align maxH2cData : Nat) | c2hTerm (conn reason : Nat)
  /-- frames the network unit originates: MAC, kind, address or bytes (R369, R384, R395) -/
  | arpReply (mac addr : Nat) | neighbourAdvert (mac addr : Nat) | echoReply (mac : Nat) (v6 : Bool) (addr : Nat) (bytes : List Byte)
  | announce (mac addr : Nat) | groupReport (mac bin : Nat) | groupLeave (mac bin : Nat) | lldp (mac : Nat) | pfc (mac prio : Nat) (xoff : Bool)
  /-- a coherence message of Table 1.10: name, region, cluster, line, words with their poison marks (R43 to R51) -/
  | coh (kind : String) (region cluster line : Nat) (ws : List (Word × Bool))
  /-- flash commands: die, operation (Table 10.8, and 5 the resumption of a suspended one, 6 the suspension of one), block, wordline; a grain read; READ STATUS and CE_n high (R434) -/
  | flashOp (die op block wl : Nat) | flashRead (id addr step : Nat) | readStatus (die : Nat) | ceHigh (channel : Nat)
  | trainChannel (channel : Nat)
  /-- data-in of a program: die, block, wordline, rate in MT/s, the encoded pages of the program unit plane by plane (R236, R241, R250,
  R252) -/
  | dataIn (die block wl rate : Nat) (bytes : List Byte)
  /-- voltage request on the AVSBus in mV (R37) -/
  | avs (mv : Nat)
  /-- bytes on the SMBus in answer to the Basic Management Command, and an NVMe-MI response (R151) -/
  | smbus (bytes : List Byte) | mctp (status : Nat) (bytes : List Byte)
  /-- a TFTP packet: opcode, block or error code, the reason that an error's message carries, 0 for none (R625) -/
  | tftp (peer op arg reason : Nat)
  /-- a synchronous trap at a core (R522, R525): 1 narrow write, 2 uncorrectable load, 3 fetch -/
  | trap (core kind addr : Nat)
  /-- a self-test started at a site (R531) -/
  | selfTest (s : Site)
  deriving DecidableEq, Repr

/-! ### Moraine (chapter 17) -/

/-- A Moraine record (Table 17.1) with the flags of Table 17.2; `payload` holds the defined bytes of offset 32, the
rest being 0 (R637). -/
structure EvRec where
  seq : Nat
  time : Nat
  code : Nat
  sev : Nat
  ptp : Bool
  carried : Bool
  summary : Bool
  sat : Bool
  first : Bool
  path : Nat
  suppressed : Nat
  payload : List Byte
  deriving DecidableEq, Repr

/-- A code's suppressed occurrences: their number, the latest of them, and since when its bucket has held a token
with no further occurrence (R649, R650). -/
structure Suppr where
  count : Nat
  last : EvRec
  deriving DecidableEq, Repr

/-- A token bucket (R647): `level` is in units of 10^-9 token and stood so at `at_`. -/
structure Bucket where
  code : Nat
  level : Nat
  at_ : Nat
  deriving DecidableEq, Repr

/-- Records lost for a full buffer and not yet reported (R655): how many, first code and time, last code and time. -/
structure LostRun where
  count : Nat
  code0 : Nat
  time0 : Nat
  code1 : Nat
  time1 : Nat
  deriving DecidableEq, Repr

/-- The Moraine recorder. `mark`, `clean`, `ring` and `first` are in Firn; `carried` are happenings latched in a run
that ended before its cores could record them (R660) and stand in the keeper or in Firn; the rest is volatile. -/
structure Moraine where
  /-- the number the next admission takes (R641) -/
  next : Nat
  /-- reservation mark M (R642) -/
  mark : Nat
  /-- emitted records not yet written (R652), oldest first, with the number of them the running ring write took -/
  buffer : List EvRec
  /-- ring places in Firn that hold a record, oldest first (R656) -/
  ring : List EvRec
  /-- first-failure area (R658) -/
  first : List EvRec
  /-- ring closed clean (R643) -/
  clean : Bool
  /-- a ring write runs: records taken, its trigger, whether its deadline fault is recorded (R654) -/
  writing : Option (Nat × Nat × Bool)
  /-- a trigger waits for the current write to end (R654) -/
  trigger : Option Nat
  /-- the oldest record that no ring write has taken was admitted then (R654) -/
  waiting : Option Nat
  /-- the buffer stands at or above 3 072 since event 0x0040 (R653) -/
  high : Bool
  /-- records lost since start (R655) -/
  lost : Nat
  /-- the run of lost records that no record 0x0041 has reported yet (R655) -/
  lostRun : Option LostRun
  /-- write-through of a flush (R657) -/
  through : Bool
  /-- token buckets of the rate-limited codes (R647) -/
  buckets : List Bucket
  /-- suppressed occurrences by code (R649, R650) -/
  supp : List Suppr
  /-- numbers left unused at the last start (R643) -/
  skipped : Nat
  /-- ring writes since start (Table 17.13) -/
  writes : Nat
  /-- happenings latched in an ended run, still to be recorded (R660) -/
  carried : List EvRec
  /-- happenings of the keeper phase of this start (R660 point 5) -/
  phase : List EvRec
  deriving DecidableEq, Repr

/-- Moraine of a device that has recorded nothing: its first record will be 1 (R641). M is the model's choice (log 10). -/
def Moraine.reset : Moraine :=
  { next := 1, mark := 1, buffer := [], ring := [], first := [], clean := true, writing := none, trigger := none,
    waiting := none, high := false, lost := 0, lostRun := none, through := false, buckets := [], supp := [],
    skipped := 0, writes := 0, carried := [], phase := [] }

/-! ### Keeper: rails, start, hold and beat (chapters 10, 11, 15, 18) -/

/-- Where a device stands between power-up and power-down (R447, R476, R579, R582, R598, R624). -/
inductive Phase where
  /-- VDD_KEEP absent or PORST_N low -/
  | off
  /-- rails are being sequenced (R447) -/
  | sequencing
  /-- a sequencing failure waits for its retry (R447) -/
  | retry
  /-- three sequencing failures: only the Basic Management Command is answered (R447) -/
  | failed
  /-- fill and firmware verification (Table 15.2) -/
  | keeper
  /-- boot ROM in RECOVERY (R624) -/
  | recovery
  /-- cores released (R583) -/
  | released
  /-- stopped by the thermal action of 127 °C with its rails up (R472) -/
  | stopped
  /-- DORMANT (R476) -/
  | dormant
  /-- powered down with only the VDD_KEEP domain running (R448, R598) -/
  | down
  deriving DecidableEq, Repr

/-- The keeper. -/
structure Keeper where
  /-- where the device stands between power-up and power-down (R447, R476, R579, R598, R624) -/
  phase : Phase
  /-- PORST_N (R673) -/
  porst : Bool
  /-- ROLE strap as sampled: 0 A, 1 B (R399) -/
  role : Nat
  /-- TEST_EN as sampled (R675) -/
  testEn : Bool
  /-- PROV_EN as sampled at core release (R675) -/
  provEn : Bool
  /-- SEQ_EN1 to SEQ_EN<en> are asserted (R446) -/
  en : Nat
  /-- power-good inputs of steps 1 to `pg` have been high for 1 ms (R447) -/
  pg : Nat
  /-- when the last enable was asserted, or the last failure happened (R447) -/
  seqAt : Nat
  /-- sequencing failures of this power-up and the step that failed last (R447) -/
  failures : Nat
  failStep : Nat
  /-- kind, time 0 and cause of the current start (R579) -/
  kind : StartKind
  start0 : Nat
  cause : Option WarmCause
  /-- a restart the keeper has begun by another rule and whose warm start follows (Table 15.1) -/
  warmDue : Option WarmCause
  /-- when the fill began, and whether fault 0x9110 of it is recorded (R519, R521) -/
  fillAt : Option Nat
  fillMissed : Bool
  /-- end times of the rows of Table 15.2 latched (R583) -/
  rowTimes : List Nat
  /-- latched causes of R406 and R472 that event 0x0010 names (R583, R599): 0x4021, 0x6053 -/
  latched : List Nat
  /-- when the cores were released (R591) -/
  releasedAt : Nat
  /-- HOLD_OUT driven high (R397) -/
  holdOut : Bool
  /-- flash drivers, and controller-side terminations, enabled (R235, R401); the receivers are always on -/
  drivers : Bool
  terms : Bool
  /-- the JTAG port: its test logic is out of reset, and EXTEST is in force (R674) -/
  testLogic : Bool
  extest : Bool
  /-- HOLD_IN level and when it last changed -/
  holdIn : Bool
  /-- when HOLD_IN last changed (R397) -/
  holdInAt : Nat
  /-- form of BEAT_OUT (R405), its form before HOLD_OUT was driven, and its last edge -/
  beatOut : BeatForm
  beatWas : BeatForm
  beatOutAt : Nat
  /-- class of BEAT_IN and its last edge (R408) -/
  beatIn : BeatClass
  beatInAt : Nat
  /-- a feed has arrived since the previous normal edge, and the last feed (R406) -/
  fed : Bool
  fedAt : Nat
  /-- TWIN_PRESENT level as last read: low means fitted (R400) -/
  twinFitted : Bool
  /-- THERMTRIP_N driven low (R472) -/
  thermtrip : Bool
  /-- HOLD_TEST driven high (R456) -/
  holdTest : Bool
  /-- PFAIL_N low, and since when it has been high or low (R453, R476) -/
  pfail : Bool
  pfailAt : Nat
  /-- a wake match is held (R476, Table 9.9) -/
  wakeHeld : Bool
  /-- a wake match has been signalled to the keeper and its wake start follows (R393) -/
  wakeDue : Bool
  /-- time of the match (event 0x3300) -/
  wakeAt : Nat
  deriving DecidableEq, Repr

/-- The keeper before VDD_KEEP rises: every output released or low. -/
def Keeper.reset : Keeper :=
  { phase := .off, porst := false, role := 0, testEn := false, provEn := false, en := 0, pg := 0, seqAt := 0,
    failures := 0, failStep := 0, kind := .cold, start0 := 0, cause := none, warmDue := none, fillAt := none,
    fillMissed := false, rowTimes := [], latched := [], releasedAt := 0, holdOut := false, drivers := false, terms := false, testLogic := false, extest := false,
    holdIn := false, holdInAt := 0, beatOut := .none, beatWas := .none, beatOutAt := 0, beatIn := .silent,
    beatInAt := 0, fed := false, fedAt := 0, twinFitted := false, thermtrip := false, holdTest := false,
    pfail := false, pfailAt := 0, wakeHeld := false, wakeDue := false, wakeAt := 0 }

/-! ### Start-up and shutdown (chapter 15) -/

/-- Steps of a shutdown in progress (Table 15.6, R597). -/
structure Shutdown where
  abrupt : Bool
  at_ : Nat
  step : Nat
  takeover : Bool
  missed : Bool
  /-- steps 1 to 6 of an orderly shutdown that a warm start for an update follows (R612) -/
  update : Bool
  /-- grains spilled, and the end times of the steps (event 0x0021) -/
  spilled : Nat
  times : List Nat
  deriving DecidableEq, Repr

/-- What the start has reached. -/
structure Startup where
  /-- step of Table 15.3 reached, 0 before the role is taken -/
  step : Nat
  /-- the service MAC and addresses are taken (Table 15.3 step 8) -/
  service : Bool
  /-- serving (R590), and when -/
  serving : Bool
  /-- serving monitor: its expiry while armed (R591) -/
  servingBy : Option Nat
  /-- when each step ended (event 0x0012) -/
  stepTimes : List Nat
  /-- waiting for a Hello under step 4 of R426, since when, and the last 0x4080 -/
  waitSince : Option Nat
  waitNoted : Nat
  /-- unconfigured (R552), since the last try -/
  unconfigured : Bool
  triedAt : Nat
  /-- Keyway reload: first image read and whether complete (R185) -/
  reloadAt : Option Nat
  reloadMissed : Bool
  /-- what discovery reads at this start and how long the media take to give the checkpoint (R237, R185, log 60) -/
  disc : Discovery
  reloadNs : Nat
  /-- a lend is out: 1 this device lends, 2 this device borrows; since when (R587) -/
  lend : Nat
  /-- since when the lend is out (R587, R588) -/
  lendAt : Nat
  /-- the shutdown in progress (R595, R597) -/
  shutdown : Option Shutdown
  /-- SHST of the management controller property: 0, 1 in progress, 2 complete (R593) -/
  shst : Nat
  /-- service stopped by R28 or by a die-X fault (R428) -/
  stoppedServing : Bool
  /-- the last run ended in a power-fail flush or an abrupt end: the next start counts as unsafe (R580, R597) -/
  unsafeEnd : Bool
  /-- SMART: power cycles, unsafe shutdowns -/
  powerCycles : Nat
  /-- SMART unsafe shutdowns (Table 3.23) -/
  unsafeShutdowns : Nat
  /-- ns with the cores released, in runs that have ended (Table 3.23) -/
  onNs : Nat
  deriving DecidableEq, Repr

def Startup.reset : Startup :=
  { step := 0, service := false, serving := false, servingBy := none, stepTimes := [], waitSince := none,
    waitNoted := 0, unconfigured := false, triedAt := 0, reloadAt := none, reloadMissed := false, disc := ⟨[], [], [], [], [], []⟩, reloadNs := 0, lend := 0, lendAt := 0,
    shutdown := none, shst := 0, stoppedServing := false, unsafeEnd := false, powerCycles := 0, unsafeShutdowns := 0, onNs := 0 }

/-! ### Twin operation and the hinge link (chapter 10) -/

/-- Twin state. `complete` is in Firn (R425). -/
structure Twin where
  /-- role state (Table 3.24 offset 5, R426) -/
  roleState : RoleState
  /-- firmware decided that the device takes no role until its next cold start (R404, R431) -/
  noRole : Bool
  /-- at an ACTIVE: it treats its STANDBY as healthy; at a STANDBY: it is itself healthy (Table 10.9) -/
  healthy : Bool
  /-- journal complete (R425) -/
  complete : Bool
  /-- hinge link: up, width, retired lanes, retraining since (R410) -/
  linkUp : Bool
  width : Nat
  retired : List Nat
  trainSince : Option Nat
  /-- last attempt to retrain a down link (R441) -/
  triedAt : Nat
  /-- link session (R413): begun, next frame sequence sent, last received -/
  session : Bool
  txSeq : Nat
  rxSeq : Nat
  /-- this device sent its Hello in the session (R413) -/
  helloSent : Bool
  /-- the twin's Hello of this session (R413, R416) -/
  twinHello : Option HelloB
  /-- join refused with this reason, and when (R416) -/
  refused : Option Nat
  refusedAt : Nat
  /-- frames that require acknowledgement and have none: sequence, type, sent at (R419) -/
  unacked : List (Nat × Nat × Nat)
  /-- an Mirror Ack deadline was missed in this session (Table 10.9) -/
  ackMissed : Bool
  /-- frames held and journal sequence applied at a STANDBY (R418) -/
  held : Nat
  applied : Nat
  /-- Cornice indices copied and granules copied in the join (R424) -/
  joinStage : Nat
  /-- Copy Firn of the running join has begun, at a STANDBY -/
  copying : Bool
  /-- units copied in the running join stage (R424) -/
  joinUnits : Nat
  /-- when the stages of the join ended (event 0x4041, R424) -/
  joinTimes : List Nat
  /-- the twin's last Status and Health Report (R414, R423) -/
  status : Option StatusB
  statusAt : Nat
  report : Option HealthB
  reportAt : Nat
  /-- last Health Report and Status sent -/
  reportSent : Nat
  /-- when this device last sent a Status (R414) -/
  statusSent : Nat
  /-- D1 raised to D2 (R84) -/
  raised : Bool
  /-- collisions unresolved within 1 min (R404), the running collision, retake due -/
  collisions : List Nat
  collision : Option Nat
  retakeAt : Option Nat
  /-- yields within 24 h (R431); a yield released hold then; the criterion that stands (R427) -/
  yields : List Nat
  yieldAt : Option Nat
  criterion : Nat
  /-- detail of the criterion (Table 10.18) -/
  detail : Nat
  /-- a Yield frame of the twin came with this criterion; its Handoff frame came (R429, R442), at a STANDBY -/
  twinYield : Nat
  handoff : Bool
  /-- keeper released hold by R406 then (R430) -/
  keeperRelease : Option Nat
  /-- takeover: classification of R432 made then, step reached, fault recorded (R437), cause (0x4010) -/
  takeover : Option (Nat × Nat × Bool)
  /-- operations found in the table at the takeover and not done yet: die, block, wordline (R435); times of its steps -/
  resume : List (Nat × Nat × Nat)
  takeTimes : List Nat
  /-- since when the conditions of R432 hold at an unhealthy STANDBY -/
  retakeSince : Option Nat
  /-- planned takeover: sequence of the Handoff frame, connection and command to complete (R442), or the device's own reason
  (ownConn) -/
  planned : Option (Nat × Nat × Nat)
  /-- commands are not accepted while a planned takeover runs -/
  closedDoor : Bool
  /-- when a planned takeover of 127 °C began (R472) -/
  thermalHandover : Option Nat
  /-- critical-path misses in the window of Table 10.10 -/
  misses : List Nat
  /-- inconsistency of a hinge signal recorded (0x4051): 1 HOLD, 2 BEAT -/
  inconsistent : List Nat
  /-- since when HOLD is inconsistent (R441) -/
  holdOddSince : Option Nat
  /-- parked under R468 -/
  parked : Bool
  /-- flit layer (R411, R412): next data flit, replay buffer, last in-order flit received, last acknowledged by the
  twin, credits held (units of one flit), replays of the oldest flit, last flit sent, replay request owed -/
  flitTx : Nat
  replay : List (Nat × Flit)
  flitRx : Nat
  flitAcked : Nat
  credits : Nat
  replays : Nat
  flitAt : Nat
  /-- data flits that wait for credit or for room in the replay buffer -/
  flitWait : List Flit
  /-- received data flits whose credit is not returned yet -/
  rxFree : Nat := 0
  /-- operation table (R422) -/
  ops : List OpEntry
  /-- mirrored connections with their capsules and plans (R421), at a STANDBY -/
  conns : List (ConnSt × List Cap × List (Nat × Nat × Nat))
  /-- connection the transport entries of the hinge refer to (R421) -/
  selected : Nat
  /-- context of the compact form by connection: namespace, default buffer size, options (Table 10.7 kind 4), at a STANDBY -/
  contexts : List (Nat × Nat × Nat × Nat)
  /-- feature values of the pair's controllers, at a STANDBY: controller, feature, value (Table 10.6) -/
  feats : List (Nat × Nat × Nat)
  /-- channels whose write timing is trained; read timing trained on every channel (R236) -/
  writeTrained : List Nat
  readTrained : Bool
  /-- the retraining of the channels ends then (R236) -/
  trainBy : Option Nat
  deriving DecidableEq, Repr

/-- Twin state of a device that has never run; credits are the 8 MiB of R412. -/
def Twin.reset : Twin :=
  { roleState := .unassigned, noRole := false, healthy := false, complete := false, linkUp := false, width := 0,
    retired := [], trainSince := none, triedAt := 0, session := false, txSeq := 1, rxSeq := 0, helloSent := false,
    twinHello := none, refused := none, refusedAt := 0, unacked := [], ackMissed := false, held := 0, applied := 0,
    joinStage := 0, copying := false, joinUnits := 0, joinTimes := [], status := none, statusAt := 0, report := none, reportAt := 0,
    reportSent := 0, statusSent := 0, raised := false, collisions := [], collision := none, retakeAt := none,
    yields := [], yieldAt := none, criterion := 0, detail := 0, twinYield := 0, handoff := false, keeperRelease := none, takeover := none, resume := [], takeTimes := [], retakeSince := none,
    planned := none, closedDoor := false, thermalHandover := none, misses := [], inconsistent := [],
    holdOddSince := none, parked := false, flitTx := 0, replay := [], flitRx := 65535, flitAcked := 65535,
    credits := 16384, replays := 0, flitAt := 0, flitWait := [], ops := [], conns := [], selected := 0, contexts := [], feats := [], writeTrained := [],
    readTrained := false, trainBy := none }

/-! ### Power, hold-up and the Cornice (chapter 11) -/

/-- A gauge test that runs (R456): step reached, V0 in µV, when step 2 began, start or periodic. -/
structure GTest where
  step : Nat
  v0 : Nat
  at_ : Nat
  start : Bool
  missed : Bool
  deriving DecidableEq, Repr

/-- The hold-up gauge (R455 to R466). Capacitances in µF, resistances in µΩ, energies in µJ, voltages in µV. -/
structure Gauge where
  /-- C_g of the last passing test in µF (R457) -/
  cg : Option Nat
  /-- ESR of the last test in µΩ (R457) -/
  esr : Nat
  /-- capacitance the last failed periodic test measured, where it reached step 5 (R461) -/
  lastFailed : Option Nat
  /-- start tests failed in a row (R458) -/
  startFails : Nat
  /-- periodic tests failed in a row (R461) -/
  periodicFails : Nat
  /-- a test of this start has passed; the gauge is reported passed (R459) -/
  testPassed : Bool
  /-- the gauge is reported passed (R459) -/
  passed : Bool
  /-- the report was withdrawn (R461) -/
  withdrawn : Bool
  /-- a test is due (R455) -/
  due : Bool
  /-- a failed test is repeated then (R458) -/
  retryAt : Option Nat
  /-- when the last test ended (R455) -/
  lastTest : Nat
  /-- when the next periodic test is due (R455) -/
  nextDue : Nat
  /-- the test that runs (R456) -/
  test : Option GTest
  /-- a test waits for a flush or takeover to end (Table 11.11) -/
  waits : Bool
  /-- last reading of HOLD in µV (R462) -/
  v : Nat
  /-- E_usable in µJ (R462) -/
  eUse : Nat
  /-- own admission in MiB (R462), the twin's latest (R463) -/
  aDev : Nat
  aTwin : Nat
  /-- occupancy above admission since (R464), fault recorded -/
  excessSince : Option Nat
  /-- fault 0x9630 of the excess is recorded (R464) -/
  excessNoted : Bool
  /-- read-only (R465) and since when the energy has been back -/
  readOnly : Bool
  backSince : Option Nat
  /-- criterion and capacitance of each test that failed in a row (R482) -/
  failedTests : List (Nat × Nat) := []
  deriving DecidableEq, Repr

def Gauge.reset : Gauge :=
  { cg := none, esr := 0, lastFailed := none, startFails := 0, periodicFails := 0, testPassed := false, passed := false,
    withdrawn := false, due := false, retryAt := none, lastTest := 0, nextDue := 0, test := none, waits := false, v := 0, eUse := 0,
    aDev := 0, aTwin := 0, excessSince := none, excessNoted := false, readOnly := false, backSince := none, failedTests := [] }

/-- A flush that runs (R467) or a spill within a shutdown (R595, R597). -/
structure Flush where
  cause : Nat
  at_ : Nat
  set : Nat
  /-- grains still to write, in ascending Cornice index, and the highest index issued -/
  left : List Nat
  index : Nat
  spilled : Nat
  vStart : Nat
  measured : Bool
  number : Nat
  missed : Bool
  /-- 0 power failure, 1 orderly shutdown, 2 abrupt shutdown, 3 thermal stop, 4 a memory error (R526) -/
  why : Nat
  bytes : Nat
  deriving DecidableEq, Repr

/-- A token request (R473): what it is for (0 array read, 1 TLC or QLC program, 2 SLC program, 3 erase, 4 transfer,
5 die wake), its tokens, its rank and when it arrived; the operation of Table 10.8 it belongs to, when it has one. -/
structure TokReq where
  id : Nat
  die : Nat
  block : Nat
  wl : Nat
  use : Nat
  tokens : Nat
  rank : Nat
  at_ : Nat
  /-- when it was granted -/
  gotAt : Nat := 0
  deriving DecidableEq, Repr

/-- An energy interval record (Table 11.9). -/
structure Interval where
  seq : Nat
  start : Nat
  end_ : Nat
  flags : Nat
  ps0 : Nat
  ps1 : Nat
  device : Nat
  byTokens : Nat
  measured : Nat
  peak : Nat
  throttle : Nat
  thaw : Nat
  eUse : Nat
  admission : Nat
  deriving DecidableEq, Repr

/-- Power management. `progress` is what the twin's last Flush Progress frame named: spill set and Cornice index (R440). `ring`, `intervalSeq`, `eGibs` and the flush counters are in Firn. -/
structure Power where
  /-- the flush or spill that runs (R467) -/
  flush : Option Flush
  /-- what the twin's last Flush Progress frame named: spill set and Cornice index (R440) -/
  progress : Option (Nat × Nat)
  /-- flush number of the pair (R268) -/
  flushNo : Nat
  /-- the last 8 measured e_m in mJ per GiB (R466) -/
  eGibs : List Nat
  /-- power state in force (R108), the requested one not yet adopted and when it was asked -/
  pstate : Nat
  asked : Option (Nat × Nat)
  /-- tokens granted: request and tokens; waiting in arrival order; recent totals (R475) -/
  granted : List TokReq
  /-- token requests waiting, in arrival order (R473) -/
  waiting : List TokReq
  /-- urgent operations that ended within the last 10 ms: channel, granted, ended (R273) -/
  urgent : List (Nat × Nat × Nat) := []
  /-- grain reads that wait for the program or erase of their die, suspended 8 times already (R239) -/
  behind : List Nat
  /-- lowest totals of granted tokens of the last 10 µs (R475) -/
  lows : List (Nat × Nat)
  /-- number of the last token request (the MODEL's own label) -/
  tokenId : Nat
  /-- µs requests have waited on the limiter in the open interval -/
  thawWait : Nat
  /-- energy interval that is open (R477) and the ring -/
  open_ : Option Interval
  ring : List Interval
  /-- sequence of the last energy interval (R477) -/
  intervalSeq : Nat
  /-- averages above the cap in a row, the fraction of target by which the setpoint is lowered (percent), since when
  the cap is exceeded at the floor, fault recorded (R471) -/
  overs : Nat
  lowered : Nat
  floorSince : Option Nat
  floorNoted : Bool
  /-- last measured power of the device (R470) -/
  watts : Nat
  /-- hottest sensor in tenths of a degree; actions in force of Table 11.5 rows 1 to 3; cool since (R472) -/
  hottest : Int
  actions : List Nat
  coolSince : List (Nat × Nat)
  /-- stopped device: every sensor below 105 °C since -/
  coldSince : Option Nat
  deriving DecidableEq, Repr

def Power.reset : Power :=
  { flush := none, progress := none, flushNo := 0, eGibs := [], pstate := 0, asked := none, granted := [],
    waiting := [], behind := [], lows := [], tokenId := 0, thawWait := 0, open_ := none, ring := [], intervalSeq := 0, overs := 0,
    lowered := 0, floorSince := none, floorNoted := false, watts := 0, hottest := 0, actions := [], coolSince := [],
    coldSince := none }

/-! ### Pace loop and reference clocks (chapter 1) -/

/-- Pace loop (R36 to R40) and reference clocks (R35). -/
structure Pace where
  /-- VDD_CORE request in mV, and the last one a transaction carried (R39) -/
  vdd : Nat
  accepted : Nat
  /-- pace of each region at its latest window in stages/µs, and when that window ended (R36) -/
  paces : List Nat
  windowAt : Nat
  /-- lowest window of the running decision, windows taken, decisions above 1.04 of the setpoint in a row -/
  lowest : Option Nat
  /-- windows taken of the running decision (R36) -/
  windows : Nat
  /-- decisions above 1.04 of the setpoint in a row (R36) -/
  highs : Nat
  /-- AVSBus: read-back voltage and current, last transaction, failures in a row, loop frozen, retry due -/
  readV : Nat
  /-- AVSBus read-back current (R37) -/
  readI : Nat
  /-- last AVSBus transaction (R37) -/
  avsAt : Nat
  /-- failed transactions in a row (R39) -/
  avsFails : Nat
  /-- loop frozen (R39) -/
  frozen : Bool
  /-- retry due while frozen (R39) -/
  retryAt : Nat
  /-- pace below target at the limit since, and the milliseconds of it recorded (R40) -/
  deficitSince : Option Nat
  deficits : Nat
  /-- reference clocks lost: 0 NREFCLK, 1 HREFCLK, 2 FREFCLK, 3 MREFCLK -/
  clocksLost : List Nat
  deriving DecidableEq, Repr

/-- The pace loop starts at 0.80 V (R36, R582). -/
def Pace.reset : Pace :=
  { vdd := 800, accepted := 800, paces := [], windowAt := 0, lowest := none, windows := 0, highs := 0, readV := 0, readI := 0, avsAt := 0, avsFails := 0,
    frozen := false, retryAt := 0, deficitSince := none, deficits := 0, clocksLost := [] }

/-! ### Keyway (chapter 4) and the Cornice -/

/-- A granule image on flash (R179): granule, tag, the slots it holds and the marks; two places per granule. -/
structure GranImage where
  granule : Nat
  tag : Nat
  place : Nat
  valid : Bool
  slots : List (Nat × KwEntry)
  marks : List Nat
  deriving DecidableEq, Repr

/-- A delta-log segment (R180). -/
structure DeltaSeg where
  first : Nat
  last : Nat
  recs : List KwRec
  deriving DecidableEq, Repr

/-- A ledger run on flash (R192): namespace, 0 base or delta number, its entries in listing order. -/
structure LRun where
  ns : Nat
  base : Bool
  entries : List LEntry
  deriving DecidableEq, Repr

/-- A Store of an item that waits behind two pending entries (R153). -/
structure WaitStore where
  from_ : Nat
  role : Nat
  frag : FragB
  since : Nat
  deriving DecidableEq, Repr

/-- Keyway, ledger and Cornice. `slots`, `marks` are DRAM; images, the delta log, ledger runs and `items` are on
media and in Firn, and so survive a start. -/
structure Keyway where
  /-- DRAM fitted, in GiB (R158) -/
  dram : Nat
  /-- valid entries by 4 × bucket + slot, ascending -/
  slots : List (Nat × KwEntry)
  /-- buckets whose overflow mark M is set, ascending (R165) -/
  marks : List Nat
  /-- items held, each with its header (R152) -/
  items : List Item
  /-- fingerprint collisions counted (R167); items queued for verification (R168) -/
  collisions : Nat
  verify : List (Nat × Nat × Key)
  /-- last journal sequence of the pair; Keyway records still in Firn (R180) -/
  jseq : Nat
  firn : List KwRec
  /-- checkpoint: geometry B it fits, images, next granule, generation begun (R179 to R182) -/
  geometry : Option Nat
  images : List GranImage
  nextGranule : Nat
  genAt : Option Nat
  delta : List DeltaSeg
  /-- delta-log bytes (R181), and payload held back since the log reached 128 GiB -/
  deltaBytes : Nat
  heldBack : Bool
  /-- incomplete granules (R186) -/
  incomplete : List Nat
  /-- Stores of items that wait behind two pending entries (R153) -/
  waits : List WaitStore
  /-- ledger deltas in Firn, runs on flash (R192) -/
  deltas : List LEntry
  runs : List LRun
  /-- namespaces under a purge pass and who asked (R195, R509) -/
  purging : List (Nat × Nat × Nat)
  /-- Cornice grains by index, ascending (R184); free from the lowest index -/
  cornice : List (Nat × List Byte)
  deriving DecidableEq, Repr

def Keyway.reset : Keyway :=
  { dram := 0, slots := [], marks := [], items := [], collisions := 0, verify := [], jseq := 0, firn := [],
    geometry := none, images := [], nextGranule := 0, genAt := none, delta := [], deltaBytes := 0, heldBack := false,
    incomplete := [], waits := [], deltas := [], runs := [], purging := [], cornice := [] }

/-! ### Media (chapters 6 and 7) -/

/-- A background unit of the aging ladder (Table 7.1): its kind, what it concerns, since when it is due, its deadline
span, its level (0, 1, 2 urgent) and whether its deadline fault is recorded (R272 to R274). -/
structure BgUnit where
  kind : Nat
  id : Nat
  id2 : Nat
  due : Nat
  span : Nat
  level : Nat
  fault : Bool
  deriving DecidableEq, Repr

/-- A grain read in flight (R260, R263): `why` 0 to serve a read or to verify an item queued under R168 (id of the
serve), 1 to relocate (id of the move), 2 verification of a new grain (sequence of its superblock). -/
structure GrainRead where
  id : Nat
  addr : Nat
  step : Nat
  at_ : Nat
  why : Nat
  of_ : Nat
  noted : Bool
  /-- rank in which its die operations wait (R272) -/
  rank : Nat := 0
  deriving DecidableEq, Repr

/-- A read request that waits for grains of an item from flash: who asked, for which bytes of which item (Table 8.12). -/
structure Serve where
  id : Nat
  slot : Nat
  queue : Nat
  ns : Nat
  chunk : Nat
  key : Key
  version : Nat
  pos : Nat
  off : Nat
  len : Nat
  left : List Nat
  failed : Bool
  deriving DecidableEq, Repr

/-- A relocation in progress (R284): the item, source grains still to read, the new grains once written; `high` for a
static wear-levelling destination (R294). -/
structure Move where
  id : Nat
  ns : Nat
  chunk : Nat
  key : Key
  storeId : Nat
  pos : Nat
  counter : Nat
  left : List Nat
  new : List Nat
  sb : Nat
  high : Bool
  deriving DecidableEq, Repr

/-- Flash array, superblocks and media care. Firn holds `sbs`, `pe`, `bad`, `drift`, `counter`, `sbSeq`, the read
counters' copies and the SHED tables. -/
structure Media where
  /-- dies found and accepted; excluded or silent; lost (R237, R265) -/
  accepted : Nat
  excluded : List Nat
  lost : List Nat
  /-- grains on flash by grain address, ascending -/
  flash : List (Nat × FGrain)
  /-- grains laid and not verified yet (R254) -/
  unver : List Nat
  /-- superblock records (Table 6.6) -/
  sbs : List SbRec
  /-- last superblock sequence (Table 6.6) -/
  sbSeq : Nat
  /-- version counter of the pair (R244) -/
  counter : Nat
  /-- grain reads in flight (R260, R263) -/
  reads : List GrainRead
  /-- number of the last grain read (the MODEL's own label) -/
  readId : Nat
  /-- read requests that wait for grains from flash (R330) -/
  serves : List Serve
  /-- relocations in progress (R284) -/
  moves : List Move
  /-- grains that a relocation has replaced and that a read begun before it still waits for (Table 4.8) -/
  dying : List Nat
  /-- program/erase counts by (die, block), grown-bad blocks (R295, R297) -/
  pe : List (Nat × Nat × Nat)
  bad : List (Nat × Nat)
  /-- verification failures by block row; rewrite reports by block row with the P/E count then (R297) -/
  vfails : List (Nat × Nat)
  reports : List (Nat × Nat × Nat)
  /-- drift table entries by (die, block group): levels word and age (R262); entries written in this pass (R280) -/
  drift : List (Nat × Nat × Nat × Nat)
  driftNew : List (Nat × Nat)
  /-- read counters by (die, block), and their copy in Firn (R281) -/
  rdc : List (Nat × Nat × Nat)
  rdcCopy : List (Nat × Nat × Nat)
  copiedAt : Nat
  /-- units of the aging ladder (R271) -/
  bg : List BgUnit
  /-- begin of the sweep pass (R276) -/
  sweepAt : Nat
  /-- spill sets A and B, the set of the last flush (R266 to R270) -/
  setA : SpillSet
  setB : SpillSet
  lastSet : Nat
  /-- Cornice indices restored from a set and still in the Cornice (R270) -/
  restored : List Nat
  /-- released grains by item (R300): namespace, chunk, key, version, data grain indices -/
  shed : List (Nat × Nat × Key × Nat × List Nat)
  /-- sparse items: lead grain, data grains kept (R301) -/
  sparse : List (Nat × List Nat)
  /-- the blocks marked bad by the die maker are entered in the grown-bad bitmap (R297) -/
  factory : Bool := false
  /-- free superblocks fell below: 1 the floor, 2 the reserve (R290) -/
  lowNoted : Nat
  /-- grains relocated since start -/
  moved : Nat
  /-- available spare below its threshold noted: 1, at 0 %: 2 (R299) -/
  spareNoted : Nat
  deriving DecidableEq, Repr

/-- Both spill sets of a new drive are taken as erased and verified only after the model's erase (R270): state 2. -/
def Media.reset : Media :=
  { accepted := 0, excluded := [], lost := [], flash := [], unver := [], sbs := [], sbSeq := 0, counter := 0,
    reads := [], readId := 0, serves := [], moves := [], dying := [], pe := [], bad := [], vfails := [], reports := [], drift := [],
    driftNew := [], rdc := [], rdcCopy := [], copiedAt := 0, bg := [], sweepAt := 0, setA := ⟨2, 0, false, [], 0, [], [], []⟩,
    setB := ⟨2, 0, false, [], 0, [], [], []⟩, lastSet := 1, restored := [], shed := [], sparse := [], lowNoted := 0, moved := 0,
    spareNoted := 0 }


/-! ### Icefield (chapter 8) -/

/-- A probe of this pair in flight or just ended (R332, R337): target, identifier, sent at, the helper of a Probe Request,
and 0 running 1 answered 2 failed. -/
structure Probing where
  target : Nat
  pid : Nat
  at_ : Nat
  helper : Option Nat
  result : Nat
  deriving DecidableEq, Repr

/-- A reading command at its answering pair (R329 to R331), and what reads like one. `kind` 0 Retrieve, 1 Exist, 2 Long
Retrieve, 3 Long Exist, 4 Filtered Retrieve, 5 Durability Query, 6 repair read (R346), 7 SHED; stages 0 Locate or
Durability Query sent, 1 reads outstanding, 2 waiting for a coordinator or, for a repair, for more survivors, 3 scanning. -/
structure ERead where
  id : Nat
  conn : Nat
  cid : Nat
  kind : Nat
  ns : Nat
  key : Key
  off : Nat
  len : Nat
  buf : Nat
  handle : Nat
  /-- the filter its handle named when the command was accepted (R133) -/
  filter : Option Automaton
  opts : Nat
  expected : Nat
  coord : Nat
  tries : Nat
  stage : Nat
  at_ : Nat
  /-- stripe records in, by chunk -/
  recs : List StripeB
  /-- reads outstanding: chunk, position, slot, sent at; pieces in: chunk, position, bytes; tried: chunk, position -/
  want : List (Nat × Nat × Nat × Nat)
  got : List (Nat × Nat × List Byte)
  tried : List (Nat × Nat)
  /-- Record Queries under R331: slots asked, records in -/
  asked : List Nat
  replies : List (Nat × StripeB)
  /-- grains that pieces in do not hold any more: chunk, position, grain (R135, R301) -/
  gone : List (Nat × Nat × Nat) := []
  deriving DecidableEq, Repr

/-- A listing gather at its answering pair (R118, R119, R357): the command and its start; requests without a reply (slot,
resends, last sent); slots with more keys (slot, last entry, cursor); entries in. -/
structure Gather where
  id : Nat
  conn : Nat
  cid : Nat
  ns : Nat
  pattern : Bool
  source : List Byte
  cursor : List Byte
  startKey : Key
  buf : Nat
  asked : List (Nat × Nat × Nat)
  more : List (Nat × GEntry × List Byte)
  entries : List GEntry
  deriving DecidableEq, Repr

/-- Records a successor gathers for a key (R340): slots it waits for, replies in, requests to serve afterwards. -/
structure Succ where
  ns : Nat
  key : Key
  waits : List Nat
  got : List (Nat × StripeB)
  floors : List Nat
  held : List (Nat × Body)
  /-- versions at D1 that wait for their entry pair's answer (R341) -/
  asks : List Nat
  /-- chunks above 0 of pending versions that slots are still to report: chunk and slot (R81, R341) -/
  more : List (Nat × Nat)
  deriving DecidableEq, Repr

/-- A floor raise under way (R344): bin, floor, slots that have not answered, record to discard, last send. -/
structure FloorRaise where
  bin : Nat
  floor : Nat
  waits : List Nat
  ns : Nat
  key : Key
  at_ : Nat
  deriving DecidableEq, Repr

/-- Requests held for a bin whose records have all been sent (R343): the bin, who asked, what. -/
structure HeldReq where
  bin : Nat
  from_ : Nat
  body : Body
  deriving DecidableEq, Repr

/-- A repair ordered by this coordinator (R345) or run by this new holder (R346). -/
structure Repair where
  rec_ : StripeB
  pos : Nat
  holder : Nat
  mine : Bool
  at_ : Nat
  rebalance : Bool
  old : Nat
  deriving DecidableEq, Repr

/-- Icefield state of the pair; everything but the transmit sequence is mirrored (Table 10.6, R420). -/
structure Ice where
  /-- own slot, none when no roster entry carries the pair ID (R305) -/
  slot : Option Nat
  /-- a view has been adopted or formed (R309), sync requests sent so far, last, begun -/
  viewed : Bool
  syncTries : Nat
  syncAt : Nat
  syncFrom : Nat
  /-- the view: state, incarnation, suspected mark and times of every slot (R307, Table 8.1) -/
  view : List VSlot
  /-- own incarnation, in Firn (R334), and own state as announced -/
  inc : Nat
  /-- own state as announced (R307) -/
  own : SlotState
  /-- announcements of the own state still to send (R333) -/
  ownLeft : Nat
  /-- closing causes in force: 1 Keyway, 2 free superblocks, 3 spare, 4 shutdown; when it closed, when the last ended (R308) -/
  causes : List Nat
  /-- when the pair closed (R308) -/
  closedAt : Nat
  /-- when the last closing cause ended (R308) -/
  causesEnded : Option Nat
  /-- own probes in flight or just ended (R332, R337) -/
  probes : List Probing
  /-- identifier of the last probe (R332) -/
  probeId : Nat
  /-- when the last probe was sent (R332) -/
  probeAt : Nat
  /-- when the last view digest was sent (R335) -/
  digestAt : Nat
  /-- the pair is isolated (R337) -/
  isolated : Bool
  /-- Milmo transmit sequence of this device, and its high-water mark in Firn (R358) -/
  txSeq : Nat
  txMark : Nat
  /-- key epoch (R359) -/
  epoch : Nat
  /-- receive windows by slot and role (R358, R360) -/
  windows : List RxWin
  /-- Store ID counter (R319 Table 8.8); journaled intents (R325) -/
  storeId : Nat
  /-- journaled intents (R325) -/
  intents : List Nat
  /-- Stores and Deletes at their entry pair (R319 to R327) -/
  stores : List EStore
  /-- reading commands at their answering pair (R329 to R331) -/
  readsE : List ERead
  /-- listing gathers at their answering pair (R357) -/
  gathers : List Gather
  /-- number of the next entry of those lists (the MODEL's own label) -/
  nextId : Nat
  /-- coordination -/
  recs : List CoRec
  /-- version floors by bin (R344) -/
  floors : List (Nat × Nat)
  /-- gathers of a successor (R340) -/
  succs : List Succ
  /-- floor raises under way (R344) -/
  raises : List FloorRaise
  /-- slots whose entry into the placing set put bins under handover (R343), the bins whose final record was sent to or
  received by such a slot, and requests held for a bin -/
  entering : List Nat
  finals : List (Nat × Nat)
  handHeld : List HeldReq
  /-- repairs ordered or run (R345, R346) -/
  repairs : List Repair
  /-- slots that left the placing set since this pair formed its view, and when: their bins are taken by succession (R339) -/
  departed : List (Nat × Nat)
  /-- items offered back after a return: namespace, key, since (R349) -/
  returned : List (Nat × Key × Nat)
  /-- leases granted by this pair (as receiver) and held by it (as sender) (R351) -/
  granted : List Lease
  leases : List Lease
  /-- when the last Permit was sent (R351) -/
  permitAt : Nat
  /-- calendar fall-back recorded (R355), calendar slot admitted -/
  fallback : Bool
  calSlot : Option (Nat × Nat)
  /-- bulk datagrams that wait for a lease or a calendar slot: slot, queue, body (R351, R354) -/
  bulk : List (Nat × Nat × Body)
  /-- Fragment Acks that reached this coordinator before it gave their Store ID a version: slot, ack (R323, R329) -/
  early : List (Nat × AckB)
  /-- bodies to handle before the command ends: what the pair sends to its own slot, and held requests that may now be
  served; sender and body -/
  mail : List (Nat × Body)
  /-- datagrams dropped, by cause of R360 (0 form, 1 roster, 2 incarnation, 3 epoch, 4 tag, 5 replay, 6 Cornice full, 7 not listed) -/
  drops : List (Nat × Nat)
  /-- multicast groups joined (bins) -/
  groups : List Nat
  /-- objects recorded lost (R347): namespace and key, once each -/
  lostObjs : List (Nat × Key)
  deriving DecidableEq, Repr

def Ice.reset : Ice :=
  { slot := none, viewed := false, syncTries := 0, syncAt := 0, syncFrom := 0, view := [], inc := 0, own := .absent,
    ownLeft := 0, causes := [], closedAt := 0, causesEnded := none, probes := [], probeId := 0,
    probeAt := 0, digestAt := 0, isolated := false, txSeq := 0, txMark := 0, epoch := 0, windows := [], storeId := 0,
    intents := [], stores := [], readsE := [], gathers := [], nextId := 1, recs := [], floors := [], succs := [],
    raises := [], entering := [], finals := [], handHeld := [], repairs := [], departed := [], bulk := [], early := [], returned := [], granted := [], leases := [],
    permitAt := 0, fallback := false, calSlot := none, mail := [], drops := [], groups := [], lostObjs := [] }

/-! ### Host connections and controllers (chapter 3) -/

/-- A connection or queue pair. `cntl` is its controller's number, 0 before Connect; `qid` 0 is the admin queue. -/
structure Conn where
  idx : Nat
  rdma : Bool
  mgmt : Bool
  disc : Bool
  cntl : Nat
  qid : Nat
  qsize : Nat
  /-- initialize-connection exchange done, digests, alignment (R102) -/
  inited : Bool
  hdgst : Bool
  ddgst : Bool
  align : Nat
  /-- key block of a Key Carrier that awaits its fused command (R123): command, namespace, key, block valid -/
  carrier : Option (Nat × Nat × Key × Bool)
  /-- send-acknowledged, next to send, receive sequence, window (Table 10.7) -/
  sndAck : Nat
  sndNxt : Nat
  rcvNxt : Nat
  wnd : Nat
  /-- MAC of the latest segment or packet received (R374) -/
  mac : Nat
  /-- IPv6, and the peer's maximum segment size or the path MTU (Table 9.8) -/
  v6 : Bool := true
  mss : Nat := 8940
  deriving DecidableEq, Repr

/-- Host-facing state of the pair; it is mirrored (Table 10.6), the counters are the device's own. -/
structure HostSt where
  /-- connections and queue pairs (R98, Table 3.1) -/
  conns : List Conn
  /-- controllers (R101) -/
  ctrls : List Ctrl
  /-- registered filters (R130) -/
  filters : List Filter
  /-- Service Address generation (R149) -/
  generation : Nat
  /-- host value bytes written and read, commands completed, Unrecovered Error completions (Table 3.23) -/
  bytesWritten : Nat
  bytesRead : Nat
  writes : Nat
  reads : Nat
  mediaErrors : Nat
  /-- namespaces of the configuration of the previous start and their host lists, for the Changed Namespace List (Table 3.22) -/
  lastNs : List (Nat × List String)
  /-- SMBus frequency set by Configuration Set, in kHz (R151) -/
  smbusKhz : Nat
  deriving DecidableEq, Repr

def HostSt.reset : HostSt :=
  { conns := [], ctrls := [], filters := [], generation := 0, bytesWritten := 0, bytesRead := 0,
    writes := 0, reads := 0, mediaErrors := 0, lastNs := [], smbusKhz := 100 }

/-! ### PTP (R388 to R391) -/

/-- The PTP clock of this device. -/
structure Ptp where
  /-- PTP is locked (R390) -/
  locked : Bool
  /-- a parent is selected: its port, identity and priority value (R388) -/
  parent : Option (Nat × Nat × Nat)
  /-- last offset estimate in ns; Syncs in a row within 250 ns and beyond 500 ns; last Sync (R390) -/
  offset : Int
  good : Nat
  bad : Nat
  syncAt : Nat
  deriving DecidableEq, Repr

def Ptp.reset : Ptp := { locked := false, parent := none, offset := 0, good := 0, bad := 0, syncAt := 0 }

/-! ### Network ports (chapter 9) -/

/-- A frame that waits in a transmit queue (R370, R375); `multi` for a copy of a frame bound for several MACs (R384). -/
structure TxItem where
  queue : Nat
  at_ : Nat
  o : Out
  multi : Bool
  deriving DecidableEq, Repr

/-- A MAC: M0 to M15, and 16 for MM (R362, R366). -/
structure Mac where
  idx : Nat
  /-- 0 off, 1 400G, 2 200G, 3 100G, 4 1000BASE-X (Table 9.7) -/
  mode : Nat
  up : Bool
  /-- last instant without block lock or with a fault (R364) -/
  downAt : Nat
  laneRetired : Bool
  /-- counter words that are not 0 and 64-bit totals, by index (Tables 9.5, 9.6); saturation flag, its event recorded -/
  counts : List (Nat × Nat)
  totals : List (Nat × Nat)
  sat : Bool
  satNoted : Bool
  /-- octets carried to the next frame (R385) -/
  rxRem : Nat
  txRem : Nat
  /-- priorities paused by received PFC: since, until; priorities whose PFC is disregarded: until (R381, R383) -/
  paused : List (Nat × Nat × Nat)
  ignore : List (Nat × Nat)
  /-- XOFF in force by priority, last sent (R381); buffer without progress, last progress (R383) -/
  xoff : List (Nat × Nat)
  stalled : Bool
  progressAt : Nat
  /-- echo requests answered within the last second (R369) -/
  echo : List Nat
  txq : List TxItem
  deriving DecidableEq, Repr

/-- The ports. -/
structure Net where
  /-- the MACs M0 to M15 and MM (R362, R364) -/
  macs : List Mac
  /-- totals restarted (R387), counters read (R386), LLDP sent -/
  startAt : Nat
  sweptAt : Nat
  lldpAt : Nat
  /-- announcements and reports still to repeat, last sent (R384) -/
  annLeft : Nat
  repLeft : Nat
  annAt : Nat
  /-- since when no MAC of G0 to G3 is up (Table 10.10) -/
  noneSince : Option Nat
  deriving DecidableEq, Repr

def Net.reset : Net :=
  { macs := [], startAt := 0, sweptAt := 0, lldpAt := 0, annLeft := 0, repLeft := 0, annAt := 0, noneSince := none }


/-! ### Boot NOR, configuration and update (chapters 14 and 16) -/

/-- A firmware bank: its part of the boot pointer record (Table 16.7) and what it holds. States: 0 EMPTY, 1 PENDING,
2 TRIAL, 3 GOOD, 4 REJECTED, 5 ERASING. -/
structure Bank where
  state : Nat
  copy : Bool
  fwVer : Nat
  pkgId : Nat
  length : Nat
  secVer : Nat
  content : Option Package
  deriving DecidableEq, Repr

/-- An empty bank. -/
def Bank.empty : Bank := { state := 0, copy := false, fwVer := 0, pkgId := 0, length := 0, secVer := 0, content := none }

/-- A file in the incoming place (R607, R629): the bytes received, why it was refused (Table 16.4); where it comes from: 0 download on
connection `from_`, 1 the chain from slot `from_`; the Offer's origin and chain flag, package ID and length, and when the pull last made
progress. -/
structure Incoming where
  bytes : List Byte
  refused : Option Nat
  source : Nat
  from_ : Nat
  origin : Nat
  chain : Bool
  pkg : Nat
  length : Nat
  at_ : Nat
  deriving DecidableEq, Repr

/-- The staged place (R609): package, vendor bits of Table 16.6, when it was staged, source (0 download, 1 chain), origin
slot, and the slot that forwarded it. -/
structure Staged where
  pkg : Package
  forward : Bool
  chain : Bool
  at_ : Nat
  source : Nat
  origin : Nat
  from_ : Nat
  deriving DecidableEq, Repr

/-- The forwarder (R628): target, staged mask and SOLO flag the target reported, whether the target runs the package
confirmed (R634), last Offer, last pull progress, last Confirmed, and whether it has stopped. -/
structure Forwarder where
  target : Option Nat
  mask : List Nat
  solo : Bool
  confirmed : Bool
  offerAt : Nat
  progressAt : Nat
  confirmAt : Nat
  stopped : Bool
  deriving DecidableEq, Repr

/-- A TFTP transfer in RECOVERY (R625): peer, next block, bytes received. -/
structure Tftp where
  peer : Nat
  block : Nat
  bytes : List Byte
  deriving DecidableEq, Repr

/-- An operator key slot (R546): hash, valid and revoke fuses; spent when hash bits are programmed without the valid fuse. -/
structure KeySlot where
  hash : Nat
  valid : Bool
  revoked : Bool
  deriving DecidableEq, Repr

/-- Boot NOR, fuses, the Firn reserve and staging regions, and what confirmation watches. -/
structure Boot where
  /-- running bank (0 A, 1 B), in TRIAL, its package, core firmware version -/
  bank : Nat
  /-- the running bank is in TRIAL (R614) -/
  trial : Bool
  /-- the package that runs (R614) -/
  runs : Option Package
  /-- core firmware version (Table 16.1) -/
  fwVer : Nat
  /-- entries of the Rime library part that were accepted, by library index (R131, R225) -/
  library : List (Option Automaton)
  /-- governing boot pointer record (Table 16.7): sequence, banks, active bank, last bank run, failed starts -/
  seq : Nat
  bankA : Bank
  bankB : Bank
  active : Nat
  last : Nat
  failed : Nat
  /-- staging (R606) -/
  incoming : Option Incoming
  /-- the staged place (R609) -/
  staged : Option Staged
  /-- bank erase: the bank, since, activation asked, 0x9811 recorded, restart asked and the command that waits for it
  (R610, R612) -/
  erase : Option (Nat × Nat × Bool × Bool)
  restart : Option (Nat × Nat × Bool)
  /-- copy at this start (R617): the bank, since, 0x9812 recorded; when it ended -/
  copying : Option (Nat × Nat × Bool)
  copyEnd : Nat
  /-- this start has confirmed, and when; a yield criterion has held since core release (R619, Table 16.8) -/
  confirmed : Bool
  confirmedAt : Nat
  spoiled : Bool
  /-- failed starts since the bank was confirmed, and since when a confirmed bank runs without one (R623) -/
  cleanSince : Nat
  /-- rollback count F and revoked firmware keys (R604) -/
  fuseF : Nat
  fwRevoked : List Nat
  /-- a TRIAL the confirmation monitor ended, for event 0x8216: bank, package, condition unmet (R621) -/
  reverted : Option (Nat × Nat × Nat)
  /-- the TFTP transfer in RECOVERY (R625) -/
  tftp : Option Tftp
  /-- the forwarder (R628) -/
  forwarder : Option Forwarder
  /-- the staged package this device confirmed last, for its flags and origin: what Confirmed carries (R634) -/
  spread : Option Staged
  /-- activation gate open and the slot it was opened from (R632) -/
  gate : Option Nat
  /-- last twin turn (R630), last 0x8224 (R632) -/
  turnAt : Option Nat
  heldNoted : Option Nat
  /-- operator key slots 0 to 3 (R546) -/
  keys : List KeySlot
  /-- configuration slots A and B, slot in use (R551) -/
  slotA : Option Image
  slotB : Option Image
  slotUse : Nat
  /-- pair ID and sequence high-water mark in the Firn reserve region (R549, R550) -/
  pairHeld : Option Nat
  highWater : Nat
  /-- layout version of the persistent tunables (R572) -/
  tunables : Nat
  /-- the 17 unit MAC addresses, fused at manufacture: of M0 to M15 and of MM (R367) -/
  unitMacs : List Nat := List.replicate 17 0
  /-- the two copies of the boot pointer record in the NOR (R613) -/
  bpCopies : List (List Byte) := [[], []]
  deriving DecidableEq, Repr

/-- A unit as it leaves provisioning of nothing: NOR blank, no operator key, no fuse programmed. -/
def Boot.reset : Boot :=
  { bank := 0, trial := false, runs := none, fwVer := 0, library := [], seq := 0, bankA := Bank.empty, bankB := Bank.empty,
    active := 0, last := 0, failed := 0, incoming := none, staged := none, erase := none, restart := none, copying := none,
    copyEnd := 0, confirmed := false, confirmedAt := 0, spoiled := false, cleanSince := 0, fuseF := 0, fwRevoked := [],
    reverted := none, tftp := none, forwarder := none, spread := none, gate := none, turnAt := none, heldNoted := none,
    keys := List.replicate 4 ⟨0, false, false⟩, slotA := none, slotB := none, slotUse := 0, pairHeld := none, highWater := 0,
    tunables := 0 }

/-! ### Coherence (R43 to R51) and memory integrity (chapter 13) -/

/-- A request at a directory: 0 GetS, 1 GetM, 2 Upgrade, 3 the directory's own recall, 4 a read and 5 a write whose requester keeps no
copy (R45), 6 PutM, 7 PutE or PutS; its cluster, the core that asked, and the words of a write from word `first` on. -/
structure CReq where
  kind : Nat
  cluster : Nat
  core : Nat
  first : Nat
  ws : List (Word × Bool)
  deriving DecidableEq, Repr

/-- A line in a transient directory state (R47): the request it serves, the clusters whose answer to a snoop is due,
those of them that answered CrossedEvict, a crossing Put that came first (R49: with data for PutM), and whether the
requester's data is on its way. -/
structure CTxn where
  req : CReq
  waits : List Nat
  crossed : List Nat
  put : List (Nat × Option (List (Word × Bool)))
  dataDue : Bool
  deriving DecidableEq, Repr

/-- A directory entry: the region whose directory holds it, the owner of the line in M or E, its sharers, the transaction in progress. -/
structure DirLine where
  region : Nat
  line : Nat
  owner : Option Nat
  sharers : List Nat
  txn : Option CTxn
  deriving DecidableEq, Repr

/-- A line at a cluster's L2; `evicting` while it is in the eviction buffer and awaits PutAck (R48). Its words with their poison marks as
they came or were last seen, and the cores whose L1 caches have it, which the L2 includes (R43). -/
structure CLine where
  cluster : Nat
  line : Nat
  state : Mesi
  evicting : Bool
  ws : List (Word × Bool)
  l1 : List Nat
  deriving DecidableEq, Repr

/-- Coherence state: directory entries, lines at the clusters, memory by line, the directory's room and the cluster ports, the memory
types. -/
structure Coherence where
  /-- directory entries (R43, R47) -/
  dir : List DirLine
  /-- lines at the clusters (R43, R48) -/
  lines : List CLine
  /-- memory by line; unlisted lines read as zero (R519) -/
  mem : List (Nat × List (Word × Bool))
  /-- requests that wait on a transient line, in arrival order: region, line, request (256 for each region, R47) -/
  room : List (Nat × Nat × CReq)
  /-- requests held at the cluster ports by back-pressure, in arrival order: line, request (R46, R47) -/
  ports : List (Nat × CReq)
  /-- memory types by granule of 2 MiB; one not listed is coherent (R44) -/
  map : List (Nat × MemType)
  deriving DecidableEq, Repr

def Coherence.reset : Coherence := { dir := [], lines := [], mem := [], room := [], ports := [], map := [] }

/-- An entry of the retirement list (Table 13.5); times in s. `transients` are the transient times, oldest first; state
1 transient, 2 lasting, 3 test in progress. -/
structure REntry where
  site : Site
  state : Nat
  transients : List Nat
  cause : Nat
  lastingAt : Nat
  replacement : Option Nat
  deriving DecidableEq, Repr

/-- A targeted self-test that runs (R531): its site, its begin, the cause of Table 13.5. -/
structure SiteTest where
  site : Site
  at_ : Nat
  cause : Nat
  deriving DecidableEq, Repr

/-- Memory integrity. `retire` is in Firn (R535), oldest entry first; spares in use follow from it. -/
structure MemState where
  /-- leaky buckets by bank path, only levels above 0: path, level, since when the level last changed by a leak (R529) -/
  buckets : List (Nat × Nat × Nat)
  /-- retirement list, oldest entry first (R535, Table 13.5) -/
  retire : List REntry
  /-- targeted self-tests that run (R531) -/
  tests : List SiteTest
  /-- when the last test of a site ended (R531) -/
  ended : List (Site × Nat)
  /-- quarantined cores, clusters, regions, and pool units, channel sequencers and banks by path (R25) -/
  qCores : List Nat
  qClusters : List Nat
  qRegions : List Nat
  qUnits : List Nat
  /-- words stored poisoned: memory and address (R517) -/
  poisoned : List (Nat × Nat)
  /-- Cornice grains found uncorrectable, which a flush spills poisoned (R526) -/
  badGrains : List Nat := []
  /-- DMA channels halted, and halt counters since start (R528) -/
  halted : List Nat
  halts : List (Nat × Nat)
  /-- commands of a quarantined element being restarted: element path, since (R27) -/
  restarts : List (Nat × Nat)
  /-- lasting pages taken from payload memory: 2 MiB of admission each (R537) -/
  pagesTaken : Nat
  /-- service stopped by three quarantined regions (R28) -/
  stopped : Bool
  /-- the retirement list was full of lasting entries: 0x1070 recorded (R535) -/
  fullNoted : Bool
  deriving DecidableEq, Repr

def MemState.reset : MemState :=
  { buckets := [], retire := [], tests := [], ended := [], qCores := [], qClusters := [], qRegions := [], qUnits := [],
    poisoned := [], halted := [], halts := [], restarts := [], pagesTaken := 0, stopped := false,
    fullNoted := false }

/-! ### Ward table and Rime engines (chapter 5) -/

/-- The Ward table (R196 to R215): its rows, their shadow, and what scrub, faults and relocation add; the verified record in DRAM is
that of the configuration in force (R208). An entry is named by its global number; one not listed is empty (R202). -/
structure WardSt where
  /-- the table is loaded (R204) -/
  loaded : Bool
  /-- next entry the scrubber reads in every bank, begin of its pass, last tick (R209, R213) -/
  pos : Nat
  passAt : Nat
  tickAt : Nat
  /-- last clean comparison of an entry number, and of single entries that mismatched since (R209) -/
  cleanAt : List (Nat × Nat)
  dirtyAt : List (Nat × Nat)
  /-- searches since the load by head bank: head, time (R211) -/
  searches : List (Nat × Nat)
  /-- mismatches of the last 24 h: global entry, time (R214) -/
  mismatches : List (Nat × Nat)
  /-- shadow entries being rebuilt: global entry, since (R212) -/
  rebuilding : List (Nat × Nat)
  /-- banks whose fault is lasting and whose group has not been moved yet; moved groups (old head, new head); heads
  classified in firmware (R214, R215) -/
  lasting : List Nat
  moved : List (Nat × Nat)
  firmware : List Nat
  /-- entries of the table as they stand, and of the shadow (R196, R208) -/
  rows : List (Nat × WardEntry)
  shadow : List (Nat × WardEntry)
  /-- shadow words with an uncorrectable error that nothing has read yet (R212) -/
  lostWords : List Nat
  /-- commands whose search waits for a shadow word, oldest first (R205, R212) -/
  waits : List Cap
  deriving DecidableEq, Repr

def WardSt.reset : WardSt :=
  { loaded := false, pos := 0, passAt := 0, tickAt := 0, cleanAt := [], dirtyAt := [], searches := [], mismatches := [],
    rebuilding := [], lasting := [], moved := [], firmware := [], rows := [], shadow := [], lostWords := [], waits := [] }

/-- What a string on an engine belongs to: a Filtered Retrieve, or a key of a listing that this pair serves (R218). -/
inductive RimeFor where
  | read (id : Nat)
  | key (scan idx : Nat)
  deriving DecidableEq, Repr

/-- A string on a Rime engine or waiting for one (R228): what it belongs to, the image of its automaton, the bytes, the value offset of
the first, and when it was given to the engine. -/
structure RString where
  owner : RimeFor
  image : List Byte
  input : List Byte
  off : Nat
  at_ : Nat
  deriving DecidableEq, Repr

/-- A listing request whose keys pass the engines (R193): its number, the pair that asked, the request, the keys in listing order, those
still on or before an engine, and those that matched. -/
structure RScan where
  id : Nat
  asker : Nat
  ask : GatherB
  cands : List GEntry
  left : List Nat
  hits : List Nat
  deriving DecidableEq, Repr

/-- The Rime engines: strings by engine, strings waiting, automaton held by engine, engines held out (R227 to R229). -/
structure RimeSt where
  /-- strings by engine (R228) -/
  busy : List (Nat × RString)
  /-- strings waiting for an engine (R228) -/
  waiting : List RString
  /-- automaton held by engine (R227) -/
  holds : List (Nat × List Byte)
  /-- engines held out (R229) -/
  out : List Nat
  /-- listing requests whose keys pass the engines (R193) -/
  scans : List RScan
  /-- automata compiled for other pairs' listings, by source digest (R226) -/
  compiled : List (List Byte × List Byte)
  deriving DecidableEq, Repr

def RimeSt.reset : RimeSt := { busy := [], waiting := [], holds := [], out := [], scans := [], compiled := [] }

/-! ### Cipher and keys (chapter 12) -/

/-- Keys by their check values and the settings that change with them. Root keys, salts and purge pending are in Firn.
Key bits themselves are never readable (R485). -/
structure Sec where
  /-- check value of the pair root key held (R486) -/
  root : Option Nat
  /-- the pair root key in the key registers, and the field root key of each generation held, as two shares each (R486, R497, R501) -/
  rootKey : Masked
  genKeys : List (Nat × Masked)
  /-- the Keyway secret, derived once at the import of the pair root key (R156, R492) -/
  kwSecret : Word × Word
  /-- field generations: number, activation epoch, check value; at most two (R497) -/
  gens : List (Nat × Nat × Nat)
  /-- generation in use (R497) -/
  inUse : Option Nat
  /-- salt generation of each namespace that has drawn one: namespace, how many salts it has drawn (R484, R509) -/
  salts : List (Nat × Nat)
  /-- engines held out by a failed known-answer test, by path; last test (R500) -/
  heldOut : List Nat
  katAt : Nat
  /-- central DRBG: reseeds, last reseed, requests since, stopped; mask generators' last reseed (R502, R503) -/
  reseeds : Nat
  reseedAt : Nat
  requests : Nat
  stopped : Bool
  maskAt : Nat
  /-- entropy sources excluded until the next start (R503) -/
  excluded : List Nat
  /-- crypto-erase windows: namespace, end of step 5; refusals of repair noted: namespace, time, count (R511) -/
  windows : List (Nat × Nat)
  refused : List (Nat × Nat × Nat)
  /-- program units being sealed on their way to a die: die, block, wordline, the cipher engine by its unit number (R491, R495, R499) -/
  sealing : List (Nat × Nat × Nat × Nat)
  deriving DecidableEq, Repr

def Sec.reset : Sec :=
  { root := none, rootKey := ⟨[], []⟩, genKeys := [], kwSecret := (0, 0), gens := [], inUse := none, salts := [], heldOut := [], katAt := 0, reseeds := 0, reseedAt := 0,
    requests := 0, stopped := false, maskAt := 0, excluded := [], windows := [], refused := [], sealing := [] }


/-- A derived key held in the key cache (R491): the field generation of its root, none for the pair root; purpose of Table 12.3;
namespace and epoch, 0 where the purpose has none. -/
structure KeyUse where
  gen : Option Nat
  purpose : Nat
  ns : Nat
  epoch : Nat
  deriving DecidableEq, Repr

/-- A key cache entry: what the key is for, and the key as two shares (R491, R501). -/
structure CacheKey where
  use : KeyUse
  key : Masked
  deriving DecidableEq, Repr

/-- The key cache, last used first, and how many times the device's mask generators have given 128 bits: the MODEL's own count, which
numbers the draws of `Config.maskBits` (R501, R502). -/
structure KeyCache where
  entries : List CacheKey
  draws : Nat
  deriving DecidableEq, Repr

def KeyCache.reset : KeyCache := { entries := [], draws := 0 }

/-! ### The device -/

/-- The whole state of one VK8. -/
structure State where
  /-- device time in ns (R640); an empty queue lets it advance by one timer resolution (R41, log 1) -/
  now : Nat
  /-- commands waiting, first in first out -/
  pending : List Instr
  /-- everything the device has sent or driven, oldest first -/
  out : List Out
  /-- outputs held back until the Mirror Ack of a frame (R417), oldest first -/
  held : List (Nat × Out)
  /-- the MODEL's own counter: how many free values (Config.freeValue) have been drawn (log 6) -/
  free : Nat
  /-- unit serial number (R7) -/
  serial : Nat
  /-- configuration in force, none while unconfigured (R551, R552) -/
  cfg : Option Cfg
  mor : Moraine
  keeper : Keeper
  start : Startup
  twin : Twin
  gauge : Gauge
  power : Power
  pace : Pace
  kw : Keyway
  media : Media
  ice : Ice
  host : HostSt
  ptp : Ptp
  net : Net
  boot : Boot
  coh : Coherence
  mem : MemState
  ward : WardSt
  rime : RimeSt
  sec : Sec
  /-- key cache of 256 entries, last used first (R491) -/
  keys : KeyCache
  deriving DecidableEq, Repr

/-- The device right after reset: VDD_KEEP absent, nothing ever recorded, nothing stored (R579). -/
def State.reset : State :=
  { now := 0, pending := [], out := [], held := [], free := 0, serial := 0, cfg := none, mor := Moraine.reset,
    keeper := Keeper.reset, start := Startup.reset, twin := Twin.reset, gauge := Gauge.reset, power := Power.reset,
    pace := Pace.reset, kw := Keyway.reset, media := Media.reset, ice := Ice.reset
    , host := HostSt.reset, ptp := Ptp.reset
    , net := Net.reset, boot := Boot.reset
    , coh := Coherence.reset, mem := MemState.reset
    , ward := WardSt.reset, rime := RimeSt.reset, sec := Sec.reset, keys := KeyCache.reset
  }

end Sys2Proof.Machine
end

