-- ==== Sys2Proof/Machine/Geometry.lean ====
section
/-! DEFINITION. Flash topology (R231 to R240): geometry, channels and their rates, dies and parity groups, grain addresses, the gate on
the flash pins. -/

namespace Sys2Proof.Machine

/-! ### Geometry (R231, R238, R240, R289) -/

/-- The reference geometry (Table 6.2). -/
def geoDefault : GeoRec :=
  { soloBus := false, jedec := false, rate := 2400, bits := 3, planes := 4, page := 16384, spare := 2208, pages := 2304,
    blocks := 1860, gbit := 2048, absentDies := [] }

/-- The Flash geometry record in force. -/
def geoOf (s : State) : GeoRec := match s.cfg with | some c => c.geo | none => geoDefault

/-- Die of member position `p` of parity group `g` (R231, R238). -/
def dieOf (g p : Nat) : Nat := 64 * (32 * (g / 64) + p) + 16 * (g / 16 % 4) + g % 16

/-- Parity group and member position of a die. -/
def groupOf (d : Nat) : Nat := 64 * (d / 64 / 32) + d % 64
def posOf (d : Nat) : Nat := d / 64 % 32

/-- A die that discovery accepted and that is not lost (R237, R265). -/
def usableDie (s : State) (d : Nat) : Bool :=
  ! (geoOf s).absentDies.contains d && ! s.media.excluded.contains d && ! s.media.lost.contains d

/-- Width of a group (R238). -/
def groupSize (s : State) (g : Nat) : Nat := ((List.range 32).filter (fun p => usableDie s (dieOf g p))).length

/-- Grains of a page, of a program unit; wordlines of a block (R249, R250). -/
def grainsPerPage (g : GeoRec) : Nat := g.page / 4096
def unitGrains (g : GeoRec) : Nat := g.planes * g.bits * grainsPerPage g
def wordlines (g : GeoRec) : Nat := g.pages / max g.bits 1

/-- Die, block and wordline of a grain address (Table 6.3). -/
def addrDie (a : Nat) : Nat := 64 * (a / 2 ^ 41) + 16 * (a / 2 ^ 39 % 4) + a / 2 ^ 35 % 16
def addrBlock (a : Nat) : Nat := a / 2 ^ 16 % 2 ^ 16
def addrWl (g : GeoRec) (a : Nat) : Nat := a / 16 % 4096 / max g.bits 1

/-- Block group of a grain address: 64 runs of block numbers in plane order (R262). -/
def blockGroup (g : GeoRec) (a : Nat) : Nat :=
  (a / 2 ^ 32 % 8 * g.blocks + addrBlock a) / max 1 (ceilDiv (g.planes * g.blocks) 64)

/-- Grain address of its fields (Table 6.3). -/
def mkAddr (channel target lun plane block page grain : Nat) : Nat :=
  grain + page * 2 ^ 4 + block * 2 ^ 16 + plane * 2 ^ 32 + lun * 2 ^ 35 + target * 2 ^ 39 + channel * 2 ^ 41

/-- Bytes of an encoded page: data area and spare area (R241). -/
def encodedPage (g : GeoRec) : Nat := g.page + g.spare

/-- A grain address lies within the discovered geometry: its die accepted and not lost, plane, block, page and grain within their ranges
(R240). -/
def addrValid (s : State) (a : Nat) : Bool :=
  let g := geoOf s
  usableDie s (addrDie a) && decide (a < 2 ^ 48) && decide (a / 2 ^ 32 % 8 < g.planes) && decide (addrBlock a < g.blocks) &&
    decide (a / 16 % 4096 < g.pages) && decide (a % 16 < grainsPerPage g)

/-! ### Rates (R234, R236, Table 6.1) -/

/-- Parameters of a die that its geometry record describes and that no parameter page contradicts. -/
def paramOf (g : GeoRec) : DieParam :=
  { jedec := g.jedec, bits := g.bits, slc := true, gbit := g.gbit, planes := g.planes, blocks := g.blocks, pages := g.pages
    page := g.page, spare := g.spare, rate := 3600, suspend := true }

/-- Highest rate of a bus mode in MT/s. -/
def modeRate (g : GeoRec) : Nat := if g.soloBus then 3600 else 2400

/-- Highest rates that the dies discovered on a channel report. -/
def dieRates (s : State) (channel : Nat) : List Nat :=
  (s.start.disc.params.filter (fun p => decide (p.1 / 64 = channel) && usableDie s p.1)).map (·.2.rate)

/-- Rate of a channel: the least of the configured one, the highest of the mode and the highest of every die found on it (R234). -/
def channelRate (s : State) (channel : Nat) : Nat := (dieRates s channel).foldl min (min (geoOf s).rate (modeRate (geoOf s)))

/-- Rate of data-in transfers: 1 600 MT/s until the channel's write timing is trained (R236). -/
def dataInRate (s : State) (channel : Nat) : Nat :=
  if s.twin.writeTrained.contains channel then channelRate s channel else min 1600 (channelRate s channel)

/-! ### Parameters at discovery (R237, Table 6.2) -/

/-- Parameters that Table 6.2 supports. -/
def supportedDie (p : DieParam) : Bool :=
  (p.bits == 3 || p.bits == 4) && p.slc && decide (512 ≤ p.gbit ∧ p.gbit ≤ 4096) && decide (1 ≤ p.planes ∧ p.planes ≤ 8) &&
    decide (16 ≤ p.blocks ∧ p.blocks ≤ 65536) && decide (p.pages ≤ 4096) && decide (p.pages % p.bits = 0) &&
    ((p.page == 16384 && decide (1720 ≤ p.spare)) || (p.page == 32768 && decide (3440 ≤ p.spare))) && decide (1600 ≤ p.rate) && p.suspend

/-- A die's parameters are supported and those of the Flash geometry record. -/
def dieMatches (g : GeoRec) (p : DieParam) : Bool :=
  supportedDie p && { p with rate := 3600, suspend := true, slc := true } == paramOf g

/-! ### The flash pins (R235, R401, R674) -/

/-- The device drives its flash pins: only through the gate of R401, and not while EXTEST drives them. -/
def flashDriven (s : State) : Bool := s.keeper.drivers && ! s.keeper.extest

/-- EXTEST drives flash balls: the boundary-scan cells of the flash port are gated by the same interlock (R674). -/
def extestDrives (s : State) : Bool := s.keeper.testLogic && s.keeper.extest && s.keeper.drivers

/-- An output goes out on the flash pins. -/
def onFlashPins : Out → Bool
  | .flashOp _ _ _ _ => true
  | .flashRead _ _ _ => true
  | .readStatus _ => true
  | .ceHigh _ => true
  | .trainChannel _ => true
  | .dataIn _ _ _ _ _ => true
  | _ => false

/-- Outputs on the flash pins go out while the device drives them (R235). -/
def flashOuts (os : List Out) (s : State) : State := { s with out := if flashDriven s then s.out ++ os else s.out }

end Sys2Proof.Machine
end

