-- ==== Sys2Proof/Machine/Flags.lean ====
section
/-! DEFINITION. Status codes of completions (Tables 3.19 to 3.21) and the warning and role bits other parts report. -/

namespace Sys2Proof.Machine

/-! ### Completion statuses -/

/-- Generic statuses (Table 3.19). -/
def stOk : Status := ⟨0, 0x00, false⟩
def stInvalidOpcode : Status := ⟨0, 0x01, true⟩
def stInvalidField : Status := ⟨0, 0x02, true⟩
def stTransferError : Status := ⟨0, 0x04, false⟩
def stInternal : Status := ⟨0, 0x06, false⟩
def stAborted : Status := ⟨0, 0x07, true⟩
def stSqDeleted : Status := ⟨0, 0x08, true⟩
def stFailedFused : Status := ⟨0, 0x09, true⟩
def stMissingFused : Status := ⟨0, 0x0A, true⟩
def stInvalidNs : Status := ⟨0, 0x0B, true⟩
def stSglLength : Status := ⟨0, 0x0F, true⟩
def stNotReady : Status := ⟨0, 0x82, false⟩

/-- Command specific statuses (Table 3.20). -/
def stNotSaveable : Status := ⟨1, 0x0D, true⟩
def stConnectParam : Status := ⟨1, 0x82, true⟩
def stConnectHost : Status := ⟨1, 0x84, true⟩
def stValueSize : Status := ⟨1, 0x85, true⟩
def stKeySize : Status := ⟨1, 0x86, true⟩
def stNoKey : Status := ⟨1, 0x87, true⟩
def stUnrecovered : Status := ⟨1, 0x88, false⟩
def stKeyExists : Status := ⟨1, 0x89, true⟩

/-- Vendor statuses (Table 3.21). -/
def stRedirect : Status := ⟨7, 0xC0, true⟩
def stStoreAborted : Status := ⟨7, 0xC1, false⟩
def stVersionMismatch : Status := ⟨7, 0xC2, true⟩
def stPlacement : Status := ⟨7, 0xC3, false⟩
def stReadOnly : Status := ⟨7, 0xC4, false⟩
def stAdmissionTimeout : Status := ⟨7, 0xC5, false⟩
def stBadHandle : Status := ⟨7, 0xC6, true⟩
def stPatternRejected : Status := ⟨7, 0xC7, true⟩
def stRange : Status := ⟨7, 0xC8, true⟩
def stShedLimit : Status := ⟨7, 0xC9, true⟩

/-- Whether a status is success. -/
def isOk (s : Status) : Bool := s.sct == 0 && s.sc == 0

/-! ### Roles and levels -/

/-- Role state codes of Table 3.24 offset 5 and Table 10.16. -/
def roleCode : RoleState → Nat
  | .solo => 0 | .active => 1 | .standby => 2 | .yielded => 3 | .recovery => 4 | .dormant => 5 | .unassigned => 6

/-- Slot state codes of Table 8.1. -/
def slotCode : SlotState → Nat
  | .absent => 0 | .joining => 1 | .placing => 2 | .closed => 3 | .retiring => 4 | .lost => 5

/-- Failure-domain level codes of Table 8.8. -/
def domCode : DomLevel → Nat
  | .zone => 0 | .rack => 1 | .feed => 2

/-- Whether the device serves the pair's address: ACTIVE or SOLO. -/
def holdsPair (s : State) : Bool := s.twin.roleState == .active || s.twin.roleState == .solo

/-- An ACTIVE with a healthy STANDBY (R423). -/
def hasStandby (s : State) : Bool := s.twin.roleState == .active && s.twin.healthy

/-- Whether the device is configured with a twin (Hinge record). -/
def twinConfigured (s : State) : Bool := match s.cfg with | some c => c.hinge.twin | none => false

/-- A shutdown of the device has begun; a notification that came before it serves is only held (R593). -/
def inShutdown (s : State) : Bool := match s.start.shutdown with | some x => decide (1 ≤ x.step) | none => false

/-- The cores are released, so firmware runs (R582). -/
def running (s : State) : Bool := s.keeper.phase == .released

/-- The cores run and take frames on the MACs: from the start of a flush on they take none (R467 step 1). -/
def takesFrames (s : State) : Bool := running s && s.power.flush.isNone

/-- A device that starts as first of its pair and has not taken the service address yet (R585): it reports UNASSIGNED until
step 8, yet asks for a view over Milmo from step 2 on. -/
def firstStarting (s : State) : Bool :=
  running s && s.twin.roleState == .unassigned && decide (1 ≤ s.start.step) && decide (s.start.step ≤ 8)

/-! ### Elements in service (R25, R532) -/

/-- An element of a kind of Table 13.5 is under a targeted self-test, which takes it out of its pool meanwhile (R532). -/
def underTest (s : State) (kind idx : Nat) : Bool := s.mem.tests.any (fun x => x.site.kind == kind && x.site.idx == idx)

/-- A region is quarantined or under test. -/
def regionOut (s : State) (r : Nat) : Bool := s.mem.qRegions.contains r || underTest s 8 r

/-- A cluster, or the region it belongs to, is quarantined or under test (R21). -/
def clusterOut (s : State) (c : Nat) : Bool := s.mem.qClusters.contains c || underTest s 7 c || regionOut s (c / 8)

end Sys2Proof.Machine
end

