-- ==== Sys2Proof/Machine/Hash.lean ====
section
/-! DEFINITION. The arithmetic the manual fixes bit by bit: SipHash-2-4 (R155, R188, R310, R311), CRC-32C (R174, R411,
R413), and the Reed–Solomon code over GF(2^8) with polynomial 0x11D (R317). -/

namespace Sys2Proof.Machine

/-! ### SipHash-2-4 -/

/-- The four lanes of SipHash. -/
structure Sip where
  v0 : Word
  v1 : Word
  v2 : Word
  v3 : Word
  deriving DecidableEq, Repr

/-- One SipRound. -/
def sipRound (s : Sip) : Sip :=
  let a := s.v0 + s.v1
  let b := s.v1.rotateLeft 13 ^^^ a
  let a' := a.rotateLeft 32
  let c := s.v2 + s.v3
  let d := s.v3.rotateLeft 16 ^^^ c
  let a2 := a' + d
  let d2 := d.rotateLeft 21 ^^^ a2
  let c2 := c + b
  let b2 := b.rotateLeft 17 ^^^ c2
  { v0 := a2, v1 := b2, v2 := c2.rotateLeft 32, v3 := d2 }

/-- Two compression rounds around one message word. -/
def sipAbsorb (s : Sip) (m : Word) : Sip :=
  let t := sipRound (sipRound { s with v3 := s.v3 ^^^ m })
  { t with v0 := t.v0 ^^^ m }

/-- The message words: eight bytes each, the last one padded and carrying the length in its top byte. `fuel` bounds
the number of whole words. -/
def sipWords (len : Nat) : Nat → List Byte → List Word
  | 0, bs => [BitVec.ofNat 64 (ofLe (bs.take 7) + (len % 256) * 2 ^ 56)]
  | f + 1, bs =>
    if bs.length < 8 then [BitVec.ofNat 64 (ofLe bs + (len % 256) * 2 ^ 56)]
    else BitVec.ofNat 64 (ofLe (bs.take 8)) :: sipWords len f (bs.drop 8)

/-- SipHash-2-4 of `msg` under the key (k0, k1) of R155. -/
def sipHash (k0 k1 : Word) (msg : List Byte) : Word :=
  let s0 : Sip :=
    { v0 := k0 ^^^ 0x736f6d6570736575#64, v1 := k1 ^^^ 0x646f72616e646f6d#64,
      v2 := k0 ^^^ 0x6c7967656e657261#64, v3 := k1 ^^^ 0x7465646279746573#64 }
  let s1 := (sipWords msg.length (msg.length / 8 + 1) msg).foldl sipAbsorb s0
  let s2 := { s1 with v2 := s1.v2 ^^^ 0xff#64 }
  let s3 := sipRound (sipRound (sipRound (sipRound s2)))
  s3.v0 ^^^ s3.v1 ^^^ s3.v2 ^^^ s3.v3

/-! ### CRC-32C -/

/-- One bit of CRC-32C, reflected, polynomial 0x82F63B78. -/
def crcBit (c : BitVec 32) : BitVec 32 :=
  if c.getLsbD 0 then (c >>> 1) ^^^ 0x82F63B78#32 else c >>> 1

/-- One byte of CRC-32C. -/
def crcByte (c : BitVec 32) (b : Byte) : BitVec 32 :=
  let c0 := c ^^^ b.setWidth 32
  crcBit (crcBit (crcBit (crcBit (crcBit (crcBit (crcBit (crcBit c0)))))))

/-- CRC-32C of a byte string. -/
def crc32c (bs : List Byte) : BitVec 32 := ~~~ (bs.foldl crcByte 0xFFFFFFFF#32)

/-! ### GF(2^8) and the code of R317 -/

/-- Multiply by x modulo x^8 + x^4 + x^3 + x^2 + 1. -/
def gfX (a : Byte) : Byte := if a.getLsbD 7 then (a <<< 1) ^^^ 0x1D#8 else a <<< 1

/-- Product in the field: `n` bits of `b` remain. -/
def gfMulN : Nat → Byte → Byte → Byte
  | 0, _, _ => 0
  | n + 1, a, b => (if b.getLsbD 0 then a else 0) ^^^ gfMulN n (gfX a) (b >>> 1)

/-- Product in the field. -/
def gfMul (a b : Byte) : Byte := gfMulN 8 a b

/-- a^254, the inverse of every nonzero element. -/
def gfInv (a : Byte) : Byte :=
  let a2 := gfMul a a
  let a4 := gfMul a2 a2
  let a8 := gfMul a4 a4
  let a16 := gfMul a8 a8
  let a32 := gfMul a16 a16
  let a64 := gfMul a32 a32
  let a128 := gfMul a64 a64
  gfMul a128 (gfMul a64 (gfMul a32 (gfMul a16 (gfMul a8 (gfMul a4 a2)))))

/-- Coefficient c(q, j) = (q xor (m + j))^-1 of parity fragment q (R317). -/
def rsCoef (m q j : Nat) : Byte := gfInv (BitVec.ofNat 8 q ^^^ BitVec.ofNat 8 (m + j))

/-- `a` times `x` added to `y`, byte by byte. -/
def gfAxpy (a : Byte) (x y : List Byte) : List Byte := List.zipWith (fun u v => gfMul a u ^^^ v) x y

/-- Parity fragment q of the data fragments, all of length F (R317). -/
def rsParity (m q f : Nat) (frags : List (List Byte)) : List Byte :=
  (frags.zipIdx).foldl (fun acc p => gfAxpy (rsCoef m q p.2) p.1 acc) (List.replicate f 0#8)

/-- Row of the generator at a position: unit row for a data position, coefficients for a parity position (R317). -/
def rsRow (k m pos : Nat) : List Byte :=
  (List.range k).map (fun j => if pos < k then (if j = pos then 1#8 else 0#8) else rsCoef m (pos - k) j)

/-- Scale a row of coefficients with its fragment. -/
def rowScale (a : Byte) (r : List Byte × List Byte) : List Byte × List Byte :=
  (r.1.map (gfMul a), r.2.map (gfMul a))

/-- Subtract `a` times row `p` from row `r`. -/
def rowSub (a : Byte) (p r : List Byte × List Byte) : List Byte × List Byte :=
  (gfAxpy a p.1 r.1, gfAxpy a p.2 r.2)

/-- Gauss–Jordan elimination over the field on k rows (coefficients, fragment bytes); column by column. -/
def rsSolve : Nat → Nat → List (List Byte × List Byte) → List (List Byte × List Byte)
  | 0, _, rows => rows
  | n + 1, c, rows =>
    match rows.zipIdx.find? (fun r => decide (c ≤ r.2) && r.1.1.getD c 0 != 0) with
    | none => rows
    | some (pr, i) =>
      let p := rowScale (gfInv (pr.1.getD c 0)) pr
      let others := (rows.zipIdx.filter (fun r => r.2 != i)).map (fun r => rowSub (r.1.1.getD c 0) p r.1)
      rsSolve n (c + 1) (others.take c ++ [p] ++ others.drop c)

/-- The k data fragments from any k fragments of a stripe, given as (position, bytes); none when there are fewer
(R317, R330). -/
def rsDecode (k m : Nat) (have_ : List (Nat × List Byte)) : Option (List (List Byte)) :=
  if have_.length < k then none
  else some ((rsSolve k 0 ((have_.take k).map (fun p => (rsRow k m p.1, p.2)))).map (·.2))

end Sys2Proof.Machine
end

