-- ==== Sys2Proof/Machine/Wire.lean ====
section
/-! DEFINITION. Bytes in the order their structure map gives (R15): the headers of configuration images and firmware packages
(little-endian), Milmo datagrams with their tag (Tables 8.4 to 8.13, 8.16, 3.14, 16.9; R356, R358, R496), hinge frames
and flits (Tables 10.2 to 10.8, 10.16 to 10.20), both in network byte order (R15), and the Ethernet frames that carry what the device
sends (R367 to R372). What a command brings in is the fields of the same layouts. -/

namespace Sys2Proof

/-! ### A received common header (Table 8.4) -/

/-- The number in `n` bytes from offset `o` on, in network byte order. -/
def Hdr.field (h : Hdr) (o n : Nat) : Nat := Machine.ofBe ((h.bytes.drop o).take n)

def Hdr.magic (h : Hdr) : Nat := h.field 0 2
def Hdr.version (h : Hdr) : Nat := h.field 2 1
def Hdr.type (h : Hdr) : Nat := h.field 3 1
def Hdr.bodyLength (h : Hdr) : Nat := h.field 4 2
def Hdr.slot (h : Hdr) : Nat := h.field 6 2
def Hdr.role (h : Hdr) : Nat := h.field 8 1
def Hdr.mcast (h : Hdr) : Bool := (h.field 9 1).testBit 0
def Hdr.resend (h : Hdr) : Bool := (h.field 9 1).testBit 1
def Hdr.ptpLocked (h : Hdr) : Bool := (h.field 9 1).testBit 2
def Hdr.epoch (h : Hdr) : Nat := h.field 12 4
def Hdr.seq (h : Hdr) : Nat := h.field 16 8
def Hdr.inc (h : Hdr) : Nat := h.field 24 4
def Hdr.rosterSeq (h : Hdr) : Nat := h.field 28 4

/-! ### Numbers in a structure -/

/-- The number in `n` bytes from offset `o` on, little-endian, and in network byte order. -/
def Machine.leAt (bs : List Byte) (o n : Nat) : Nat := Machine.ofLe ((bs.drop o).take n)
def Machine.beAt (bs : List Byte) (o n : Nat) : Nat := Machine.ofBe ((bs.drop o).take n)

/-! ### Signature blocks (Table 14.3) -/

/-- The signature block at an offset: its magic and algorithm, the public key, and whether the signature of every byte before its r field
verifies. -/
def Machine.sigMagicOk (bs : List Byte) (o : Nat) : Bool := (bs.drop o).take 4 == [0x56, 0x4B, 0x53, 0x47] && Machine.leAt bs (o + 4) 2 == 1
def Machine.sigKey (bs : List Byte) (o : Nat) : List Byte := (bs.drop (o + 8)).take 97
def Machine.sigVerifies (bs : List Byte) (o : Nat) : Bool :=
  Machine.ecdsaVerify (Machine.sigKey bs o) (bs.take (o + 108)) (Machine.beAt bs (o + 108) 48) (Machine.beAt bs (o + 156) 48)

/-! ### Configuration images (Tables 14.2 and 14.3, little-endian) -/

def Image.magicOk (i : Image) : Bool := i.bytes.take 4 == [0x56, 0x4B, 0x43, 0x46]
def Image.major (i : Image) : Nat := Machine.leAt i.bytes 4 2
def Image.minor (i : Image) : Nat := Machine.leAt i.bytes 6 2
def Image.length (i : Image) : Nat := Machine.leAt i.bytes 8 4
def Image.hwType (i : Image) : Nat := Machine.leAt i.bytes 12 4
def Image.pair (i : Image) : Nat := Machine.leAt i.bytes 16 8
def Image.seq (i : Image) : Nat := Machine.leAt i.bytes 24 4
def Image.count (i : Image) : Nat := Machine.leAt i.bytes 28 4
def Image.bodyLength (i : Image) : Nat := Machine.leAt i.bytes 32 4
def Image.bodyCrc (i : Image) : Nat := Machine.leAt i.bytes 36 4

/-- Header CRC-32C over bytes 0 to 251. -/
def Image.headerCrcOk (i : Image) : Bool := Machine.leAt i.bytes 252 4 == (Machine.crc32c (i.bytes.take 252)).toNat

/-- The body, between header and signature block, and its CRC-32C. -/
def Image.body (i : Image) : List Byte := (i.bytes.drop 256).take i.bodyLength
def Image.bodyCrcOk (i : Image) : Bool := i.bodyCrc == (Machine.crc32c i.body).toNat

/-- Offset of the signature block. -/
def Image.sigAt (i : Image) : Nat := i.length - 256

/-- SHA-384 of the public key, as the number its bytes spell (R546). -/
def Image.keyHash (i : Image) : Nat := Machine.ofBe (Machine.sha384 (Machine.sigKey i.bytes i.sigAt))
def Image.sigOk (i : Image) : Bool := Machine.sigVerifies i.bytes i.sigAt

/-! ### Firmware packages (Tables 16.1 to 16.3, little-endian) -/

def Package.magicOk (p : Package) : Bool := p.bytes.take 4 == [0x56, 0x4B, 0x46, 0x57]
def Package.major (p : Package) : Nat := Machine.leAt p.bytes 4 1
def Package.headerLen (p : Package) : Nat := Machine.leAt p.bytes 6 2
def Package.length (p : Package) : Nat := Machine.leAt p.bytes 8 4
def Package.hwType (p : Package) : Nat := Machine.leAt p.bytes 12 4
def Package.compat (p : Package) : Nat := Machine.leAt p.bytes 16 2
def Package.secVer (p : Package) : Nat := Machine.leAt p.bytes 18 1
def Package.hingeMajor (p : Package) : Nat := Machine.leAt p.bytes 19 1
def Package.fwVer (p : Package) : Nat := Machine.leAt p.bytes 20 4
def Package.bindingCount (p : Package) : Nat := Machine.leAt p.bytes 24 2
def Package.partCount (p : Package) : Nat := Machine.leAt p.bytes 26 1
def Package.revision (p : Package) : Nat := Machine.leAt p.bytes 36 8

/-- Header CRC-32C over bytes 0 to 123. -/
def Package.headerCrcOk (p : Package) : Bool := Machine.leAt p.bytes 124 4 == (Machine.crc32c (p.bytes.take 124)).toNat

/-- Serial numbers of the binding list. -/
def Package.binding (p : Package) : List Nat := (List.range p.bindingCount).map (fun i => Machine.leAt p.bytes (128 + 8 * i) 8)

/-- The manifest (Table 16.2). -/
def Package.parts (p : Package) : List PartEntry :=
  (List.range p.partCount).map (fun k =>
    let o := 128 + 8 * p.bindingCount + 64 * k
    { code := Machine.leAt p.bytes o 1, version := Machine.leAt p.bytes (o + 4) 4, offset := Machine.leAt p.bytes (o + 8) 4
      length := Machine.leAt p.bytes (o + 12) 4, digest := (p.bytes.drop (o + 16)).take 48 })

/-- Bytes of a part. -/
def Package.part (p : Package) (e : PartEntry) : List Byte := (p.bytes.drop e.offset).take e.length

/-- The package ID: the first 16 bytes of the SHA-384 of the header block, as the number they spell (Table 16.7). -/
def Package.id (p : Package) : Nat := Machine.ofLe ((Machine.sha384 (p.bytes.take p.headerLen)).take 16)

/-- Offset of the signature block. -/
def Package.sigAt (p : Package) : Nat := p.headerLen - 256

/-- The Esiosum firmware key, 0 or 1, that the signature block carries: its SHA-384 is one of the two in boot ROM (R604). -/
def Package.sigKey (p : Package) : Option Nat :=
  (List.range 2).find? (fun k => Machine.ofBe (Machine.sha384 (Machine.sigKey p.bytes p.sigAt)) == (Config.firmwareKey k).toNat)
def Package.sigOk (p : Package) : Bool := Machine.sigMagicOk p.bytes p.sigAt && Machine.sigVerifies p.bytes p.sigAt

namespace Machine

/-! ### Milmo bodies (network byte order) -/

/-- A key in a field of 256 bytes (Table 8.8). -/
def keyField256 (k : Key) : List Byte := padTo 256 k

/-- Slots of positions 0 to 31, 0xFFFF where unused (Table 8.8). -/
def holderField (hs : List Nat) : List Byte := (List.range 32).flatMap (fun p => be 2 (hs[p]?.getD 0xFFFF))

/-- Table 8.7. -/
def updateBytes (u : MUpdate) : List Byte :=
  be 2 u.slot ++ be 1 (slotCode u.state) ++ be 1 (bit u.suspected 0) ++ be 4 u.inc ++ be 8 u.time

/-- Table 8.6. -/
def probeBytes (b : ProbeB) : List Byte :=
  be 2 b.target ++ be 2 b.requester ++ be 4 b.pid ++ be 1 (slotCode b.senderState) ++ be 1 b.updates.length ++ be 6 0 ++
    b.updates.flatMap updateBytes

/-- Largest segment of a fragment (Table 8.8). -/
def segBytes : Nat := 8192

/-- One segment of a fragment, a replica or Read Data: offset, bytes, last (Table 8.8). Flag bit 5 marks a tombstone (DESIGN CHOICE, log
8: the table has no field for it). -/
def fragSegment (b : FragB) (off : Nat) (data : List Byte) (last : Bool) : List Byte :=
  be 2 b.ns ++ be 2 b.chunk ++ be 1 b.key.length ++ be 1 b.pos ++ be 1 b.k ++ be 1 b.m ++ be 8 b.storeId ++ be 8 b.version ++
  be 4 b.len ++ be 4 b.valueLen ++ be 4 off ++ be 2 data.length ++
  be 1 (bit b.verReq 0 + bit b.replica 1 + bit last 2 + bit b.repair 3 + bit b.domShort 4 + bit b.tomb 5) ++ be 1 (domCode b.dom) ++
  be 1 b.ack ++ be 1 b.thr ++ be 1 (bit b.opts.ifExists 0 + bit b.opts.ifAbsent 1 + bit b.opts.ifVersion 2) ++ be 1 b.result ++ be 4 0 ++
  be 8 (if b.opts.ifVersion then b.opts.expected else 0) ++ holderField b.holders ++ keyField256 b.key ++ data

/-- The segments of a fragment, in order; one without data too. -/
def fragSegments (b : FragB) : List (List Byte) :=
  let n := max 1 (ceilDiv b.data.length segBytes)
  (List.range n).map (fun i => fragSegment b (b.segOff + segBytes * i) ((b.data.drop (segBytes * i)).take segBytes) (decide (i + 1 = n)))

/-- Table 8.9; zero extents and level have no field in it (log 19). -/
def stripeBytes (r : StripeB) : List Byte :=
  be 2 r.ns ++ be 2 r.chunk ++ be 1 r.key.length ++ be 1 r.state ++
  be 1 (bit r.intent 0 + bit r.tomb 1 + bit r.domShort 2 + bit r.zeroExt 3 + bit r.final 7) ++ be 1 r.holders.length ++ be 8 r.version ++
  be 8 r.greatest ++ be 4 r.valueLen ++ be 1 r.k ++ be 1 r.m ++ be 1 (domCode r.dom) ++ be 1 r.thr ++ holderField r.holders ++
  be 4 (toMask r.d3) ++ be 4 0 ++ keyField256 r.key

/-- Table 8.10. -/
def ackBytes (b : AckB) : List Byte :=
  be 8 b.storeId ++ be 2 b.chunk ++ be 1 b.pos ++ be 1 b.level ++ be 1 b.result ++ be 1 b.cond ++ be 2 b.hint ++ be 8 b.version ++ be 8 b.ref

/-- Table 8.11; the key length is 0 in the types that carry no key. -/
def ctlBytes (keyed : Bool) (b : CtlB) : List Byte :=
  be 8 b.storeId ++ be 8 b.version ++ be 2 b.ns ++ be 2 b.chunks ++ be 1 b.level ++ be 1 b.result ++ be 2 b.pos ++ be 8 b.commitTime ++
  be 1 (if keyed then b.key.length else 0) ++ be 7 0 ++ keyField256 (if keyed then b.key else [])

/-- Table 8.12. -/
def locBytes (b : LocB) : List Byte :=
  be 2 b.ns ++ be 2 b.first ++ be 2 b.count ++ be 1 b.key.length ++ be 1 b.pos ++ be 8 b.version ++ be 4 b.off ++ be 4 b.len ++
    keyField256 b.key

/-- Table 8.13. -/
def leaseBytes (b : LeaseB) : List Byte :=
  be 4 b.id ++ be 1 b.queue ++ be 1 (bit b.locked 0 + bit b.calendar 1) ++ be 2 b.rate ++ be 8 b.bytes

/-- An entry of a listing gather reply (Table 8.16). -/
def gEntryBytes (e : GEntry) : List Byte :=
  be 8 e.lf ++ be 8 e.th ++ be 8 e.version ++ be 1 e.key.length ++ be 1 (bit e.tomb 0) ++ padTo (ceilDiv e.key.length 4 * 4) e.key

/-- Table 8.16. The cursor keeps the byte layout of R194. -/
def gatherBytes (reply : Bool) (b : GatherB) : List Byte :=
  be 1 (if reply then 2 else 1) ++ be 1 (if reply then bit b.more 0 else bit b.byCursor 0 + bit b.pattern 1) ++ be 2 b.ns ++ be 4 b.gid ++
  padTo 16 (if reply || b.byCursor then b.cursor else []) ++ be 1 (if reply || b.byCursor then 0 else b.startKey.length) ++ be 1 0 ++
  be 2 (if reply then 0 else b.source.length) ++ be 2 (if reply then b.entries.length else 0) ++ be 2 0 ++
  padTo 16 (if reply || b.byCursor then [] else b.startKey) ++ (if reply then b.entries.flatMap gEntryBytes else b.source)

/-- A durability record in network byte order (Tables 3.14, 8.5). -/
def durNetBytes (r : DurRec) : List Byte :=
  be 8 r.version ++ be 8 r.greatest ++ be 1 r.state ++ be 1 r.level ++ be 1 r.holders ++ be 1 r.atD1 ++ be 1 r.atD3 ++
  be 1 (bit r.tomb 0 + bit r.successor 1) ++ be 2 0 ++ be 8 r.commitTime

/-- Table 16.9. -/
def fwdBytes (op : Nat) (b : FwdB) : List Byte :=
  be 1 op ++ be 1 (bit b.chain 0 + bit b.solo 1 + bit b.confirmed 2) ++ be 1 (toMask b.mask) ++ be 1 b.reason ++ be 2 b.origin ++ be 2 0 ++
  be 16 b.pkg ++ be 4 b.length ++ be 4 b.off ++ be 4 b.ask ++ be 2 b.data.length ++ be 2 0 ++ b.data

/-- Updates of a View Sync that one datagram holds (R356). -/
def syncUpdates : Nat := 556

/-- The datagrams of a View Sync; one with no update asks for the receiver's view (Table 8.5). -/
def syncBodies (us : List MUpdate) : List (List Byte) :=
  (List.range (max 1 (ceilDiv us.length syncUpdates))).map (fun i =>
    let p := (us.drop (syncUpdates * i)).take syncUpdates
    be 2 p.length ++ be 2 0 ++ p.flatMap updateBytes)

/-- Type code of a body (Table 8.5). A SHED record and a media failure report have none there (log 147). -/
def typeOf : Body → Nat
  | .probe _ => 0x01 | .probeAck _ => 0x02 | .probeRequest _ => 0x03 | .viewDigest _ => 0x04 | .viewSync _ => 0x05
  | .fragment _ => 0x10 | .fragmentAck _ => 0x11 | .commitRequest _ => 0x12 | .commitIntent _ => 0x13 | .commitConfirm _ => 0x14
  | .commitNotice _ => 0x15 | .abortNotice _ => 0x16 | .statusQuery _ => 0x17 | .intentAck _ => 0x18
  | .locate _ => 0x20 | .locateReply _ _ _ => 0x21 | .readRequest _ => 0x22 | .readData _ => 0x23
  | .recordQuery _ => 0x24 | .recordReply _ _ => 0x25 | .floorNotice _ _ => 0x26 | .floorAck _ _ => 0x27
  | .durabilityQuery _ => 0x28 | .durabilityReply _ _ _ => 0x29
  | .orphanNotice _ => 0x30 | .handoverRecord _ _ => 0x31 | .holderReturn _ _ => 0x32 | .repairOrder _ _ => 0x33
  | .leaseRequest _ => 0x40 | .permit _ => 0x41 | .gatherRequest _ => 0x50 | .gatherReply _ => 0x50 | .updateForward _ _ => 0x60
  | .shedRecord _ _ _ _ _ => (Config.reportType 0).toNat | .mediaFailure _ _ => (Config.reportType 1).toNat

/-- The bodies of the datagrams that carry one body: a fragment goes in segments, a large view in parts (log 8). What no table lays out
follows the table's fields (log 147): whether a Holder Return asks, or is answered with keep or release, and the position of a Repair
Order. -/
def bodiesOf : Body → List (List Byte)
  | .probe b => [probeBytes b] | .probeAck b => [probeBytes b] | .probeRequest b => [probeBytes b]
  | .viewDigest d => [be 8 d] | .viewSync us => syncBodies us
  | .fragment b => fragSegments b | .fragmentAck b => [ackBytes b]
  | .commitRequest b => [ctlBytes true b] | .commitIntent b => [ctlBytes true b] | .commitConfirm b => [ctlBytes false b]
  | .commitNotice b => [ctlBytes false b] | .abortNotice b => [ctlBytes false b] | .statusQuery b => [ctlBytes true b]
  | .intentAck b => [ctlBytes false b]
  | .locate b => [locBytes b]
  | .locateReply r h rs => [be 1 r ++ be 1 0 ++ be 2 h ++ be 2 rs.length ++ be 2 0 ++ rs.flatMap stripeBytes]
  | .readRequest b => [locBytes b] | .readData b => fragSegments b
  | .recordQuery b => [locBytes b]
  | .recordReply rs f => [be 1 rs.length ++ be 7 0 ++ rs.flatMap stripeBytes ++ be 8 f]
  | .floorNotice n f => [be 4 n ++ be 4 0 ++ be 8 f] | .floorAck n f => [be 4 n ++ be 4 0 ++ be 8 f]
  | .durabilityQuery b => [locBytes b]
  | .durabilityReply r h d => [be 1 r ++ be 1 0 ++ be 2 h ++ be 4 0 ++ durNetBytes d]
  | .orphanNotice r => [stripeBytes r]
  | .handoverRecord r f => [stripeBytes r ++ (if r.final then be 8 f else [])]
  | .holderReturn r k => [stripeBytes r ++ be 1 (match k with | none => 0 | some true => 1 | some false => 2)]
  | .repairOrder r p => [stripeBytes r ++ be 1 p]
  | .leaseRequest b => [leaseBytes b] | .permit b => [leaseBytes b]
  | .gatherRequest b => [gatherBytes false b] | .gatherReply b => [gatherBytes true b]
  | .updateForward op b => [fwdBytes op b]
  | .shedRecord ns key v off len => [be 2 ns ++ be 1 key.length ++ be 1 0 ++ be 8 v ++ be 4 off ++ be 4 len ++ keyField256 key]
  | .mediaFailure r p => [stripeBytes r ++ be 1 p]

/-- Datagrams that carry a body. -/
def gramCount (b : Body) : Nat := (bodiesOf b).length

/-! ### Header and tag (R356, R358, R496) -/

/-- Salt of a namespace: the last one drawn for it, zeros for a device purpose (R484, R489). -/
def saltOf (c : Sec) (ns : Nat) : List Byte :=
  if ns = 0 then List.replicate 32 0#8 else le 32 (Config.salt (c.root.getD 0) ns ((aGet ns c.salts).getD 0)).toNat

/-- The root key under which a key is derived: a field generation's, or the pair's (Table 12.3). -/
def rootOf (c : Sec) (gen : Option Nat) : Masked :=
  match gen with
  | none => c.rootKey
  | some g => match c.genKeys.find? (fun x => x.1 == g) with | some x => x.2 | none => ⟨[], []⟩

/-- A key as a CMAC key-derivation engine derives it (R489). -/
def derivedKey (c : Sec) (n : Nat) (k : KeyUse) : List Byte := kdf (rootOf c k.gen) n k.purpose k.ns (saltOf c k.ns) k.epoch

/-- Field key of a generation and an epoch (Table 12.3). -/
def fieldKey (gen : Option Nat) (epoch : Nat) : KeyUse := ⟨gen, 0x10, 0, epoch⟩

/-- AES-256-GMAC over a datagram's header and body under a field key; the nonce is sender slot, sender ROLE, a zero byte and the
sequence. -/
def gramTag (s : State) (gen : Option Nat) (epoch slot role seq : Nat) (gram : List Byte) : List Byte :=
  gcmTag (maskKey (derivedKey s.sec s.keys.draws (fieldKey gen epoch)) s.keys.draws) s.keys.draws
    (be 2 slot ++ be 1 role ++ be 1 0 ++ be 8 seq) gram []

/-- The common header of a datagram this device sends (Table 8.4). -/
def gramHeader (s : State) (type len seq : Nat) (mcast again : Bool) : List Byte :=
  be 2 0x4D4C ++ be 1 1 ++ be 1 type ++ be 2 len ++ be 2 (s.ice.slot.getD 0xFFFF) ++ be 1 s.keeper.role ++
  be 1 (bit mcast 0 + bit again 1 + bit s.ptp.locked 2) ++ be 2 0 ++ be 4 s.ice.epoch ++ be 8 seq ++ be 4 s.ice.inc ++
  be 4 (match s.cfg with | some c => c.seq | none => 0)

/-- The UDP payload of one datagram: header, body, tag. -/
def gramBytes (s : State) (type seq : Nat) (mcast again : Bool) (body : List Byte) : List Byte :=
  let g := gramHeader s type body.length seq mcast again ++ body
  g ++ gramTag s s.sec.inUse s.ice.epoch (s.ice.slot.getD 0xFFFF) s.keeper.role seq g

/-- Bodies whose rules send them again until they are answered (R322, R324, R327, R329, R330, R340, R344, R357); the resend flag stands on
one that went to the same slot before (log 148). -/
def resendable : Body → Bool
  | .fragment _ | .commitRequest _ | .commitIntent _ | .statusQuery _ | .locate _ | .readRequest _ | .recordQuery _ | .floorNotice _ _
  | .durabilityQuery _ | .gatherRequest _ | .abortNotice _ => true
  | _ => false

/-- A body goes to a slot again. -/
def wentBefore (s : State) (slot : Nat) (b : Body) : Bool :=
  resendable b && s.out.any (fun o => match o with | .milmo x _ _ c => x == slot && c == b | _ => false)

/-- The datagrams of a body from sequence `seq` on, each with a sequence of its own. -/
def gramsOf (s : State) (seq : Nat) (mcast again : Bool) (b : Body) : List (List Byte) :=
  (bodiesOf b).zipIdx.map (fun p => gramBytes s (typeOf b) (seq + p.2) mcast again p.1)

/-! ### Hinge frames (R413) -/

/-- Frame type codes of Table 10.4. -/
def frameType : HBody → Nat
  | .hello _ => 0x01 | .status _ => 0x02 | .health _ => 0x03 | .journal _ _ => 0x10 | .corniceWrite _ _ => 0x11
  | .corniceRelease _ => 0x12 | .transport _ => 0x13 | .operation _ _ => 0x14 | .milmoState _ => 0x15
  | .settings _ _ _ => 0x16 | .counters _ => 0x17 | .flushProgress _ _ => 0x18 | .mirrorAck _ _ => 0x20
  | .copyFirn _ _ _ _ => 0x30 | .copyCornice _ => 0x31 | .copyGranule _ _ _ => 0x32 | .joinStage _ _ => 0x33
  | .yield _ _ _ => 0x40 | .handoff _ => 0x41

/-- Frames that require acknowledgement: those whose items are held back (Table 10.6), and the Handoff (R442). -/
def needsAck : HBody → Bool
  | .journal _ _ => true | .corniceWrite _ _ => true | .transport _ => true | .operation _ _ => true
  | .milmoState _ => true | .settings _ _ _ => true | .handoff _ => true | _ => false

/-- `n` bytes over which the spec lays no field, of an entry of a frame (log 12). -/
def openBytes (type i n : Nat) : List Byte := (List.range n).map (fun j => Config.wireByte type i j)

/-- Bytes of a slot: its entry, empty or not, with the mark M that a write sets (Tables 4.3 to 4.5). -/
def slotBytes (e : Option KwEntry) (mark : Bool) : List Byte :=
  match e with
  | some e => le 4 e.fp ++ le 6 e.loc ++ le 2 (e.size + e.kind * 2 ^ 14) ++ le 2 e.ver ++
      le 2 (1 + bit e.alt 1 + bit e.pend 2 + bit e.cor 3 + bit e.zext 4 + e.pos * 2 ^ 5 + bit e.stash 10 + bit mark 15)
  | none => le 14 0 ++ le 2 (bit mark 15)

/-- Bytes of a Keyway journal record with its CRC field taken as 0 (Table 4.7). -/
def kwRecBytes (r : KwRec) : List Byte :=
  le 8 r.seq ++ le 1 r.op ++ le 1 r.writes.length ++ le 2 0 ++ le 4 0 ++
    r.writes.flatMap (fun w => le 5 w.bucket ++ le 1 w.slot ++ le 2 0 ++ slotBytes w.entry w.mark)

/-- Bytes of a Keyway journal record with its CRC. -/
def kwRecOut (r : KwRec) : List Byte := (kwRecBytes r).take 12 ++ le 4 r.crc ++ (kwRecBytes r).drop 16

/-- A Firn journal record in a Journal or Copy Firn frame: a Keyway record as Table 4.7 lays it out, another one in 64 bytes (log 12). -/
def journalBytes (type i : Nat) : JRec → List Byte
  | .kw r => kwRecOut r
  | _ => openBytes type i 64

/-- A transport entry (Table 10.7); the layouts of Open, Context and Progress are open (log 12). -/
def transportBytes (i : Nat) : TEntry → List Byte
  | .select n => be 1 1 ++ be 2 n
  | .openConn _ => be 1 2 ++ openBytes 0x13 i 127
  | .close => be 1 3
  | .context _ _ _ => be 1 4 ++ openBytes 0x13 i 15
  | .compact cid opc opts key => be 1 5 ++ be 2 cid ++ be 1 (opc + opts) ++ be 1 key.length ++ key
  | .capsule c => be 1 6 ++ be 3 (64 + c.data.length) ++ (List.range 16).flatMap (fun d => le 4 (c.q.dws[d]?.getD 0)) ++ c.data
  | .plan cid off first => be 1 7 ++ be 2 cid ++ be 3 off ++ be 1 first
  | .progress _ _ _ _ => be 1 8 ++ openBytes 0x13 i 15

/-- An operation table entry (Table 10.8, little-endian). -/
def operationBytes (e : OpEntry) : List Byte :=
  le 2 e.die ++ le 1 e.op ++ le 1 e.state ++ le 2 e.block ++ le 2 e.wl ++ le 1 e.planes ++ le 1 e.suspends ++ le 2 0 ++ le 4 e.source ++
  le 8 e.sb ++ le 8 e.issued

/-- Role state byte of Tables 10.5 and 10.16. -/
def roleByte (r : RoleState) (trial : Bool) : Nat := roleCode r + bit trial 7

/-- Body of a hinge frame (Tables 10.4, 10.5, 10.16 to 10.20), in network byte order. -/
def hingeBody : HBody → List Byte
  | .hello b => be 1 b.major ++ be 1 b.minor ++ be 1 b.role ++ be 1 (roleByte b.state false) ++ be 4 b.cfgSeq ++ be 8 b.serial ++
      be 8 b.pair ++ be 8 b.dram ++ be 8 b.firn ++ be 4 b.fw ++ be 4 b.check ++ be 4 b.geo ++ be 4 b.stage ++ be 8 0
  | .status b => be 1 b.hold ++ be 1 (roleByte b.role b.trial) ++ be 1 b.width ++
      be 1 (bit b.healthy 0 + bit b.gauge 1 + bit b.flush 2 + bit b.shutdown 3) ++ be 2 (toMask b.macs) ++ be 2 0 ++ be 4 b.aDev ++ be 4 0
  | .health b => be 1 b.criterion ++ be 1 (bit b.j3 0 + bit b.width4 1 + bit b.gauge 2 + bit b.trained 3) ++ be 2 (toMask b.macs) ++
      be 1 (toMask b.regions) ++ be 3 0 ++ be 8 b.time ++ be 4 b.misses ++ be 4 0
  | .journal _ rs => rs.zipIdx.flatMap (fun p => journalBytes 0x10 p.2 p.1)
  | .corniceWrite i gs => be 4 i ++ be 2 gs.length ++ be 2 0 ++ gs.flatMap (padTo 4096)
  | .corniceRelease rs => rs.flatMap (fun r => be 4 r.1 ++ be 4 r.2)
  | .transport es => es.zipIdx.flatMap (fun p => transportBytes p.2 p.1)
  | .operation es gone => es.flatMap operationBytes ++ gone.flatMap (fun g => le 2 g.1 ++ le 2 0 ++ le 2 g.2.1 ++ le 2 g.2.2 ++ le 24 0)
  | .milmoState ms => openBytes 0x15 0 (64 * ms.length)
  | .settings fs _ feats => openBytes 0x16 0 (64 * (fs.length + feats.length + 1))
  | .counters cs => cs.flatMap (fun c => be 2 c.1 ++ be 2 c.2.1 ++ be 4 c.2.2)
  | .flushProgress set idx => be 1 set ++ be 3 0 ++ be 4 idx
  | .mirrorAck held jseq => be 8 held ++ be 8 jseq
  | .copyFirn rs es os ms => rs.zipIdx.flatMap (fun p => journalBytes 0x30 p.2 p.1) ++ es.zipIdx.flatMap (fun p => transportBytes p.2 p.1) ++
      os.flatMap operationBytes ++ openBytes 0x30 0 (64 * ms.length)
  | .copyCornice gs => gs.flatMap (fun g => be 4 g.1 ++ be 4 0 ++ padTo 4096 g.2)
  | .copyGranule _ _ ws => ws.flatMap (fun w => le 5 w.bucket ++ le 1 w.slot ++ le 2 0 ++ slotBytes w.entry w.mark)
  | .joinStage st n => be 1 st ++ be 3 0 ++ be 4 n
  | .yield c d t => be 1 c ++ be 1 d ++ be 6 0 ++ be 8 t
  | .handoff n => be 8 n

/-- Body length of a frame in bytes. -/
def bodyLength (b : HBody) : Nat := (hingeBody b).length

/-- A hinge frame: the header of Table 10.3, then the body. -/
def hingeBytes (seq : Nat) (b : HBody) : List Byte :=
  be 2 0x4B48 ++ be 1 (frameType b) ++ be 1 (bit (needsAck b) 0) ++ be 4 (bodyLength b) ++ be 8 seq ++
  be 8 (match b with | .journal first _ => first | _ => 0) ++ be 4 (crc32c (hingeBody b)).toNat ++ be 4 0 ++ hingeBody b

/-- A frame as it goes out. -/
def hingeOut (seq : Nat) (b : HBody) : List Out := [.hinge seq b, .frameBytes (hingeBytes seq b)]

/-- Data flits of a frame: 496 frame bytes each, the frame beginning in the first of them (R411). -/
def flitsOf (bytes : List Byte) : List Flit :=
  (blocksOf 496 (ceilDiv bytes.length 496) bytes).zipIdx.map (fun p => ⟨if p.2 = 0 then 0 else 0xFFFF, padTo 496 p.1⟩)

/-- A flit (Table 10.2): sequence of a data flit, acknowledged sequence, kind, credits returned, content. -/
def flitBytes (seq ack kind credits : Nat) (f : Flit) : List Byte :=
  let b := be 2 seq ++ be 2 ack ++ be 1 kind ++ be 1 credits ++ be 2 f.start ++ padTo 496 f.payload
  b ++ be 4 (crc32c b).toNat ++ be 4 0

/-- A flit without data. -/
def Flit.none_ : Flit := ⟨0xFFFF, []⟩

end Machine

end Sys2Proof
end

