-- ==== Sys2Proof/Machine/Ports.lean ====
section
/-! DEFINITION. The transmit side of the MACs: which MAC and queue a frame takes, queues paused by PFC, counters (R370 to
R375, R381 to R386). -/

namespace Sys2Proof.Machine

/-! ### Counters (R385, R386) -/

/-- A counter word counts up and stops at 0xFFFF_FFFF, where the saturation flag sets (Table 9.6, R386). -/
def bumpMac (i n : Nat) (m : Mac) : Mac :=
  let v := (aGet i m.counts).getD 0 + n
  if n = 0 then m
  else if 0xFFFFFFFF ≤ v then { m with counts := aSet i 0xFFFFFFFF m.counts, sat := true }
  else { m with counts := aSet i v m.counts }

/-- Change one MAC. -/
def onMac (k : Nat) (f : Mac → Mac) (s : State) : State :=
  { s with net := { s.net with macs := updIf (fun m => m.idx == k) f s.net.macs } }

/-- Count on a MAC. -/
def bump (k i n : Nat) (s : State) : State := onMac k (bumpMac i n) s

/-- A MAC by index. -/
def macOf (s : State) (k : Nat) : Option Mac := s.net.macs.find? (fun m => m.idx == k)

/-- A MAC is up. -/
def isUp (s : State) (k : Nat) : Bool := match macOf s k with | some m => m.up | none => false

/-! ### Settings -/

/-- The Network record in force. -/
def netOf (s : State) : Option NetRec := s.cfg.map (·.net)

/-- Setting word of a MAC (Table 14.9). -/
def macCfg (s : State) (k : Nat) : Option MacCfg :=
  match netOf s with
  | some n => n.macs[k]?
  | none => none

/-- PCP of a transmit queue (Table 9.2, R370). -/
def pcpOf (s : State) (q : Nat) : Nat :=
  match netOf s with
  | some n => match n.marks[q]? with | some m => m.1 | none => q
  | none => q

/-- Milmo-enabled MACs that are up, ascending (R374). -/
def milmoMacs (s : State) : List Nat :=
  ((s.net.macs.filter (fun m => m.up && decide (m.idx < 16))).map (·.idx)).filter (fun k =>
    match macCfg s k with | some c => c.milmo | none => false)

/-- MAC address of an IPv6 group: 33-33 and the low 32 bits of the address. -/
def mac6 (low : Nat) : Nat := 0x3333 * 2 ^ 32 + low % 2 ^ 32

/-- MAC address of an IPv4 group: 01-00-5E and the low 23 bits of the address. -/
def mac4 (addr : Nat) : Nat := 0x01005E * 2 ^ 24 + addr % 2 ^ 23

/-- Multicast ports of the Network record (R379). -/
def mcastPorts (s : State) : List Nat :=
  (List.range 16).filter (fun k => match macCfg s k with | some c => c.mcast | none => false)

/-- Placement key of the roster (R310). -/
def placementKey (s : State) : Word × Word :=
  match s.cfg with
  | some c => match c.roster with | some r => (r.p0, r.p1) | none => (0, 0)
  | none => (0, 0)

/-- The MAC of a Milmo flow: SipHash-2-4 under the placement key over destination slot and queue, modulo the enabled
MACs that are up (R374); the hashed bytes are the slot and the queue, little-endian (log 14). -/
def milmoMac (s : State) (slot queue : Nat) : Option Nat :=
  let ms := milmoMacs s
  let (p0, p1) := placementKey s
  if ms.isEmpty then none
  else ms[(sipHash p0 p1 (le 2 slot ++ le 1 queue)).toNat % ms.length]?

/-! ### Transmit queues -/

/-- Connection of an output, with the queue its class gives it (Table 9.2). -/
def connOut : Out → Option (Nat × Nat)
  | .complete c _ _ _ _ _ => some (c, 6)
  | .readyToTransfer c _ _ _ => some (c, 5)
  | .rdmaRead c _ _ _ => some (c, 5)
  | .transportAck c _ => some (c, 5)
  | .retransmit c _ => some (c, 5)
  | .icResp c _ _ _ _ _ => some (c, 5)
  | .c2hTerm c _ => some (c, 5)
  | .connAccept c => some (c, 5)
  | _ => none

/-- MAC of a connection: the one that received its latest segment (R374). -/
def connMac (s : State) (conn : Nat) : Option Nat := (s.host.conns.find? (fun c => c.idx == conn)).map (·.mac)

/-- A queue of a MAC is paused by received PFC: by the priority it carries, while the pause runs and is not disregarded
(R381, R383). -/
def pausedAt (s : State) (k q : Nat) : Bool :=
  match macOf s k with
  | some m =>
    let p := pcpOf s q
    m.paused.any (fun x => x.1 == p && decide (s.now < x.2.2)) && ! m.ignore.any (fun x => x.1 == p && decide (s.now < x.2))
  | none => false

/-- MAC and queue of an output; what no MAC carries has none. A completion takes queue 5 while an earlier frame of its
connection waits there (R373). -/
def portOf (s : State) (o : Out) : Option (Nat × Nat) :=
  match o with
  | .milmo slot q _ _ => (milmoMac s slot q).map (fun k => (k, q))
  | .forward slot _ _ => (milmoMac s slot 7).map (fun k => (k, 7))
  | _ =>
    match connOut o with
    | some (c, q) =>
      match connMac s c with
      | some k =>
        let waits : Bool := match macOf s k with
          | some m => m.txq.any (fun x => x.queue == 5 && (connOut x.o).map (·.1) == some c)
          | none => false
        some (k, if q = 6 ∧ waits then 5 else q)
      | none => none
    | none => none

/-- A Milmo frame with no MAC to carry it is discarded (Table 9.9). -/
def noCarrier (s : State) (o : Out) : Bool :=
  match o with
  | .milmo _ _ _ _ => (milmoMacs s).isEmpty
  | .forward _ _ _ => (milmoMacs s).isEmpty
  | .milmoGroup _ _ _ _ => (mcastPorts s).isEmpty
  | _ => false

/-- The MAC that counts a frame no MAC could carry: the lowest one (log 14). -/
def dropMac : Nat := 0

/-- Size band of a frame: index 0 to 7 (Table 9.5, counters 8 to 15 and 54 to 61). -/
def sizeBand (len : Nat) : Nat :=
  if len ≤ 64 then 0 else if len ≤ 127 then 1 else if len ≤ 255 then 2 else if len ≤ 511 then 3
  else if len ≤ 1023 then 4 else if len ≤ 1518 then 5 else if len ≤ 4095 then 6 else 7

/-! ### Frames (R367 to R373) -/

/-- DSCP of a transmit queue (Table 9.2, R370). -/
def dscpOf (s : State) (q : Nat) : Nat :=
  match netOf s with
  | some n => match n.marks[q]? with | some m => m.2 | none => 8 * q
  | none => 8 * q

/-- VLAN tag of a MAC's frames: the VLAN ID of the Network record, 0 for a priority tag, with the queue's priority code point; none where
the record chooses untagged sending, and for a MAC it has no setting for (R371; MM: log 149). -/
def vlanTag (s : State) (k q : Nat) : Option (Nat × Nat) :=
  match macCfg s k with
  | some c => if c.untagged then none else some (c.vlan, pcpOf s q)
  | none => none

/-- Unit MAC address of a MAC (R367). -/
def unitMac (s : State) (k : Nat) : Nat := s.boot.unitMacs[k]?.getD 0

/-- The pair service MAC address; all zeros in the record means 0x02 and the low 40 bits of the pair ID (R368, Table 14.8). -/
def serviceMac (s : State) : Nat :=
  match s.cfg with
  | some c => if c.net.svcMac = 0 then 0x02 * 2 ^ 40 + c.pair % 2 ^ 40 else c.net.svcMac
  | none => 0

/-- What a destination address is to a MAC. -/
inductive DestKind where
  | unit | service | broadcast | group | other
  deriving DecidableEq, Repr

/-- Kind of the destination address of a frame on a MAC (R367, R368, R377): the group bit is the lowest of the first byte. -/
def destKind (s : State) (k a : Nat) : DestKind :=
  if a = 2 ^ 48 - 1 then .broadcast
  else if a / 2 ^ 40 % 2 = 1 then .group
  else if a = unitMac s k then .unit
  else if a = serviceMac s then .service
  else .other

/-- Traffic of the pair service MAC address: that of host connections, and answers and announcements for the service addresses (R368). -/
def servesPair (s : State) (k : Nat) (o : Out) : Bool :=
  let svc (v6 : Bool) (a : Nat) : Bool := match netOf s with | some n => (if v6 then n.svc6 else n.svc4) == a && decide (k < 16) | none => false
  match o with
  | .arpReply _ a => svc false a
  | .neighbourAdvert _ a => svc true a
  | .echoReply _ v6 a _ => svc v6 a
  | .announce _ _ => true
  | _ => match connOut o with
    | some (c, _) => (s.host.conns.find? (fun x => x.idx == c)).any (fun x => ! x.mgmt)
    | none => false

/-- Source address of a frame: the service MAC for the pair's traffic; Milmo, PTP and what goes from a device address from the unit address
of the MAC (R367, R368). -/
def sourceMac (s : State) (k : Nat) (o : Out) : Nat := if servesPair s k o then serviceMac s else unitMac s k

/-- Header of an IP packet. -/
def ipHeader (v6 : Bool) : Nat := if v6 then 40 else 20

/-- Largest IP packet sent (R372). -/
def maxPacket : Nat := 9000

/-- A frame on MAC `k` and queue `q` with `packet` bytes in it, of an IP family or none: 14 bytes of header, the tag, at least 64 bytes
in all with the FCS (R371, R372). -/
def ethFrame (s : State) (k q : Nat) (o : Out) (dest : TxDest) (ip : Option Bool) (etherType packet : Nat) (datagram : List Byte) : TxFrame :=
  let tag := vlanTag s k q
  { mac := k, dest := dest, src := sourceMac s k o, tag := tag, dscp := ip.map (fun _ => dscpOf s q), etherType := etherType, packet := packet
    len := max 64 (14 + (if tag.isSome then 4 else 0) + packet + 4), datagram := datagram }

/-- An IP packet in a frame. -/
def ipFrame (s : State) (k q : Nat) (o : Out) (dest : TxDest) (v6 : Bool) (payload : Nat) (datagram : List Byte) : TxFrame :=
  ethFrame s k q o dest (some v6) (if v6 then 0x86DD else 0x0800) (ipHeader v6 + payload) datagram

/-- Family of the Milmo address of a slot: IPv6 where the roster gives one (R356; log 149). -/
def slotV6 (s : State) (slot : Nat) : Bool :=
  match s.cfg.bind (·.roster) with
  | some r => match r.slots.find? (fun e => e.slot == slot) with | some e => e.a6.isSome | none => false
  | none => false

/-- Payloads of the packets that carry `n` bytes of a connection: segments of TCP within the peer's segment size, packets of a queue pair
within the path MTU, and never an IP packet beyond 9 000 bytes (R372, Table 9.8). -/
def packetSizes (c : Conn) (n : Nat) : List Nat :=
  let hdr := ipHeader c.v6 + if c.rdma then 24 else 20
  let per := max 1 (min c.mss (maxPacket - hdr))
  (List.range (max 1 (ceilDiv n per))).map (fun i => (if c.rdma then 24 else 20) + min per (n - per * i))

/-- Bytes of a connection's stream that an output stands for: the PDU headers of the transport and the data of a completion. -/
def connBytes (c : Conn) : Out → Nat
  | .complete _ _ _ _ _ bytes => 24 + bytes.length
  | .readyToTransfer _ _ _ _ => 24
  | .rdmaRead _ _ _ _ => 16
  | .retransmit _ from_ => c.sndNxt - from_
  | .icResp _ _ _ _ _ _ => 128
  | .c2hTerm _ _ => 24
  | _ => 0

/-- Frames in which an output leaves MAC `k` on queue `q`; none for what no MAC carries. The lengths of packets of published protocols are
those of their plain forms (log 149). A relayed datagram goes with the header and tag of its first sender (log 149). -/
def framesOf (s : State) (k q : Nat) (o : Out) : List TxFrame :=
  match o with
  | .milmo slot _ seq b => (gramsOf s seq false (wentBefore s slot b) b).map (fun g => ipFrame s k q o .neighbour (slotV6 s slot) (8 + g.length) g)
  | .forward slot _ b => (bodiesOf b).map (fun g => ipFrame s k q o .neighbour (slotV6 s slot) (8 + 48 + g.length) g)
  | .milmoGroup bin _ seq b =>
    match netOf s with
    | some n => (gramsOf s seq true false b).map (fun g =>
        ipFrame s k q o (.group (if n.v6 then mac6 bin else mac4 ((192 + bin / 2 ^ 16) * 2 ^ 16 + bin % 2 ^ 16))) n.v6 (8 + g.length) g)
    | none => []
  | .arpReply _ _ => [ethFrame s k q o .neighbour none 0x0806 28 []]
  | .neighbourAdvert _ _ => [ipFrame s k q o .neighbour true 32 []]
  | .echoReply _ v6 _ bytes => [ipFrame s k q o .neighbour v6 (8 + bytes.length) []]
  | .announce _ a =>
    if (netOf s).any (fun n => n.v4 && n.svc4 == a) then [ethFrame s k q o .broadcast none 0x0806 28 []]
    else [ipFrame s k q o (.group (mac6 1)) true 32 []]
  | .groupReport _ _ | .groupLeave _ _ =>
    match netOf s with
    | some n => (if n.v6 then [ipFrame s k q o (.group (mac6 0x16)) true 36 []] else []) ++
        (if n.v4 then [ipFrame s k q o (.group (mac4 0xE0000016)) false 20 []] else [])
    | none => []
  | .lldp _ => [ethFrame s k q o (.group 0x0180C200000E) none 0x88CC 46 []]
  | .pfc _ _ _ => [ethFrame s k q o (.group 0x0180C2000001) none 0x8808 46 []]
  | _ =>
    match connOut o with
    | some (c, _) =>
      match s.host.conns.find? (fun x => x.idx == c) with
      | some x => (packetSizes x (connBytes x o)).map (fun n => ipFrame s k q o .neighbour x.v6 n [])
      | none => []
    | none => []

/-- Count a frame sent: frames, octets in units of 64 with the rest carried on, kind of destination, size, queue (R385, Table 9.5). -/
def countFrame (q : Nat) (f : TxFrame) (m : Mac) : Mac :=
  let kind := match f.dest with | .neighbour => 0 | .group _ => 1 | .broadcast => 2
  let n := m.txRem + f.len
  bumpMac (64 + q) 1 (bumpMac (54 + sizeBand f.len) 1 (bumpMac (50 + kind) 1 (bumpMac 49 (n / 64) (bumpMac 48 1 { m with txRem := n % 64 }))))

/-- An output leaves MAC `k` from queue `q`, MM from its one queue, 0 (R366). Transmit is store-and-forward: every frame of it is whole
before it begins (R372). -/
def sendOn (k q0 : Nat) (o : Out) (s : State) : State :=
  let q := if k = 16 then 0 else q0
  let fs := framesOf s k q o
  fs.foldl (fun t f => onMac k (countFrame q f) t) { s with out := s.out ++ o :: fs.map .frame }

/-- A frame of the network unit leaves MAC `k` on queue `q`. It waits while
its queue is paused; a copy bound for several MACs is discarded where its MAC is down (R384). -/
def txFrame (k q : Nat) (multi : Bool) (o : Out) (s : State) : State :=
  if ! isUp s k then (if multi then bump k 62 1 s else bump k 63 1 s)
  else if pausedAt s k q then onMac k (fun m => { m with txq := m.txq ++ [⟨q, s.now, o, multi⟩] }) s
  else sendOn k q o s

/-- Drive or send: a frame for a paused queue waits in it, a Milmo frame without any MAC is discarded and counted, a multicast datagram
leaves on each multicast port by itself (R379, R384), a PFC frame waits in no queue, the flash pins stay undriven outside the gate (R235), and everything else leaves at
once. -/
def emitNow (o : Out) (s : State) : State :=
  if onFlashPins o && ! flashDriven s then s
  else if noCarrier s o then bump dropMac 63 1 s
  else
    match o with
    | .milmoGroup _ q _ _ => (mcastPorts s).foldl (fun t k => txFrame k q true o t) s
    | .pfc k _ _ => sendOn k 7 o s
    | _ =>
      match portOf s o with
      | some (k, q) =>
        if pausedAt s k q then onMac k (fun m => { m with txq := m.txq ++ [⟨q, s.now, o, false⟩] }) s
        else sendOn k q o s
      | none => { s with out := s.out ++ [o] }

/-- Frames whose queue is no longer paused leave, queue 7 first, each queue in order (R370). -/
def drainMac (k : Nat) (s : State) : State :=
  match macOf s k with
  | some m =>
    let go := [7, 6, 5, 4, 3, 2, 1, 0].flatMap (fun q => if pausedAt s k q then [] else m.txq.filter (fun x => x.queue == q))
    let stay := m.txq.filter (fun x => pausedAt s k x.queue)
    go.foldl (fun t x => sendOn k x.queue x.o t) (onMac k (fun m => { m with txq := stay }) s)
  | none => s

/-- Every MAC drains. -/
def drainTx (s : State) : State := s.net.macs.foldl (fun t m => drainMac m.idx t) s

end Sys2Proof.Machine
end

