-- ==== Sys2Proof/Machine/Recorder.lean ====
section
/-! DEFINITION. The Moraine recorder as operations on its own state (chapter 17): severities, source paths, rate
limiting, admission, the ring and the first-failure area. -/

namespace Sys2Proof.Machine

/-! ### Codes and paths -/

/-- Codes of severity 0, 1, 2, 3, 5 and 6; every other defined code has severity 4 (R638, R645, Tables 10.15, 11.12,
12.8, 13.9, 14.26, 15.8, 16.12, 17.8). 0x0010 is given its severity where it is recorded (Table 15.8). -/
def severityLists : List (Nat × List Nat) :=
  [(0, [0x0010, 0x0012, 0x0030, 0x1040, 0x4041, 0x4070, 0x6020, 0x6030, 0x7013, 0x7042, 0x8111, 0x8118, 0x8211,
        0x8212, 0x8220, 0x8222]),
   (1, [0x3300]),
   (2, [0x0011, 0x2090, 0x3011, 0x3110, 0x3112, 0x5010, 0x5030, 0x5031]),
   (3, [0x2040, 0x2080, 0x3111, 0x5040, 0x5060, 0x6050, 0x7211]),
   (5, [0x0020, 0x0021, 0x0041, 0x0043, 0x0210, 0x0211, 0x1020, 0x1021, 0x1041, 0x2042, 0x2050, 0x2070, 0x2081,
        0x3020, 0x4010, 0x4011, 0x4020, 0x4022, 0x4031, 0x4040, 0x4042, 0x4080, 0x5011, 0x5020, 0x6010, 0x6013,
        0x6023, 0x6024, 0x6052, 0x7010, 0x7040, 0x7041, 0x8113, 0x8114, 0x8115, 0x8116, 0x8117, 0x8213, 0x8214,
        0x8215, 0x8218, 0x8219, 0x8223, 0x8224]),
   (6, [0x0050, 0x1051, 0x1070, 0x2060, 0x2071, 0x4021, 0x4023, 0x4050, 0x4052, 0x5050, 0x6022, 0x6040, 0x6041,
        0x6053, 0x7012, 0x7031, 0x7032, 0x8112, 0x8216, 0x8217])]

/-- Severity of a code (Table 17.3). -/
def severity (code : Nat) : Nat :=
  match severityLists.find? (fun p => p.2.contains code) with
  | some p => p.1
  | none => 4

/-- A source path (Table 17.4). -/
def path (level die region cluster unit inst : Nat) : Nat :=
  level * 2 ^ 29 + die * 2 ^ 27 + region * 2 ^ 25 + cluster * 2 ^ 22 + unit * 2 ^ 14 + inst

/-- Path of a unit of die X or of anything Table 17.5 places there. -/
def pathX (unit inst : Nat) : Nat := path 0 2 0 0 unit inst

/-- Path of core `n` (R21). -/
def pathCore (n : Nat) : Nat := path 0 (n / 128) (n / 64) (n / 8 % 8) 1 n

/-- Path of cluster `c` (R21). -/
def pathCluster (c : Nat) : Nat := path 1 (c / 16) (c / 8) (c % 8) 0 0

/-- Path of region `r` (R21). -/
def pathRegion (r : Nat) : Nat := path 2 (r / 2) r 0 0 0

/-- Path of a die by its code of R21. -/
def pathDie (d : Nat) : Nat := path 3 d 0 0 0 0

/-- Path of the package, of a pair slot, of a namespace, of the twin. -/
def pathPkg : Nat := path 4 0 0 0 0 0
def pathSlot (s : Nat) : Nat := path 5 0 0 0 0x60 s
def pathNs (n : Nat) : Nat := path 5 0 0 0 0x61 n
def pathTwin : Nat := path 5 0 0 0 0x62 0

/-- Paths of the keeper, the Gauge, a deadline monitor, the hinge link, a flash die, a MAC. -/
def pathKeeper : Nat := pathX 0x40 0
def pathGauge (i : Nat) : Nat := pathX 0x41 i
def pathMonitor (i : Nat) : Nat := pathX 0x42 i
def pathHinge : Nat := pathX 0x33 0
def pathFlashDie (d : Nat) : Nat := pathX 0x11 d
def pathMac (m : Nat) : Nat := pathX 0x30 m

/-! ### Rate limiting -/

/-- Codes the default leaves unlimited besides the critical ones (R648). -/
def unlimitedCodes : List Nat := [0x0010, 0x0011, 0x0012, 0x0020, 0x0021, 0x6013]

/-- Rate and burst of a code under the configuration in force (R563, R647, R648); without one the defaults 10 and 20. -/
def limitsOf (lim : Option LimRec) (code : Nat) : Nat × Nat :=
  let dflt : Nat × Nat :=
    if severity code = 6 ∨ unlimitedCodes.contains code then (0, 20)
    else match lim with
      | some l => (l.rate, l.burst)
      | none => (10, 20)
  match lim with
  | some l => match l.overs.find? (fun o => o.code = code) with
    | some o => (o.rate, o.burst)
    | none => dflt
  | none => dflt

/-- Units of a bucket's level in one token. -/
def tokenUnit : Nat := 1000000000

/-- A bucket's level at `now` (R647): it is refilled continuously and starts full at each start. -/
def bucketLevel (m : Moraine) (rate burst now code : Nat) : Nat :=
  match m.buckets.find? (fun b => b.code = code) with
  | some b => min (burst * tokenUnit) (b.level + rate * (now - b.at_))
  | none => burst * tokenUnit

/-! ### Admission, the ring, the first-failure area -/

/-- Records of the ring (R656), of the buffer (R652), of the first-failure area (R658). -/
def ringSize : Nat := 1048576
def bufferSize : Nat := 4096
def firstSize : Nat := 4096

/-- The mark raised so that `n` is assigned below M by more than 4 096 (R642). -/
def raiseMark (mark n : Nat) : Nat :=
  if n + 4096 < mark then mark else mark + 4096 * ((n + 4096 - mark) / 4096 + 1)

/-- Places of the buffer open to a severity (R655). -/
def placesFor (sev : Nat) : Nat := if sev < 4 then bufferSize - 64 else bufferSize

/-- Write a record to its ring place (R656). -/
def ringPut (ring : List EvRec) (r : EvRec) : List EvRec :=
  ring.filter (fun x => x.seq % ringSize != r.seq % ringSize) ++ [r]

/-- Write one admitted record out: the ring and, from severity major, the first-failure area with flag bit 4 in both
(R656, R658). Event 0x0043 itself is not copied. -/
def writeOut (m : Moraine) (r : EvRec) : Moraine :=
  if 5 ≤ r.sev ∧ m.first.length < firstSize ∧ r.code ≠ 0x0043 then
    let r' := { r with first := true }
    { m with ring := ringPut m.ring r', first := m.first ++ [r'] }
  else { m with ring := ringPut m.ring r }

/-- Count a record that found no place (R655). -/
def loseRec (m : Moraine) (r : EvRec) : Moraine :=
  { m with
    lost := m.lost + 1
    lostRun := some (match m.lostRun with
      | none => { count := 1, code0 := r.code, time0 := r.time, code1 := r.code, time1 := r.time }
      | some l => { l with count := l.count + 1, code1 := r.code, time1 := r.time }) }

/-- Admit an emitted record: it takes its number, or is lost for want of a place (R641, R642, R643, R652, R655);
under write-through it goes to the ring at once (R657). -/
def admitRec (m : Moraine) (now : Nat) (r : EvRec) : Moraine :=
  if m.through then
    writeOut { m with next := m.next + 1, mark := raiseMark m.mark m.next, clean := true } { r with seq := m.next }
  else if placesFor r.sev ≤ m.buffer.length then loseRec m r
  else
    { m with
      next := m.next + 1
      mark := raiseMark m.mark m.next
      clean := false
      buffer := m.buffer ++ [{ r with seq := m.next }]
      waiting := some (m.waiting.getD now)
      trigger := if 4 ≤ r.sev then some (m.trigger.getD now) else m.trigger }

/-- Emit an occurrence as a record: it carries the count suppressed since the previous record of its code (R649). -/
def emitRec (m : Moraine) (now : Nat) (r : EvRec) : Moraine :=
  let c := match m.supp.find? (fun x => x.last.code = r.code) with
    | some x => x.count
    | none => 0
  admitRec { m with supp := m.supp.filter (fun x => x.last.code != r.code) } now
    { r with suppressed := c, sat := c == 0xFFFFFFFF }

/-- An occurrence of a code under rate limiting (R647 to R649): emitted, or suppressed and only counted. Answers
whether it was emitted. -/
def occur1 (lim : Option LimRec) (m : Moraine) (now : Nat) (r : EvRec) : Moraine × Bool :=
  let (rate, burst) := limitsOf lim r.code
  if rate = 0 then (emitRec m now r, true)
  else
    let lv := bucketLevel m rate burst now r.code
    if tokenUnit ≤ lv then
      (emitRec { m with buckets := putIf (fun b => b.code = r.code) ⟨r.code, lv - tokenUnit, now⟩ m.buckets } now r, true)
    else
      let c := match m.supp.find? (fun x => x.last.code = r.code) with
        | some x => x.count
        | none => 0
      ({ m with
        buckets := putIf (fun b => b.code = r.code) ⟨r.code, lv, now⟩ m.buckets
        supp := putIf (fun x => x.last.code = r.code) ⟨min (c + 1) 0xFFFFFFFF, r⟩ m.supp }, false)

/-- A blank record of a code. -/
def newRec (now : Nat) (ptp : Bool) (code sev pth : Nat) (payload : List Byte) : EvRec :=
  { seq := 0, time := now, code := code, sev := sev, ptp := ptp, carried := false, summary := false, sat := false,
    first := false, path := pth, suppressed := 0, payload := payload.take 32 }

/-- Event 0x0040, once for each rise of the buffer to 3 072 records (R653). -/
def highWater (lim : Option LimRec) (m : Moraine) (now : Nat) (ptp : Bool) : Moraine :=
  if 3072 ≤ m.buffer.length ∧ ¬ m.high then
    (occur1 lim { m with high := true } now (newRec now ptp 0x0040 4 pathPkg [])).1
  else m

/-- An occurrence with the high-water event it may bring. -/
def occur (lim : Option LimRec) (m : Moraine) (now : Nat) (r : EvRec) : Moraine × Bool :=
  let (m1, e) := occur1 lim m now r
  (highWater lim m1 now r.ptp, e)

/-- The summary record of a suppressed code (R650): the latest suppressed occurrence, never limited. -/
def summarize (m : Moraine) (now : Nat) (x : Suppr) : Moraine :=
  admitRec { m with supp := m.supp.filter (fun y => y.last.code != x.last.code) } now
    { x.last with summary := true, suppressed := x.count - 1, sat := x.count == 0xFFFFFFFF }

/-- Every code with a suppressed count gets its summary record at once (R650). -/
def summarizeAll (m : Moraine) (now : Nat) : Moraine :=
  m.supp.foldl (fun m x => summarize m now x) m

/-- Since when a code's bucket has held a token with no further occurrence (R650). -/
def summaryDue (lim : Option LimRec) (m : Moraine) (now : Nat) (x : Suppr) : Bool :=
  let (rate, burst) := limitsOf lim x.last.code
  let tokenAt := match m.buckets.find? (fun b => b.code = x.last.code) with
    | some b => if tokenUnit ≤ b.level then b.at_ else b.at_ + ceilDiv (tokenUnit - b.level) (max rate 1)
    | none => 0
  decide (tokenUnit ≤ bucketLevel m rate burst now x.last.code) && decide (tokenAt + 1000000000 ≤ now)
    && decide (x.last.time + 1000000000 ≤ now)

/-! ### Ring writes -/

/-- A ring write begins: it takes every record in the buffer (R654). -/
def beginWrite (m : Moraine) (trig : Nat) : Moraine :=
  { m with writing := some (m.buffer.length, trig, false), trigger := none, waiting := none }

/-- The records a write took are in the ring; a trigger that came meanwhile starts a further write (R654, R643). -/
def endWrite (m : Moraine) (n : Nat) : Moraine :=
  let w := (m.buffer.take n).foldl writeOut m
  let b := m.buffer.drop n
  let m1 := { w with buffer := b, writing := none, writes := m.writes + 1, clean := b.isEmpty,
                     high := m.high && decide (3072 ≤ b.length) }
  match m1.trigger with
  | some t => if b.isEmpty then { m1 with trigger := none } else beginWrite m1 t
  | none => m1

/-- The buffer written to Firn at once: step 3 of a flush, step 5 of an orderly shutdown (R654, R467, Table 15.6). -/
def writeAll (m : Moraine) : Moraine :=
  let w := m.buffer.foldl writeOut m
  { w with buffer := [], writing := none, trigger := none, waiting := none, writes := m.writes + 1, clean := true,
           high := false }

/-! ### Starts -/

/-- Volatile parts end with a run: buffered records are lost and their numbers stay unused (R659). -/
def endRun (m : Moraine) : Moraine :=
  { m with buffer := [], writing := none, trigger := none, waiting := none, high := false, lost := 0, lostRun := none,
           through := false, buckets := [], supp := [], writes := 0 }

/-- The last sequence the ring holds, 0 of none. -/
def lastInRing (m : Moraine) : Nat := maxL (m.ring.map (·.seq))

/-- The number a start continues at (R643), with the numbers it skips. -/
def startNumbers (m : Moraine) : Moraine :=
  let last := lastInRing m
  if m.clean then { m with next := last + 1, skipped := 0 }
  else { m with next := m.mark, skipped := m.mark - (last + 1) }

end Sys2Proof.Machine
end

