-- ==== Sys2Proof/Machine/Ops.lean ====
section
/-! DEFINITION. The named operations every family uses: recording events, asynchronous events and completions,
mirroring over the hinge and what it holds back, Milmo sending, and applying Firn journal records. -/

namespace Sys2Proof.Machine

/-- What a meaning answers. -/
abbrev Result := Host.Outcome State Fault Refusal

/-- The state an outcome leaves: the next state, or the one before a stop. -/
def stateOf (s : State) (r : Result) : State := match r with | .next t => t | _ => s

/-- A command whose condition holds has its effect; otherwise the state stays as it is (R12). -/
def onlyIf (c : Bool) (f : State → State) (s : State) : Result := .next (if c then f s else s)

/-! ### Outputs and mirroring (R413, R417) -/

/-- Send the data flits that credit and the replay buffer of 1 024 allow (R412). -/
def pumpFlits (t : Twin) : Twin :=
  let n := min t.flitWait.length (min t.credits (1024 - t.replay.length))
  { t with
    flitWait := t.flitWait.drop n
    credits := t.credits - n
    flitTx := (t.flitTx + n) % 65536
    replay := t.replay ++ (t.flitWait.take n).zipIdx.map (fun p => ((t.flitTx + p.2) % 65536, p.1)) }

/-- Send a frame on the hinge link: it takes the next frame sequence of the session (R413), and one that requires
acknowledgement is watched from its sending (R419). Without a session nothing is sent. -/
def sendFrame (b : HBody) (s : State) : State :=
  if s.twin.session then
    { s with
      out := s.out ++ hingeOut s.twin.txSeq b
      twin := pumpFlits { s.twin with
        flitWait := s.twin.flitWait ++ flitsOf (hingeBytes s.twin.txSeq b)
        txSeq := s.twin.txSeq + 1
        unacked := if needsAck b then s.twin.unacked ++ [(s.twin.txSeq, frameType b, s.now)] else s.twin.unacked } }
  else s

/-- Mirror an item: only the ACTIVE does (R417). -/
def mirror (b : HBody) (s : State) : State := if s.twin.roleState = .active then sendFrame b s else s

/-- Send something that reveals mirrored items: it is held back until the Mirror Ack covers the last frame sent,
while the STANDBY is healthy (R417). -/
def emit (o : Out) (s : State) : State :=
  match hasStandby s, s.twin.unacked.getLast? with
  | true, some u => { s with held := s.held ++ [(u.1, o)] }
  | _, _ => emitNow o s

/-- Release what was held back for frames up to `n` (R417). -/
def releaseUpTo (n : Nat) (s : State) : State :=
  (s.held.filter (fun h => h.1 ≤ n)).foldl (fun t h => emitNow h.2 t)
    { s with held := s.held.filter (fun h => ¬ h.1 ≤ n) }

/-- Release everything held back for mirroring (R419). -/
def releaseAll (s : State) : State := s.held.foldl (fun t h => emitNow h.2 t) { s with held := [] }

/-- A program or erase that has gone out stands as confirmed on the STANDBY too (Table 10.8, Table 10.12; log 126). -/
def confirmOut (o : Out) (s : State) : State :=
  match o with
  | .flashOp die op block wl =>
    match s.twin.ops.find? (fun e => e.die == die && e.op == op && e.block == block && e.wl == wl && e.state == 2) with
    | some e => mirror (.operation [e] []) s
    | none => s
  | _ => s

/-! ### Responses on a connection (R421) -/

/-- The transmission plan of a response, mirrored before its first byte leaves (Table 10.7 kind 7); a management connection
belongs to the device alone (R97). -/
def mirrorPlan (c : Conn) (cid : Nat) (s : State) : State :=
  if c.mgmt then s else mirror (.transport [.select c.idx, .plan cid 0 c.sndNxt]) s

/-- Bytes of a connection's sequence space that sending takes; what the host sends next acknowledges them (log 41). -/
def sentOn (conn n : Nat) (s : State) : State :=
  { s with host := { s.host with conns := updIf (fun c => c.idx == conn) (fun c => { c with sndNxt := c.sndNxt + n }) s.host.conns } }

/-- Alive states: neither ABSENT nor LOST. -/
def alive (st : SlotState) : Bool := st != .absent && st != .lost

/-! ### Asynchronous events (R150) -/

/-- Event type, information and log page of a kind: 0 SMART / Health, 1 Notice, 2 Moraine record, 3 Service Address. -/
def asyncDw0 (kind info : Nat) : Nat :=
  match kind with
  | 0 => 1 + info * 2 ^ 8 + 0x02 * 2 ^ 16
  | 1 => 2 + 0x00 * 2 ^ 8 + 0x04 * 2 ^ 16
  | 2 => 7 + 0x00 * 2 ^ 8 + 0xC0 * 2 ^ 16
  | _ => 7 + 0x01 * 2 ^ 8 + 0xD1 * 2 ^ 16

/-- Whether a controller's Asynchronous Event Configuration enables a kind: bits 7 to 0 the critical warnings, bit 8
namespace attribute notices, bit 31 the vendor events (log 11). -/
def asyncEnabled (aec kind info : Nat) : Bool :=
  match kind with
  | 0 => aec.testBit info
  | 1 => aec.testBit 8
  | _ => aec.testBit 31

/-- Information value of a SMART / Health event by critical warning bit (log 11): 1 temperature for bit 1, 2 spare
for bit 0, 0 reliability for the others. -/
def smartInfo (wbit : Nat) : Nat := if wbit = 0 then 2 else if wbit = 1 then 1 else 0

/-- Report an event to one controller: it completes the oldest request, or waits for one; a kind already reported is
not reported again before its log page is read (R150). The request's completion is the second component. -/
def asyncAt (kind info : Nat) (c : Ctrl) : Ctrl × List (Nat × Nat) :=
  if asyncEnabled c.aec kind info ∧ ¬ c.masked.contains kind ∧ ¬ c.waiting.any (fun w => w.1 = kind) then
    let dw := asyncDw0 kind (if kind = 0 then smartInfo info else 0)
    match c.aers with
    | r :: rs => ({ c with aers := rs, masked := sIns kind c.masked }, [(r, dw)])
    | [] => ({ c with waiting := c.waiting ++ [(kind, dw)] }, [])
  else (c, [])

/-- The admin connection of a controller. -/
def adminConn (s : State) (id : Nat) : Option Conn := s.host.conns.find? (fun c => c.cntl == id && c.qid == 0)

/-- State of a connection that the twins share, its controller with it (Table 10.7 kind 2). -/
def connSt (s : State) (c : Conn) : ConnSt :=
  let x := s.host.ctrls.find? (fun x => x.id == c.cntl)
  { idx := c.idx, rdma := c.rdma, mgmt := c.mgmt, disc := c.disc, cntl := c.cntl, qid := c.qid, qsize := c.qsize, inited := c.inited,
    hdgst := c.hdgst, ddgst := c.ddgst, align := c.align, sndAck := c.sndAck, sndNxt := c.sndNxt, rcvNxt := c.rcvNxt, wnd := c.wnd,
    mac := c.mac, v6 := c.v6, mss := c.mss, nqn := (match x with | some y => y.nqn | none => String.ofList []),
    kato := (match x with | some y => y.kato | none => 0), ctrl := if c.qid = 0 then x else none }

/-- Tell the twin a connection's state; a management connection belongs to this device alone (R97). -/
def mirrorConn (idx : Nat) (s : State) : State :=
  match s.host.conns.find? (fun c => c.idx == idx) with
  | some c => if c.mgmt then s else mirror (.transport [.select idx, .openConn (connSt s c)]) s
  | none => s

/-- Raise an asynchronous event at one controller, whose state the twin follows (R96, R150). -/
def raiseAt (kind info id : Nat) (s : State) : State :=
  match s.host.ctrls.find? (fun c => c.id == id) with
  | none => s
  | some c =>
    let r := asyncAt kind info c
    if r.1 = c then s
    else
      let t := { s with host := { s.host with ctrls := updIf (fun x => x.id = id) (fun _ => r.1) s.host.ctrls } }
      match adminConn t id with
      | some k => r.2.foldl (fun u d => sentOn k.idx 24 (emit (.complete k.idx d.1 stOk d.2 0 []) (mirrorPlan k d.1 u))) (mirrorConn k.idx t)
      | none => t

/-- Raise an asynchronous event at every controller (R150). -/
def raiseAsync (kind info : Nat) (s : State) : State := (s.host.ctrls.map (·.id)).foldl (fun t id => raiseAt kind info id t) s

/-! ### Recording events -/

/-- Codes latched for the next start when the cores cannot record them (R660). -/
def carriedCodes : List Nat := [0x6013, 0x4021, 0x6040, 0x6053, 0x8217, 0x8218]

/-- The rate limits in force (R647). -/
def limOf (s : State) : Option LimRec := s.cfg.map (·.lim)

/-- Event 0x0043 once the first-failure area holds its 4 096th copy (R658). -/
def firstFull (before : Nat) (s : State) : State :=
  if before < firstSize ∧ firstSize ≤ s.mor.first.length then
    { s with mor := (occur (limOf s) s.mor s.now (newRec s.now s.ptp.locked 0x0043 5 pathPkg [])).1 }
  else s

/-- Whether a record of severity error or above was admitted, into the buffer or the ring, since number `n` was next (R150). -/
def errorSince (n : Nat) (m : Moraine) : Bool := (m.buffer ++ m.ring).any (fun r => decide (n ≤ r.seq) && decide (4 ≤ r.sev))

/-- Operations of the recorder on the state: event 0x0043 where they fill the first-failure area (R658), and an asynchronous
event where they write a record of severity error or above, whatever brought it; a suppressed or lost occurrence raises none
(R150, R651). -/
def onMor (f : Moraine → Moraine) (s : State) : State :=
  let t := firstFull s.mor.first.length { s with mor := f s.mor }
  if errorSince s.mor.next t.mor then raiseAsync 2 0 t else t

/-- Record an occurrence with a given severity. Without running cores it is latched (R660). -/
def recordAs (code sev pth : Nat) (payload : List Byte) (s : State) : State :=
  let r := newRec s.now s.ptp.locked code sev pth payload
  if running s then onMor (fun m => (occur (limOf s) m s.now r).1) s
  else if carriedCodes.contains code then
    { s with mor := { s.mor with carried := s.mor.carried ++ [{ r with carried := true }] } }
  else { s with mor := { s.mor with phase := s.mor.phase ++ [r] } }

/-- Record an event with the severity its table gives it (R638). -/
def record (code pth : Nat) (payload : List Byte) (s : State) : State := recordAs code (severity code) pth payload s


/-- Record an event that a rule orders and that no table gives a code: the code is a free value (log 13). -/
def recordRule (rule sev pth : Nat) (s : State) : State := recordAs (Config.eventCode rule).toNat sev pth [] s

/-! ### Completions -/

/-- The controller of a connection. -/
def ctrlOf (s : State) (conn : Nat) : Option Ctrl :=
  match s.host.conns.find? (fun c => c.idx = conn) with
  | some c => s.host.ctrls.find? (fun x => x.id = c.cntl)
  | none => none

/-- Change the controller of a connection. -/
def onCtrl (conn : Nat) (f : Ctrl → Ctrl) (s : State) : State :=
  match ctrlOf s conn with
  | some c => { s with host := { s.host with ctrls := updIf (fun x => x.id = c.id) f s.host.ctrls } }
  | none => s

/-- Note a failed command in the Error Information log of its controller: 64 entries, newest first (Table 3.22). -/
def noteError (conn cid ns : Nat) (st : Status) (s : State) : State :=
  if isOk st then s
  else
    let q := match s.host.conns.find? (fun c => c.idx = conn) with | some c => c.qid | none => 0
    onCtrl conn (fun c => { c with
      errCount := c.errCount + 1
      errors := ({ count := c.errCount + 1, qid := q, cid := cid, st := st, ns := ns } :: c.errors).take 64 }) s

/-- Complete a command on its connection; a completion for a lost connection is discarded (R143), and a device that has stopped
serving completes no command of the pair's; its management port goes on (R28, R97, R428). -/
def complete (conn cid ns : Nat) (st : Status) (dw0 dw1 : Nat) (bytes : List Byte) (s : State) : State :=
  match s.host.conns.find? (fun c => c.idx == conn) with
  | some c =>
    if s.start.stoppedServing ∧ ! c.mgmt then s
    else noteError conn cid ns st (sentOn conn (24 + bytes.length) (emit (.complete conn cid st dw0 dw1 bytes) (mirrorPlan c cid s)))
  | none => s

/-- Complete an admin command, success or failure, without data. -/
def done (a : Adm) (st : Status) (s : State) : State := complete a.conn a.cid 0 st 0 0 [] s

/-! ### Milmo sending -/

/-- Steps of the sequence's high-water mark in Firn (R358). -/
def txStep : Nat := 2 ^ 20

/-! ### Key cache (R491) -/

/-- A cipher engine or the GMAC reads a key from the cache, or waits for its derivation. It is the last used one and stands under new
masks from then on; beyond 256 the least recently used one goes (R491, R501). -/
def touchKey (c : Sec) (k : KeyUse) (x : KeyCache) : KeyCache :=
  let n := x.draws
  match x.entries.find? (fun e => e.use == k) with
  | some e => { entries := (⟨k, maskKey (unmask e.key) n⟩ :: x.entries.filter (fun e => e.use != k)).take 256, draws := n + 2 }
  | none => { entries := (⟨k, maskKey (derivedKey c n k) (n + kdfDraws)⟩ :: x.entries.filter (fun e => e.use != k)).take 256
              draws := n + kdfDraws + 2 }

/-- Use of a derived key. -/
def useKey (k : KeyUse) (s : State) : State := { s with keys := touchKey s.sec k s.keys }

/-- A salt, a field generation or a root changed: what was derived from the old one is invalid. -/
def dropKeys (p : KeyUse → Bool) (s : State) : State :=
  { s with keys := { s.keys with entries := s.keys.entries.filter (fun c => ! p c.use) } }

/-- Engines draw fresh mask bits for their round steps (R501). -/
def drawMasks (n : Nat) (s : State) : State := { s with keys := { s.keys with draws := s.keys.draws + n } }

/-- Key that seals a grain (Table 12.3): the grain key of its namespace, the metadata key for metadata and pads, the spill key;
reference grains are not sealed. -/
def grainKey (kind ns : Nat) : Option KeyUse :=
  match kind with
  | 0 | 1 => some ⟨none, 1, ns, 0⟩ | 2 | 3 => some ⟨none, 3, 0, 0⟩ | 4 => some ⟨none, 4, 0, 0⟩ | _ => none

/-- Mask draws of a grain: 258 blocks of text, the hash key and the tag's block (R242, R501). -/
def grainDraws : Nat := 260 * aesDraws

/-- A cipher engine seals or opens a grain of a kind (R491). -/
def useGrainKey (kind ns : Nat) (s : State) : State :=
  { s with keys := match grainKey kind ns with
    | some k => { touchKey s.sec k s.keys with draws := (touchKey s.sec k s.keys).draws + grainDraws }
    | none => s.keys }

/-- The sequences of the datagrams of a body are taken, and the mark in Firn stays above them (R358). -/
def takeTxSeq (b : Body) (i : Ice) : Ice :=
  let n := i.txSeq + gramCount b
  { i with txSeq := n, txMark := if n < i.txMark then i.txMark else i.txMark + txStep }

/-- Send a Milmo body: its datagrams take the next sequences of the device (R358). Only
an ACTIVE or SOLO device sends, or one that is becoming it (R585 step 2), and it is held back like everything that reveals mirrored state. What a pair sends to
its own slot it hands to itself. -/
def milmo (slot queue : Nat) (b : Body) (s : State) : State :=
  if ! (holdsPair s || firstStarting s) then s
  else if s.ice.slot = some slot then { s with ice := { s.ice with mail := s.ice.mail ++ [(slot, b)] } }
  else
    emit (.milmo slot queue (s.ice.txSeq + 1) b) <| useKey (fieldKey s.sec.inUse s.ice.epoch) { s with ice := takeTxSeq b s.ice }

/-- Send one body to several slots. -/
def milmoAll (slots : List Nat) (queue : Nat) (b : Body) (s : State) : State :=
  slots.foldl (fun t x => milmo x queue b t) s

/-! ### Firn journal (R170, R173, R418) -/

/-- Apply the slot writes of a Keyway record to the table: absolute writes, and marks only ever set (R165, R183). -/
def applyWrites (ws : List SlotWrite) (k : Keyway) : Keyway :=
  ws.foldl (fun k w =>
    { k with
      slots := match w.entry with
        | some e => aSet (4 * w.bucket + w.slot) e k.slots
        | none => aDel (4 * w.bucket + w.slot) k.slots
      marks := if w.mark then sIns w.bucket k.marks else k.marks }) k

/-- Same item: identity of R152 with its Store ID and position. -/
def sameItem (ns chunk : Nat) (key : Key) (storeId pos : Nat) (i : Item) : Bool :=
  i.ns == ns && i.chunk == chunk && i.key == key && i.storeId == storeId && i.pos == pos

/-- Parity groups that have a spill superblock in each set: those with a usable die (R266). -/
def spillGroups (s : State) : List Nat := (List.range 256).filter (fun g => groupSize s g != 0)

/-- End record of a spill superblock: flush number, grain count, CRC-32C over the Cornice indices written (R267). -/
def endRecord (number : Nat) (idx : List Nat) : List Byte :=
  le 8 number ++ le 4 idx.length ++ le 4 (crc32c (idx.flatMap (le 4))).toNat

/-- Cornice indices that go to spill superblock `i` of `n`: pages go round the superblocks (R267). -/
def spillShare (per n i : Nat) (idx : List Nat) : List Nat :=
  (idx.zipIdx.filter (fun p => decide (p.2 / max per 1 % max n 1 = i))).map (·.1)

/-- The spill superblocks of a flush (R247, R248, R266): each opened takes the next sequence, its parity member the first at or after the
sequence mod 32. -/
def spillSupers (s : State) (number : Nat) (x : SpillSet) : List SpillSb :=
  let gs := spillGroups s
  gs.zipIdx.map (fun p =>
    let seq := s.media.sbSeq + 1 + p.2
    let ms := (List.range 32).filter (fun q => usableDie s (dieOf p.1 q))
    { seq := seq, group := p.1, parity := (ms.find? (fun q => decide (seq % 32 ≤ q))).getD (ms.headD 0), members := ms
      endRec := endRecord number (spillShare (grainsPerPage (geoOf s)) gs.length p.2 (x.grains.map (·.1))) })

/-- Apply one journal record: each sets a journaled object to its value (R418). -/
def applyJ (r : JRec) (s : State) : State :=
  match r with
  | .kw r => { s with kw := { applyWrites r.writes s.kw with firn := s.kw.firn ++ [r] } }
  | .item i => { s with kw := { s.kw with
      items := putIf (sameItem i.ns i.chunk i.key i.storeId i.pos) i s.kw.items } }
  | .itemDel ns c key sid pos => { s with kw := { s.kw with
      items := s.kw.items.filter (fun i => ! sameItem ns c key sid pos i) } }
  | .co r => { s with ice := { s.ice with recs := putIf (fun x => x.ns == r.ns && x.key == r.key) r s.ice.recs } }
  | .coDel ns key => { s with ice := { s.ice with recs := s.ice.recs.filter (fun x => ! (x.ns == ns && x.key == key)) } }
  | .floor b v => { s with ice := { s.ice with floors := aSet b (max v ((aGet b s.ice.floors).getD 0)) s.ice.floors } }
  | .ledger e => { s with kw := { s.kw with deltas := s.kw.deltas ++ [e] } }
  | .ledgerPurge ns => { s with kw := { s.kw with
      deltas := s.kw.deltas.filter (fun e => e.ns != ns), runs := s.kw.runs.filter (fun r => r.ns != ns) } }
  | .sb r => { s with media := { s.media with
      sbs := if r.state = 0 then s.media.sbs.filter (fun x => x.seq != r.seq) else putIf (fun x => x.seq == r.seq) r s.media.sbs
      sbSeq := max r.seq s.media.sbSeq } }
  | .counter v => { s with media := { s.media with counter := v } }
  | .flush n set c =>
    let up (x : SpillSet) : SpillSet := { x with
      flush := n, complete := c, state := if c then 1 else 0, grains := if c then x.grains else [], supers := if c then spillSupers s n x else [] }
    { s with
      power := { s.power with flushNo := max n s.power.flushNo }
      media := { s.media with
        lastSet := if c then set else s.media.lastSet
        sbSeq := if c then s.media.sbSeq + (spillGroups s).length else s.media.sbSeq
        setA := if set = 0 then up s.media.setA else s.media.setA
        setB := if set = 1 then up s.media.setB else s.media.setB } }
  | .pe d b n => { s with media := { s.media with pe := putIf (fun x => x.1 == d && x.2.1 == b) (d, b, n) s.media.pe } }
  | .bad d b => { s with media := { s.media with bad := if s.media.bad.contains (d, b) then s.media.bad else s.media.bad ++ [(d, b)] } }
  | .drift d g v => { s with media := { s.media with
      drift := putIf (fun x => x.1 == d && x.2.1 == g) (d, g, v % 2 ^ 60, v / 2 ^ 60) s.media.drift } }
  | .salt ns g => dropKeys (fun k => k.gen.isNone && k.ns == ns) { s with sec := { s.sec with salts := aSet ns g s.sec.salts } }
  | .metaMap add gone => { s with media := { s.media with
      flash := add.foldl (fun m p => aSet p.1 p.2 m) (s.media.flash.filter (fun x => ! gone.contains x.1)) } }
  | .incarnation n => { s with ice := { s.ice with inc := n } }
  | .storeIntent i => { s with ice := { s.ice with intents := sIns i s.ice.intents } }
  | .purge ns on => { s with kw := { s.kw with
      purging := if ! on then s.kw.purging.filter (fun p => p.1 != ns)
        else if s.kw.purging.any (fun p => p.1 == ns) then s.kw.purging else s.kw.purging ++ [(ns, 0xFFFFFFFF, 0)] } }

/-- Journal records: the journal sequence advances, each is applied, and they are mirrored in one frame before
anything that depends on them (R170, R417). -/
def journal (rs : List JRec) (s : State) : State :=
  let first := s.kw.jseq + 1
  let t := rs.foldl (fun t r => applyJ r t) s
  mirror (.journal first rs) { t with kw := { t.kw with jseq := s.kw.jseq + rs.length } }

end Sys2Proof.Machine
end

