-- ==== Sys2Proof/Machine/CohOps.lean ====
section
/-! DEFINITION. The coherence protocol as shared operations: the region that owns a line, its directory, its clusters, and what follows
when the regions in service change (R43 to R51, R176, R177, R523). A requester's data is sent by the owner or from memory; a line leaves
its transient state when the requester has it (Table 1.11). -/

namespace Sys2Proof.Machine

/-! ### Regions, owners, memory types (R44, R45, R177) -/

/-- Clusters have the numbers 0 to 31, eight in a region; the engines and DMA channels of die X those from 32 on (log 127). -/
def isCluster (c : Nat) : Bool := decide (c < 32)

/-- Regions that are not quarantined, in ascending order (R177). -/
def healthyRegions (s : State) : List Nat := (List.range 4).filter (fun r => ! regionOut s r)

/-- Owner of a granule: the n-th healthy region, n being the granule modulo their number (R177). -/
def granuleOwner (s : State) (g : Nat) : Option Nat := let h := healthyRegions s; h[g % h.length]?

/-- Lines of a 2 MiB granule (R44). -/
def granuleLines : Nat := 32768

/-- The region that owns a line of coherent memory (R44, R45). -/
def homeOf (s : State) (line : Nat) : Option Nat := granuleOwner s (line / granuleLines)

/-- Memory type of a line, by its granule; one the map does not name is coherent (R44, log 127). -/
def memType (k : Coherence) (line : Nat) : MemType := (aGet (line / granuleLines) k.map).getD .coherent

/-- A requester that holds no copy of the line: an engine or DMA channel, a cluster of another region, or any where the line is not
cacheable (R44, R45). -/
def uncachedAt (s : State) (home : Nat) (line cluster : Nat) : Bool :=
  ! isCluster cluster || decide (cluster / 8 ≠ home) || memType s.coh line != .coherent

/-! ### Lookups -/

/-- Directory entry of a line; a line without one is held by no cluster. -/
def dirOf (k : Coherence) (line : Nat) : DirLine := (k.dir.find? (fun d => d.line == line)).getD ⟨4, line, none, [], none⟩

/-- Store a directory entry; an entry that says nothing is dropped. -/
def setDir (d : DirLine) (k : Coherence) : Coherence :=
  if d.owner.isNone ∧ d.sharers.isEmpty ∧ d.txn.isNone then { k with dir := k.dir.filter (fun x => x.line != d.line) }
  else { k with dir := putIf (fun x => x.line == d.line) d k.dir }

/-- The words of a line that nothing has written: the zeros of the fill (R519). -/
def zeroLine : List (Word × Bool) := List.replicate 8 (0#64, false)

/-- Words of a line in memory. -/
def lineMem (k : Coherence) (line : Nat) : List (Word × Bool) := (aGet line k.mem).getD zeroLine

/-- The line as a cluster holds it. -/
def clusterLine (k : Coherence) (c : Coh) : Option CLine := k.lines.find? (fun x => x.cluster == c.cluster && x.line == c.line)

/-- Hold a line at a cluster. -/
def putLine (x : CLine) (k : Coherence) : Coherence :=
  { k with lines := putIf (fun y => y.cluster == x.cluster && y.line == x.line) x k.lines }

/-- A cluster holds the line no more, nor do the L1 caches of its cores (R43). -/
def dropLine (c : Coh) (k : Coherence) : Coherence :=
  { k with lines := k.lines.filter (fun x => ! (x.cluster == c.cluster && x.line == c.line)) }

/-- Whether the cluster holds the line in its eviction buffer (R48). -/
def evictingAt (k : Coherence) (c : Coh) : Bool := match clusterLine k c with | some l => l.evicting | none => false

/-- A line that is held goes into the eviction buffer, out of the L1 caches (R43, R48). -/
def evictLine (c : Coh) (k : Coherence) : Coherence :=
  match clusterLine k c with
  | some x => putLine { x with state := .i, evicting := true, l1 := [] } k
  | none => k

/-- Work on the coherence state. -/
def onCoh (f : Coherence → Coherence) (s : State) : State := { s with coh := f s.coh }

/-- Send a coherence message. -/
def sendCoh (kind : String) (region cluster line : Nat) (ws : List (Word × Bool)) (s : State) : State :=
  emitNow (.coh kind region cluster line ws) s

/-! ### Words (R45, R523, R524) -/

/-- Whole words of the bytes of one transfer, assembled across its segments, the rest of the last word zeros (R523). -/
def wordsOf : Nat → List Byte → List (Word × Bool)
  | 0, _ => []
  | n + 1, bs => if bs.isEmpty then [] else (BitVec.ofNat 64 (ofLe (bs.take 8)), false) :: wordsOf n (bs.drop 8)

def assembleWords (segs : List (List Byte)) : List (Word × Bool) := wordsOf (ceilDiv segs.flatten.length 8) segs.flatten

/-- Words written from the word `first` of a line on: they replace what stood there, good or bad, and no other word is read or changed
(R45, R523, R524). -/
def mergeWords (old : List (Word × Bool)) (first : Nat) (ws : List (Word × Bool)) : List (Word × Bool) :=
  (List.range 8).map (fun i => if first ≤ i ∧ i < first + ws.length then ws[i - first]?.getD (0#64, false) else old[i]?.getD (0#64, false))

/-- Write a line to memory; a line of zeros is not listed. -/
def writeLine (line : Nat) (ws : List (Word × Bool)) (s : State) : State :=
  onCoh (fun k => { k with mem := if ws = zeroLine then aDel line k.mem else aSet line ws k.mem }) s

/-- Write words of a line to memory. -/
def writeWords (line first : Nat) (ws : List (Word × Bool)) (s : State) : State := writeLine line (mergeWords (lineMem s.coh line) first ws) s

/-! ### The directory -/

/-- An access without a copy completes: a read with the words of memory, a write with its words in memory (R44, R45). -/
def completeUncached (home line : Nat) (r : CReq) (s : State) : State :=
  if r.kind = 5 then sendCoh "PutAck" home r.cluster line [] (writeWords line r.first r.ws s)
  else sendCoh "Data" home r.cluster line (lineMem s.coh line) s

/-- Send the requester its data, exclusive for ownership; the line stays transient until it arrives. -/
def sendData (home line : Nat) (ws : List (Word × Bool)) (t : CTxn) (s : State) : State :=
  let d := dirOf s.coh line
  let excl := t.req.kind != 0 || d.sharers.isEmpty && d.owner.isNone && t.waits.isEmpty && ! t.dataDue
  sendCoh (if excl then "DataExcl" else "Data") home t.req.cluster line ws
    (onCoh (setDir { d with region := home, txn := some { t with dataDue := true } }) s)

/-- The message that has an owner give up or share its line for a request. -/
def forwardFor (kind : Nat) : String := if kind = 0 then "FwdGetS" else if kind = 1 ∨ kind = 2 then "FwdGetM" else "Recall"

/-- Serve a request whose line is in no transient state (R43, R45): forward to the owner or recall from it, invalidate the sharers, or
answer from memory. A read without a copy leaves clean copies where they are. -/
def serveReq (home line : Nat) (r : CReq) (s : State) : State :=
  let d := { dirOf s.coh line with region := home }
  let others := d.sharers.filter (· != r.cluster)
  match d.owner with
  | some o =>
    if o = r.cluster then s
    else sendCoh (forwardFor r.kind) home o line [] (onCoh (setDir { d with txn := some ⟨r, [o], [], [], false⟩ }) s)
  | none =>
    if r.kind = 4 then completeUncached home line r s
    else if r.kind = 0 ∨ others.isEmpty then
      if r.kind = 5 then completeUncached home line r s else sendData home line (lineMem s.coh line) ⟨r, [], [], [], false⟩ s
    else
      others.foldl (fun s o => sendCoh "Inv" home o line [] s) (onCoh (setDir { d with txn := some ⟨r, others, [], [], false⟩ }) s)

/-- The snoop to cluster `c` is answered by data or by its absence: with no answer outstanding the pending request is served. `ws` is the
data, none for a clean Put or an acknowledgement (R49, R50). -/
def answered (home line c : Nat) (t : CTxn) (ws : Option (List (Word × Bool))) (s : State) : State :=
  let d := dirOf s.coh line
  let t' : CTxn := { t with waits := t.waits.filter (· != c), crossed := t.crossed.filter (· != c), put := t.put.filter (fun p => p.1 != c) }
  let wasOwner := d.owner = some c
  let d' : DirLine := { d with owner := if wasOwner then none else d.owner, sharers := d.sharers.filter (· != c), txn := some t' }
  let toOwnership := wasOwner && (t.req.kind == 1 || t.req.kind == 2)
  let s1 := onCoh (setDir d') s
  let s2 := match ws with
    | some w => if toOwnership then s1 else writeLine line w s1
    | none => s1
  if ! t'.waits.isEmpty then s2
  else if 3 ≤ t.req.kind then
    let s3 := onCoh (setDir { d' with txn := none }) s2
    if t.req.kind = 3 then s3 else completeUncached home line t.req s3
  else
    let w := match ws with | some w => w | none => lineMem s2.coh line
    sendCoh (if t.req.kind = 0 then "Data" else "DataExcl") home t.req.cluster line w
      (onCoh (setDir { d' with txn := some { t' with dataDue := true } }) s2)

/-- A Put reaches the directory: after CrossedEvict it serves the pending request, before it the directory keeps it as
the snoop's answer, and without a snoop it is written back (R49, R50). -/
def putArrives (home line cluster : Nat) (ws : Option (List (Word × Bool))) (s : State) : State :=
  let s0 := onCoh (evictLine ⟨cluster, line⟩) s
  let d := dirOf s0.coh line
  match d.txn with
  | some t =>
    if t.waits.contains cluster then
      if t.crossed.contains cluster then sendCoh "PutAck" home cluster line [] (answered home line cluster t ws s0)
      else onCoh (setDir { d with txn := some { t with put := t.put ++ [(cluster, ws)] } }) s0
    else sendCoh "PutAck" home cluster line [] s0
  | none =>
    let s1 := match ws with
      | some w => if d.owner = some cluster then writeLine line w s0 else s0
      | none => s0
    sendCoh "PutAck" home cluster line [] (onCoh (setDir { d with
      owner := if d.owner = some cluster then none else d.owner
      sharers := d.sharers.filter (· != cluster) }) s1)

/-- The requester has its line: the directory records its holders and the line leaves the transient state. -/
def finishTxn (line : Nat) (s : State) : State :=
  let d := dirOf s.coh line
  match d.txn with
  | some t =>
    if t.dataDue ∧ t.waits.isEmpty then
      let excl : Bool := match clusterLine s.coh ⟨t.req.cluster, line⟩ with | some l => l.state == .e | none => false
      let sole := d.owner.isNone && d.sharers.isEmpty && t.put.isEmpty
      onCoh (setDir (if t.req.kind = 0 ∧ ¬ (sole ∧ excl) then { d with owner := none, sharers := sIns t.req.cluster d.sharers, txn := none }
        else { d with owner := some t.req.cluster, sharers := [], txn := none })) s
    else s
  | none => s

/-! ### Request channels (R46, R47) -/

/-- Places of the directory's room that a region's waiting requests take. -/
def roomUsed (k : Coherence) (home : Nat) : Nat := (k.room.filter (fun x => x.1 == home)).length

/-- A request meets a transient line, or others that wait for the line. -/
def mustQueue (k : Coherence) (line : Nat) : Bool := (dirOf k line).txn.isSome || k.room.any (fun q => q.2.1 == line)

/-- A request at the head of its channel is taken: a Put at once, another where its line is in no transient state, else into the room of
256; none where the room is full (R47). -/
def takeReq (home line : Nat) (r : CReq) (s : State) : Option State :=
  if r.kind = 6 then some (putArrives home line r.cluster (some r.ws) s)
  else if r.kind = 7 then some (putArrives home line r.cluster none s)
  else if ! mustQueue s.coh line then some (serveReq home line r s)
  else if roomUsed s.coh home < 256 then some (onCoh (fun k => { k with room := k.room ++ [(home, line, r)] }) s)
  else none

/-- Requests that waited for a line that is transient no more, in arrival order (R47). -/
def wakeLine : Nat → Nat → State → State
  | 0, _, s => s
  | n + 1, line, s =>
    if (dirOf s.coh line).txn.isSome then s
    else match s.coh.room.find? (fun q => q.2.1 == line) with
      | some q => wakeLine n line (serveReq q.1 line q.2.2 (onCoh (fun k => { k with room := k.room.erase q }) s))
      | none => s

/-- Requests at the heads of the cluster ports: the first of each cluster, in arrival order. -/
def portHeads : List Nat → List (Nat × CReq) → List (Nat × CReq)
  | _, [] => []
  | seen, p :: r => if seen.contains p.2.cluster then portHeads seen r else p :: portHeads (p.2.cluster :: seen) r

/-- The first request at a port's head that can be taken now, with the state after it. -/
def takeHead (s : State) (ps : List (Nat × CReq)) : Option State :=
  ps.findSome? (fun p => match homeOf s p.1 with
    | some h => (takeReq h p.1 p.2 (onCoh (fun k => { k with ports := k.ports.erase p }) s)).map (wakeLine (s.coh.room.length + 1) p.1)
    | none => none)

/-- Back-pressured ports move on while a request at the head of one can be taken (R47). -/
def drainPorts : Nat → State → State
  | 0, s => s
  | n + 1, s => match takeHead s (portHeads [] s.coh.ports) with
    | some t => drainPorts n t
    | none => s

/-- After a change at a line: those that waited for it are served, and the ports move on. -/
def wake (line : Nat) (s : State) : State :=
  let t := wakeLine (s.coh.room.length + 1) line s
  if t.coh.ports.isEmpty then t else drainPorts (t.coh.ports.length + 1) t

/-- A request as the directory sees it: one whose requester keeps no copy is an access without a copy, a read for ownership included. -/
def asSeen (s : State) (home line : Nat) (r : CReq) : CReq :=
  if uncachedAt s home line r.cluster then
    { r with kind := if r.kind = 6 then 5 else if r.kind = 7 then 7 else 4 }
  else r

/-- A request reaches the directory over its cluster's request channel, behind those of the cluster that are held at the port (R46, R47). -/
def request (home line : Nat) (r0 : CReq) (s : State) : State :=
  let r := asSeen s home line r0
  let hold := onCoh (fun k => { k with ports := k.ports ++ [(line, r)] }) s
  if s.coh.ports.any (fun p => p.2.cluster == r.cluster) then hold
  else match takeReq home line r s with
    | some t => t
    | none => hold

/-! ### Regions in service change (R45, R177) -/

/-- A line that has come to another owner leaves its old directory: the words of its owner go to memory where that region is in service,
every copy is dropped, and what waited for it is asked again of the new owner in arrival order, save for clusters of a region out of
service. -/
def rehomeLine (s : State) (d : DirLine) : State :=
  let line := d.line
  let reqs := (match d.txn with | some t => if t.req.kind = 3 then [] else [t.req] | none => [])
    ++ (s.coh.room.filter (fun q => q.2.1 == line)).map (fun q => q.2.2)
  let live := reqs.filter (fun r => ! isCluster r.cluster || ! regionOut s (r.cluster / 8))
  let held := d.owner.bind (fun o => clusterLine s.coh ⟨o, line⟩)
  let a := match held with
    | some x => if regionOut s d.region ∨ x.state = .s then s else writeLine line x.ws s
    | none => s
  let b := onCoh (fun k => { k with
    dir := k.dir.filter (fun x => x.line != line), lines := k.lines.filter (fun x => x.line != line)
    room := k.room.filter (fun q => q.2.1 != line) }) a
  match homeOf b line with
  | some h => live.foldl (fun t r => request h line r t) b
  | none => b

/-- The number of regions in service has changed: each line whose owner is another now is handed over, and a region out of service has
no copies left (R45, R177). -/
def rehome (s : State) : State :=
  let moved := s.coh.dir.filter (fun d => homeOf s d.line != some d.region)
  let a := moved.foldl rehomeLine s
  onCoh (fun k => { k with ports := k.ports.filter (fun p => ! (isCluster p.2.cluster && regionOut s (p.2.cluster / 8))) }) a

/-- A cluster out of service holds nothing and asks for nothing: what a snoop to it waits for is answered from memory (R25, R43). -/
def leaveLine (x : Nat) (s : State) (line : Nat) : State :=
  let d := dirOf s.coh line
  match d.txn with
  | some t =>
    if t.waits.contains x then answered d.region line x t none s
    else if t.req.cluster = x ∧ t.req.kind ≠ 3 then onCoh (setDir { d with txn := none, owner := if d.owner = some x then none else d.owner }) s
    else onCoh (setDir { d with owner := (if d.owner = some x then none else d.owner), sharers := d.sharers.filter (· != x) }) s
  | none => onCoh (setDir { d with owner := (if d.owner = some x then none else d.owner), sharers := d.sharers.filter (· != x) }) s

def dropCluster (x : Nat) (s : State) : State :=
  let a := onCoh (fun k => { k with
    lines := k.lines.filter (fun l => l.cluster != x), room := k.room.filter (fun q => q.2.2.cluster != x)
    ports := k.ports.filter (fun p => p.2.cluster != x) }) s
  (s.coh.dir.map (·.line)).foldl (fun t l => wake l (leaveLine x t l)) a

end Sys2Proof.Machine
end

