-- ==== Sys2Proof/Machine/Hold.lean ====
section
/-! DEFINITION. Hold, beat, link sessions and the takeover as shared operations of the twin (chapter 10): every family
that gives up hold, reaches for the buses, loses its STANDBY or takes over calls these. -/

namespace Sys2Proof.Machine

/-! ### Status (R414, Table 10.16) -/

/-- Hold state: 0 not holding, 1 acquiring, 2 holding (R414). -/
def holdState (s : State) : Nat := if s.keeper.holdOut then (if s.keeper.drivers then 2 else 1) else 0

/-- MACs M0 to M15 that are up. -/
def macsUp (s : State) : List Nat := (s.net.macs.filter (fun m => m.up && decide (m.idx < 16))).map (·.idx)

/-- The Status body of this device; the hold state comes from the keeper and A_dev from the Gauge (R414). -/
def myStatus (s : State) : StatusB :=
  { hold := holdState s, role := s.twin.roleState, trial := s.boot.trial, width := s.twin.width,
    healthy := s.twin.healthy, gauge := s.gauge.passed, flush := s.power.flush.isSome,
    shutdown := inShutdown s, macs := macsUp s, aDev := s.gauge.aDev }

/-- Send a Status frame (R414). -/
def sendStatus (s : State) : State :=
  sendFrame (.status (myStatus s)) { s with twin := { s.twin with statusSent := s.now } }

/-! ### Hold (R401 to R407) -/

/-- The gate of R401: HOLD_OUT driven, and HOLD_IN low for at least 1 µs. -/
def gateOpen (s : State) : Bool := s.keeper.holdOut && ! s.keeper.holdIn && decide (s.keeper.holdInAt + 1000 ≤ s.now)

/-- Drivers and terminations follow the gate (R235, R401). -/
def applyGate (s : State) : State := { s with keeper := { s.keeper with drivers := gateOpen s, terms := gateOpen s } }

/-- A change of the hold state goes out in a Status frame at once (R414). -/
def noteHold (old : State) (s : State) : State := if holdState s = holdState old then s else sendStatus s

/-- The gate is followed, and a change of the hold state is sent (R401, R414). -/
def followGate (s : State) : State := noteHold s (applyGate s)

/-- Drive HOLD_OUT: the release beat ends and the beat is normal (R405); the drivers enable when the gate allows. -/
def driveHold (s : State) : State :=
  sendStatus (applyGate { s with keeper := { s.keeper with
    holdOut := true, beatWas := s.keeper.beatOut, beatOut := .normal, beatOutAt := s.now } })

/-- Give up hold in the order of R402: the service MAC and addresses stop and the frames queued for them are discarded, the drivers disable,
HOLD_OUT is released, the beat becomes the release beat; the Status frame goes at once (R414). -/
def releaseHold (s : State) : State :=
  sendStatus
    { s with
      start := { s.start with service := false }
      net := { s.net with macs := s.net.macs.map (fun m => { m with txq := m.txq.filter (fun x => ! servesPair s m.idx x.o) }) }
      keeper := { s.keeper with drivers := false, terms := false, holdOut := false, beatOut := .release, beatOutAt := s.now } }

/-! ### Losing and regaining the STANDBY (R84, R419, R423) -/

/-- Acknowledgement level D1 is raised to D2, or restored: event 0x4042 at each change (R84). -/
def setRaised (b : Bool) (cond : Nat) (s : State) : State :=
  if s.twin.raised = b then s
  else record 0x4042 pathTwin (le 1 (if b then 1 else 0) ++ le 1 cond) { s with twin := { s.twin with raised := b } }

/-- A planned takeover that a host asked for fails when the STANDBY is no longer healthy (R442); what the device's own one does then
follows from its reason. -/
def abandonPlanned (s : State) : State :=
  match s.twin.planned with
  | some (_, conn, cid) =>
    if (s.host.conns.find? (fun c => c.idx == conn)).isSome then
      complete conn cid 0 stInvalidField 0 0 [] { s with twin := { s.twin with planned := none, closedDoor := false } }
    else { s with twin := { s.twin with closedDoor := false } }
  | none => s

/-- The twin-configured ACTIVE ceases to treat its STANDBY as healthy: event 0x4040 with the condition of Table 10.9,
everything held back is released, D1 is raised to D2, and critical warning bit 2 sets (R419, R423, R84, R150). -/
def loseStandby (cond : Nat) (s : State) : State :=
  if s.twin.roleState = .active ∧ s.twin.healthy then
    abandonPlanned (raiseAsync 0 2 (setRaised true cond (releaseAll (record 0x4040 pathTwin (le 1 cond) { s with twin := { s.twin with healthy := false } }))))
  else s

/-- Conditions of Table 10.9 that the ACTIVE watches. -/
def activeSees (s : State) : Bool :=
  s.twin.session && s.twin.linkUp && decide (4 ≤ s.twin.width) && ! s.twin.ackMissed && s.keeper.beatIn == .normal &&
  match s.twin.report with
  | some r => decide (s.now ≤ s.twin.reportAt + 100000) && r.criterion == 0 && r.j3 && r.width4 && r.gauge && r.trained
  | none => false

/-- Conditions of Table 10.9 that the STANDBY watches. -/
def standbySees (s : State) : Bool :=
  s.twin.session && s.twin.linkUp && decide (4 ≤ s.twin.width) && decide (s.twin.joinStage = 3) && s.gauge.passed &&
  s.twin.readTrained && decide (s.twin.criterion = 0)

/-- SMART critical warning bits of Table 3.23, with the quarantine of regions given by the caller's part. -/
def standbyWarning (s : State) : Bool := twinConfigured s && s.twin.roleState == .active && ! s.twin.healthy

/-- An ACTIVE that sees every condition of Table 10.9 holds a healthy STANDBY again; D1 is D1 again (R423, R84). -/
def gainStandby (s : State) : State :=
  if s.twin.roleState = .active ∧ ! s.twin.healthy ∧ activeSees s then
    setRaised false 0 { s with twin := { s.twin with healthy := true } }
  else s

/-- A STANDBY whose own conditions all hold becomes healthy and records 0x4041; it is then serving (R424, R590). -/
def becomeHealthy (s : State) : State :=
  if s.twin.roleState = .standby ∧ ! s.twin.healthy ∧ standbySees s then
    let t := record 0x4041 pathTwin (s.twin.joinTimes.flatMap (le 8)) { s with twin := { s.twin with healthy := true } }
    if t.start.serving then t
    else record 0x0012 pathPkg (le 1 2 ++ t.twin.joinTimes.flatMap (le 8))
      { t with start := { t.start with serving := true, servingBy := none } }
  else s

/-- A STANDBY whose conditions no longer hold is not healthy. -/
def loseHealth (s : State) : State :=
  if s.twin.roleState = .standby ∧ ¬ standbySees s then { s with twin := { s.twin with healthy := false } } else s

/-! ### Link sessions (R413, R425) -/

/-- A link session ends: nothing is acknowledged any more, the ACTIVE has no healthy STANDBY, and a STANDBY's journal
ceases to be complete and its join starts again from J1 (R413, R425, R419). -/
def endSession (s : State) : State :=
  let t := loseStandby 1 s
  { t with twin := { t.twin with
      session := false, unacked := [], txSeq := 1, rxSeq := 0, helloSent := false, twinHello := none, status := none,
      report := none, joinStage := 0, joinUnits := 0,
      healthy := false
      complete := if t.twin.roleState = .standby then false else t.twin.complete } }

/-- The link is down: event 0x4031 with a cause (R410, R441). -/
def linkDownNow (cause : Nat) (s : State) : State :=
  endSession (record 0x4031 pathHinge (le 1 cause)
    { s with twin := { s.twin with linkUp := false, width := 0, trainSince := none } })

/-- Mirrored Journal frames and the rest are applied in frame order: note the frame received (R412, R418). -/
def gotFrame (fseq : Nat) (s : State) : State := { s with twin := { s.twin with rxSeq := max s.twin.rxSeq fseq } }

/-- A STANDBY acknowledges what it holds (R418, Table 10.19). -/
def ackFrames (s : State) : State :=
  if s.twin.roleState = .standby then
    sendFrame (.mirrorAck s.twin.rxSeq s.twin.applied) { s with twin := { s.twin with held := s.twin.rxSeq } }
  else s

/-! ### Self-diagnosis (R427, Table 10.10) -/

/-- A critical-path deadline miss (Table 10.10 row 4): it counts whether or not its record is suppressed (R651). -/
def criticalMiss (s : State) : State := { s with twin := { s.twin with misses := s.twin.misses ++ [s.now] } }

/-- Misses within the window of the Hinge record. -/
def missesInWindow (s : State) : Nat :=
  let w := match s.cfg with | some c => c.hinge.windowMs | none => 1
  (s.twin.misses.filter (fun t => decide (s.now < t + w * 1000000))).length

/-- Misses beyond the configured rate (Table 10.10 row 4; default more than 4 in 1 ms). -/
def missesExceeded (s : State) : Bool :=
  let n := match s.cfg with | some c => c.hinge.missLimit | none => 4
  decide (n < missesInWindow s)

/-- A restart the keeper begins by another rule: the warm start follows (Table 15.1). -/
def dueWarm (c : WarmCause) (s : State) : State := { s with keeper := { s.keeper with warmDue := some c } }

end Sys2Proof.Machine
end

