-- ==== Sys2Proof/Machine/LinkFamily.lean ====
section
/-! DEFINITION. The commands of the hinge link: lanes and training, flits and replay, Status and Health Report timers
(R410 to R414, R419, R423, R441). -/

namespace Sys2Proof.Machine

/-- The widest group whose lanes are all healthy: 16, 8, 4 lanes, or 0 (R410). -/
def widest (retired : List Nat) : Nat :=
  let free (a n : Nat) : Bool := (List.range n).all (fun i => ! retired.contains (a + i))
  if free 0 16 then 16
  else if free 0 8 || free 8 8 then 8
  else if free 0 4 || free 4 4 || free 8 4 || free 12 4 then 4
  else 0

/-- A hinge lane is retired and the link retrains to the widest remaining group (R410). -/
def retireHingeLane (lane : Nat) (s : State) : State :=
  let r := sIns lane s.twin.retired
  let w := widest r
  let t := record 0x4030 (pathX 0x32 lane) (le 1 lane ++ le 1 w)
    { s with twin := { s.twin with retired := r, width := w, trainSince := some s.now } }
  if w = 0 then linkDownNow 1 t else t

/-- LINK_LANE_FAIL (R410): the lane is retired until the next start, both devices retrain to the widest remaining group,
0x4030 is recorded; without a 4-lane group the link is down. -/
def execLinkLaneFail (lane : Nat) (s : State) : Result :=
  onlyIf (running s && s.twin.linkUp && decide (lane < 16) && ! s.twin.retired.contains lane) (retireHingeLane lane) s

/-- What an ACTIVE does when retraining ends in a down link: a criterion that arose meanwhile is acted on at once
(R419, R428); without a healthy STANDBY it goes on degraded. -/
def withheld (reason : Nat) (s : State) : State :=
  if s.twin.roleState = .active ∧ s.twin.criterion ≠ 0 then
    record 0x4022 pathTwin (le 1 s.twin.criterion ++ le 1 reason) s
  else s

/-- LINK_RETRAIN_TIMEOUT (R410): retraining beyond 500 µs, or with no 4-lane group, leaves the link down. -/
def execLinkRetrainTimeout (s : State) : Result :=
  match s.twin.trainSince with
  | some t =>
    onlyIf (running s && (decide (t + 500000 < s.now) || widest s.twin.retired == 0)) (fun s =>
      if s.twin.linkUp then withheld 1 (linkDownNow 2 s)
      else { s with twin := { s.twin with trainSince := none } }) s
  | none => .next s

/-- LINK_RETRAIN_RETRY (R441): every 1 s a STANDBY, or a device that waits for its twin (R426), retrains a link that is down, while
HREFCLK runs. -/
def execLinkRetrainRetry (s : State) : Result :=
  onlyIf (running s && ! holdsPair s && twinConfigured s && ! s.twin.linkUp && s.twin.trainSince.isNone &&
      ! s.pace.clocksLost.contains 1 && decide (s.twin.triedAt + 1000000000 ≤ s.now)) (fun s =>
    { s with twin := { s.twin with trainSince := some s.now, triedAt := s.now } }) s

/-- A flit is in order when it is the one after the last good flit (R412). -/
def inOrder (s : State) (seq : Nat) : Bool := seq == (s.twin.flitRx + 1) % 65536

/-- Flits up to an acknowledged sequence leave the replay buffer. -/
def ackFlits (ack : Nat) (t : Twin) : Twin :=
  if t.replay.any (fun x => x.1 == ack) then
    pumpFlits { t with flitAcked := ack, replays := 0, replay := (t.replay.dropWhile (fun x => x.1 != ack)).drop 1 }
  else t

/-- A flit without data goes out: idle or a replay request, with the acknowledged sequence and the credits of the data flits taken since,
in units of 8 flits (Table 10.2, R412). -/
def sendFlit (kind : Nat) (s : State) : State :=
  let n := min 255 (s.twin.rxFree / 8)
  emitNow (.flitBytes (flitBytes 0 s.twin.flitRx kind n Flit.none_)) (emitNow (.flit kind s.twin.flitRx 0)
    { s with twin := { s.twin with rxFree := s.twin.rxFree - 8 * n } })

/-- FLIT_RECEIVE (R412): a bad CRC or a data flit out of sequence is discarded and a replay request with the last good
sequence goes out; any good flit carries an acknowledgement and credits; an undefined kind is invalid (R18). -/
def execFlitReceive (seq ack kind credits : Nat) (crcOk : Bool) (s : State) : Result :=
  onlyIf (s.twin.linkUp) (fun s =>
    if ! crcOk then sendFlit 2 s
    else if 3 < kind then s
    else
      let t := { s with twin := ackFlits ack (pumpFlits { s.twin with credits := min 16384 (s.twin.credits + 8 * credits) }) }
      if kind = 1 then (if inOrder s seq then { t with twin := { t.twin with flitRx := seq, rxFree := t.twin.rxFree + 1 } } else sendFlit 2 t)
      else t) s

/-- Data flits of the replay buffer from a sequence on. -/
def flitsFrom (seq : Nat) (t : Twin) : List (Nat × Flit) := t.replay.dropWhile (fun x => x.1 != seq)

/-- REPLAY_REQUEST (R412): data flits are resent from the one after the last good sequence. -/
def execReplayRequest (lastGood : Nat) (s : State) : Result :=
  onlyIf (s.twin.linkUp) (fun s =>
    let t := { s with twin := { ackFlits lastGood s.twin with replays := s.twin.replays + 1 } }
    let from_ := (lastGood + 1) % 65536
    emitNow (.flitBytes ((flitsFrom from_ t.twin).flatMap (fun x => flitBytes x.1 t.twin.flitRx 1 0 x.2))) (emitNow (.flit 1 t.twin.flitRx from_) t)) s

/-- IDLE_FLIT_TIMER (R412): at least one flit every 200 ns carries the acknowledged sequence. -/
def execIdleFlitTimer (s : State) : Result :=
  onlyIf (s.twin.linkUp && decide (s.twin.flitAt + 200 ≤ s.now)) (fun s =>
    sendFlit 0 { s with twin := { s.twin with flitAt := s.now } }) s

/-- HINGE_STATUS_TIMER (R414): a Status frame every 2 µs. -/
def execHingeStatusTimer (s : State) : Result :=
  onlyIf (s.twin.session && decide (s.twin.statusSent + 2000 ≤ s.now)) sendStatus s

/-- The STANDBY's Health Report (Table 10.17). -/
def myReport (s : State) : HealthB :=
  { criterion := s.twin.criterion, j3 := s.twin.joinStage == 3, width4 := decide (4 ≤ s.twin.width),
    gauge := s.gauge.passed, trained := s.twin.readTrained, macs := macsUp s, regions := s.mem.qRegions, time := s.now,
    misses := missesInWindow s }

/-- HEALTH_REPORT_TIMER (R423): the STANDBY sends a Health Report every 50 µs. -/
def execHealthReportTimer (s : State) : Result :=
  onlyIf (running s && s.twin.session && s.twin.roleState == .standby && decide (s.twin.reportSent + 50000 ≤ s.now)) (fun s =>
    sendFrame (.health (myReport s)) { s with twin := { s.twin with reportSent := s.now } }) s

/-- HEALTH_REPORT_TIMEOUT (R423, R419): a last Health Report older than 100 µs, while the link is not retraining, makes
the STANDBY unhealthy. -/
def execHealthReportTimeout (s : State) : Result :=
  onlyIf (running s && s.twin.trainSince.isNone && decide (s.twin.reportAt + 100000 < s.now)) (loseStandby 5) s

/-- MIRROR_ACK (R417, Table 10.19): frames up to the one held are acknowledged and what they held back goes out; a program or erase
among it is confirmed now (R422). -/
def ackedUpTo (held : Nat) (s : State) : State :=
  (s.held.filter (fun h => decide (h.1 ≤ held))).foldl (fun t h => confirmOut h.2 t)
    (releaseUpTo held { s with twin := { s.twin with unacked := s.twin.unacked.filter (fun u => decide (held < u.1)) } })

/-- MIRROR_ACK_DEADLINE (R419): a frame unacknowledged for 100 µs, while the link is not retraining, records 0x9421,
the STANDBY is not healthy, everything held back is released and Join Stage 0 goes out. -/
def execMirrorAckDeadline (s : State) : Result :=
  match s.twin.unacked.head? with
  | some (f, ty, t) =>
    onlyIf (running s && s.twin.roleState == .active && s.twin.trainSince.isNone && decide (t + 100000 < s.now)) (fun s =>
      let a := criticalMiss (record 0x9421 (pathMonitor 0) (le 8 f ++ le 1 ty) s)
      let b := releaseAll (loseStandby 3 a)
      sendFrame (.joinStage 0 0)
        { b with twin := { b.twin with ackMissed := true, unacked := [], joinStage := 0 } }) s
  | none => .next s

end Sys2Proof.Machine
end

