-- ==== Sys2Proof/Machine/Codeword.lean ====
section
/-! DEFINITION. Grains as codewords and program units as encoded pages (R241 to R246, R250, R252, R493, R495), and the cipher engines that
seal them. -/

namespace Sys2Proof.Machine

/-! ### A grain's codeword (Tables 6.4 and 6.5) -/

/-- Metadata bytes 16 to 75, the additional authenticated data (R242, Table 6.5). -/
def grainAad (g : FGrain) : List Byte :=
  le 4 g.fp ++ le 8 g.counter ++ le 4 g.index ++ le 2 g.ns ++ le 2 g.chunk ++ le 8 g.version ++ le 4 g.len ++ le 2 g.dataGrains ++
    le 1 g.key.length ++ le 1 g.kind ++ le 1 g.pos ++ le 1 g.k ++ le 1 g.m ++ le 1 (bit g.lead 0 + bit g.replica 1 + bit g.zext 2) ++
    le 8 g.sbSeq ++ le 12 0

/-- Key field: key bytes 0 to 15 in a lead grain, zeros in every other one. -/
def keyField (g : FGrain) : List Byte := if g.lead then padTo 16 g.key else le 16 0

/-- CRC-32C of the 4 096 payload bytes. -/
def grainCrc (g : FGrain) : Nat := (crc32c (padTo 4096 g.data)).toNat

/-- The 4 116 bytes that are sealed: payload, CRC, key field (R242). -/
def grainText (g : FGrain) : List Byte := padTo 4096 g.data ++ le 4 (grainCrc g) ++ keyField g

/-- IV: the version counter and the grain index as the metadata stores them (R244, R493). -/
def grainIv (g : FGrain) : List Byte := le 8 g.counter ++ le 4 g.index

/-- Key that seals a grain: that of its kind, the ledger key of the namespace for a grain of a ledger run (Table 12.3). -/
def grainUse (g : FGrain) : Option KeyUse :=
  match g.owner with
  | some (.run ns _) => some ⟨none, 2, ns, 0⟩
  | _ => grainKey g.kind g.ns

/-- A grain sealed with a key: ciphertext of 4 116 bytes and tag; a reference grain is not sealed and its tag is zero (R242, R489). -/
def sealGrain (key : Masked) (n : Nat) (g : FGrain) : List Byte × List Byte :=
  match grainUse g with
  | some _ => gcmSeal key n (grainIv g) (grainAad g) (grainText g)
  | none => (grainText g, le 16 0)

/-- The codeword of a grain: ciphertext, metadata with the tag, LDPC parity over both (Table 6.4). -/
def codeword (key : Masked) (n : Nat) (g : FGrain) : List Byte :=
  let x := sealGrain key n g
  let b := x.1 ++ x.2 ++ grainAad g
  b ++ (Config.ldpcParity b).toList

/-- Bytes of a codeword. -/
def codewordLen : Nat := 4526

/-! ### Program units on the bus (R241, R249, R250, R252) -/

/-- Key of a grain at this moment, as the cache or a derivation gives it. -/
def keyFor (s : State) (n : Nat) (g : FGrain) : Masked :=
  match grainUse g with
  | some k => match s.keys.entries.find? (fun c => c.use == k) with | some c => c.key | none => maskKey (derivedKey s.sec n k) n
  | none => ⟨[], []⟩

/-- A pad grain: it fills a slot of a unit that no item filled, sealed with the metadata key (R250, Table 12.3). -/
def padGrain (counter : Nat) : FGrain := { kind := 3, counter := counter, index := 0, data := [] }

/-- An encoded page: codeword n from byte 4 526 n on, bytes after the last one 0xFF (R241). -/
def pageBytes (g : GeoRec) (ws : List (List Byte)) : List Byte :=
  ((ws.map (padTo codewordLen)).flatten ++ List.replicate (encodedPage g) 0xFF#8).take (encodedPage g)

/-- The encoded pages of a die's program unit at a block row and wordline, plane by plane and page by page; slots without a grain
hold pads. -/
def unitBytes (s : State) (die block wl : Nat) : List Byte :=
  let g := geoOf s
  let n := s.keys.draws
  let at_ (plane page i : Nat) : FGrain :=
    (aGet (mkAddr (die / 64) (die / 16 % 4) (die % 16) plane block page i) s.media.flash).getD (padGrain s.media.counter)
  (List.range g.planes).flatMap (fun plane => (List.range g.bits).flatMap (fun j =>
    pageBytes g ((List.range (grainsPerPage g)).map (fun i => let x := at_ plane (wl * g.bits + j) i; codeword (keyFor s n x) n x))))

/-- Bytewise XOR of the encoded pages of every data member at a wordline: what the parity accumulator holds (R252, R253). -/
def parityBytes (s : State) (b : SbRec) (wl : Nat) : List Byte :=
  (b.rows.filter (fun r => r.1 != b.parity)).foldl (fun acc r => xorBytes acc (unitBytes s (dieOf b.group r.1) r.2 wl))
    (List.replicate ((geoOf s).planes * (geoOf s).bits * encodedPage (geoOf s)) 0#8)

/-- Data-in of a program, at the rate of its channel: the pages of a data unit, or the accumulator's (R236, R250, R252). -/
def dataInOf (s : State) (o : OpEntry) : List Out :=
  if o.op = 3 then []
  else
    let bytes := match s.media.sbs.find? (fun b => b.seq == o.sb) with
      | some b => if o.op = 2 then parityBytes s b o.wl else unitBytes s o.die o.block o.wl
      | none => unitBytes s o.die o.block o.wl
    [.dataIn o.die o.block o.wl (dataInRate s (o.die / 64)) bytes]

/-! ### Cipher engines of a channel (R491, R495, R499) -/

/-- A cipher engine that works: neither quarantined nor held out by a test. -/
def engineWorks (s : State) (e : Nat) : Bool :=
  ! s.mem.qUnits.contains (pathX 0x14 e) && ! s.sec.heldOut.contains (pathX 0x14 e)

/-- Engine of a channel that takes the next unit: the first of its two that works. -/
def engineOf (s : State) (channel : Nat) : Nat := if engineWorks s (2 * channel) then 2 * channel else 2 * channel + 1

/-- The other engine of the same channel. -/
def otherEngine (e : Nat) : Nat := if e % 2 = 0 then e + 1 else e - 1

/-- A key is used for one grain: it is read from the cache, and the engine draws masks for its round steps (R491, R501). -/
def grainCache (c : Sec) (g : FGrain) (k : KeyCache) : KeyCache :=
  match grainUse g with
  | some u => { touchKey c u k with draws := (touchKey c u k).draws + grainDraws }
  | none => k

/-- The grains of a unit are sealed by an engine of its channel on their way to the die (R242, R491, R495). -/
def sealUnit (die block wl : Nat) (gs : List (Option FGrain)) (s : State) : State :=
  { s with
    keys := gs.foldl (fun c g => grainCache s.sec (g.getD (padGrain 0)) c) s.keys
    sec := { s.sec with sealing := s.sec.sealing ++ [(die, block, wl, engineOf s (die / 64))] } }

/-- A unit's codewords are complete: it goes to the flash port. -/
def sealed (die block wl : Nat) (s : State) : State :=
  { s with sec := { s.sec with sealing := s.sec.sealing.filter (fun x => ! (x.1 == die && x.2.1 == block && x.2.2.1 == wl)) } }

/-- A fault of an engine interrupts what it seals: the partial output is discarded, and each unit is sealed again from the Cornice on the
other engine of its channel (R495). -/
def resealUnits (e : Nat) (s : State) : State :=
  let hit := s.sec.sealing.filter (fun x => x.2.2.2 == e)
  { s with
    keys := { s.keys with draws := s.keys.draws + hit.length * unitGrains (geoOf s) * grainDraws }
    sec := { s.sec with sealing := s.sec.sealing.map (fun x => if x.2.2.2 == e then (x.1, x.2.1, x.2.2.1, otherEngine e) else x) } }

end Sys2Proof.Machine
end

