-- ==== Sys2Proof/Machine/KeywayOps.lean ====
section
/-! DEFINITION. The Keyway table: geometry and capacity, hashing, lookup, insert with displacement and stash, and the
journal records of its operations (chapter 4). -/

namespace Sys2Proof.Machine

/-! ### Geometry and capacity (R158 to R161) -/

/-- Bytes of the table: the lesser of 320 GiB and the DRAM less 48 GiB, rounded down to 2 MiB (R158). -/
def tableBytes (dram : Nat) : Nat := min (320 * 2 ^ 30) (dram - 48 * 2 ^ 30) / 2 ^ 21 * 2 ^ 21

/-- Buckets B of the table (R158). -/
def buckets (dram : Nat) : Nat := tableBytes dram / 64

/-- Stash buckets (R158). -/
def stashBuckets : Nat := 16384

/-- Key capacity C: the lesser of 2^34 and ⌊0.8 × 4 × B⌋ (R159). -/
def capacity (dram : Nat) : Nat := min (2 ^ 34) (8 * 4 * buckets dram / 10)

/-- Entries below which an entry for a new item is admitted (R160). -/
def admissionLimit (dram : Nat) : Nat := capacity dram - capacity dram / 256

/-- Entries held, pending and tombstones included (R159). -/
def entries (k : Keyway) : Nat := k.slots.length

/-! ### Hashing (R155, R157) -/

/-- The hash message of Table 4.1. -/
def itemMsg (ns chunk : Nat) (key : Key) : List Byte := le 2 ns ++ le 2 chunk ++ le 1 key.length ++ key

/-- The Keyway secret of the pair in force, which cores read (R156, R492). -/
def kwSecret (s : State) : Word × Word := s.sec.kwSecret

/-- Hash of an item (R155). -/
def itemHash (sec : Word × Word) (ns chunk : Nat) (key : Key) : Word := sipHash sec.1 sec.2 (itemMsg ns chunk key)

/-- Fingerprint h[31:0] (R157). -/
def fpOf (h : Word) : Nat := h.toNat % 2 ^ 32

/-- Primary bucket (R157). -/
def bucket1 (bk : Nat) (h : Word) : Nat := (h.toNat / 2 ^ 24) * bk / 2 ^ 40

/-- Offset to the alternate bucket (R157). -/
def bucketOff (bk fp : Nat) : Nat := 1 + fp % (bk - 1)

/-- Alternate bucket of a primary bucket (R157). -/
def altOf (bk fp b1 : Nat) : Nat := (b1 + bucketOff bk fp) % bk

/-- Primary bucket of an alternate bucket. -/
def primOf (bk fp b2 : Nat) : Nat := (b2 + bk - bucketOff bk fp % bk) % bk

/-- Stash bucket of a fingerprint (R172). -/
def stashOf (bk fp : Nat) : Nat := bk + fp % stashBuckets

/-! ### Slots -/

/-- Entry at a slot. -/
def slotAt (k : Keyway) (b s : Nat) : Option KwEntry := aGet (4 * b + s) k.slots

/-- First empty slot of a bucket. -/
def emptySlot (k : Keyway) (b : Nat) : Option Nat := (List.range 4).find? (fun s => (slotAt k b s).isNone)

/-- Entries of a bucket with a fingerprint and flag A as asked (R166). -/
def matching (k : Keyway) (b fp : Nat) (alt : Bool) : List KwEntry :=
  ((List.range 4).filterMap (slotAt k b)).filter (fun e => e.fp == fp && e.alt == alt)

/-- The stash holds any entry (R166). -/
def stashUsed (bk : Nat) (k : Keyway) : Bool := k.slots.any (fun p => decide (4 * bk ≤ p.1))

/-- Candidates of a lookup: primary, then alternate under the overflow mark, then the stash (R166). -/
def candidates (bk : Nat) (k : Keyway) (h : Word) : List KwEntry :=
  let fp := fpOf h
  let b1 := bucket1 bk h
  matching k b1 fp false ++
    (if k.marks.contains b1 then
      matching k (altOf bk fp b1) fp true ++ (if stashUsed bk k then matching k (stashOf bk fp) fp true else [])
    else [])

/-- Bits [27:12] of a version, as an entry holds them (Table 4.3). -/
def verField (version : Nat) : Nat := version / 4096 % 65536

/-- An item has this namespace, chunk and full key. -/
def isOf (ns chunk : Nat) (key : Key) (i : Item) : Bool := i.ns == ns && i.chunk == chunk && i.key == key

/-- The item an entry points to: the one whose header stands at its grain location. A tombstone has no grain, its header is in the
journal and the ledger: of several under one fingerprint the one looked up is found where its entry is a candidate (R166, R167,
R246, R251). -/
def headerOf (sec : Word × Word) (k : Keyway) (ns chunk : Nat) (key : Key) (e : KwEntry) : Option Item :=
  if e.kind = 2 then
    let ts := k.items.filter (fun i => i.tomb && decide (fpOf (itemHash sec i.ns i.chunk i.key) = e.fp) && i.pos == e.pos && (i.st != 2) == e.pend)
    match ts.find? (isOf ns chunk key) with
    | some i => some i
    | none => ts.head?
  else k.items.find? (fun i => (if e.cor then i.grains.head? else i.flash.head?) == some e.loc)

/-- What a lookup found: the item, the candidates passed over for another key, and the entries whose version field
disagrees with their header (R166 to R169). -/
structure Found where
  item : Option Item
  collisions : Nat
  stale : List Item
  deriving DecidableEq, Repr

/-- Lookup of the committed entry of an item (R166 to R169). -/
def lookup (bk : Nat) (sec : Word × Word) (k : Keyway) (ns chunk : Nat) (key : Key) : Found :=
  (candidates bk k (itemHash sec ns chunk key)).foldl (fun f e =>
    if e.pend then f
    else match headerOf sec k ns chunk key e with
      | none => { f with collisions := f.collisions + 1 }
      | some i =>
        if ! isOf ns chunk key i then { f with collisions := f.collisions + 1 }
        else if verField i.version ≠ e.ver then { f with stale := f.stale ++ [i] }
        else match f.item with
          | some j => if j.version < i.version then { f with item := some i } else f
          | none => { f with item := some i })
    { item := none, collisions := 0, stale := [] }

/-! ### Insert (R165, R172) -/

/-- The write that sets the overflow mark of a bucket, keeping its slot 0 (R165). -/
def markWrite (k : Keyway) (b : Nat) : SlotWrite := ⟨b, 0, slotAt k b 0, true⟩

/-- The bucket an entry in bucket `b` could move to, and the entry as it would stand there. -/
def movedTo (bk : Nat) (e : KwEntry) (b : Nat) : Nat × KwEntry :=
  if e.alt then (primOf bk e.fp b, { e with alt := false }) else (altOf bk e.fp b, { e with alt := true })

/-- Primary bucket of an entry that stands in bucket `b`. -/
def primaryOf (bk : Nat) (e : KwEntry) (b : Nat) : Nat := if e.alt then primOf bk e.fp b else b

/-- The last entry displaced, which would stand in bucket `b`, goes to its stash bucket with flags A and S and the mark of its
primary bucket; none when the stash bucket is full (R165, R172). -/
def toStash (bk : Nat) (k : Keyway) (b : Nat) (mover : KwEntry) : Option (List SlotWrite × List SlotWrite) :=
  let sb := stashOf bk mover.fp
  match emptySlot k sb with
  | some s => some ([markWrite k (primaryOf bk mover b)], [⟨sb, s, some { mover with alt := true, stash := true }, false⟩])
  | none => none

/-- Displacement plan: place `mover` in the full bucket `b`, moving a victim on, with `fuel` moves left; answers the
writes from the free end backwards, marks first. A path that finds no end, or would come back to a slot it uses, ends in the
stash with the last entry displaced (R172). -/
def displace (bk : Nat) (k : Keyway) : Nat → Nat → Nat → KwEntry → List Nat → Option (List SlotWrite × List SlotWrite)
  | 0, _, b, mover, _ => toStash bk k b mover
  | fuel + 1, step, b, mover, used =>
    let v := (mover.fp + step) % 4
    if used.contains (4 * b + v) then toStash bk k b mover
    else match slotAt k b v with
      | none => some ([], [⟨b, v, some mover, false⟩])
      | some victim =>
        let (b', moved) := movedTo bk victim b
        let marks := if moved.alt then [markWrite k (primaryOf bk victim b)] else []
        let here : SlotWrite := ⟨b, v, some mover, false⟩
        match emptySlot k b' with
        | some s => some (marks, [⟨b', s, some moved, false⟩, here])
        | none => match displace bk k fuel (step + 1) b' moved ((4 * b + v) :: used) with
          | some (m, w) => some (marks ++ m, w ++ [here])
          | none => none

/-- Plan of an insert: the slot writes of its one journal record, or none when the stash bucket is full (R172). -/
def planInsert (bk : Nat) (k : Keyway) (h : Word) (e : KwEntry) : Option (List SlotWrite) :=
  let fp := fpOf h
  let b1 := bucket1 bk h
  let b2 := altOf bk fp b1
  match emptySlot k b1 with
  | some s => some [⟨b1, s, some e, false⟩]
  | none =>
    let e2 := { e with alt := true }
    match emptySlot k b2 with
    | some s => some [markWrite k b1, ⟨b2, s, some e2, false⟩]
    | none => match displace bk k 16 0 b2 e2 [] with
      | some (m, w) => some (markWrite k b1 :: m ++ w)
      | none => none

/-- An item's entry points to its Cornice copy until its grains on flash are verified; one a repair laid has no such copy (R52,
R256). -/
def inCorniceOnly (i : Item) : Bool := i.flash.isEmpty || ! i.d3 && ! i.grains.isEmpty

/-- The entry of an item (Tables 4.3 to 4.5): its payload size in 512-byte units, its place, its version field. -/
def entryOf (sec : Word × Word) (i : Item) : KwEntry :=
  { fp := fpOf (itemHash sec i.ns i.chunk i.key)
    loc := if i.tomb then 0 else if inCorniceOnly i then i.grains.headD 0 else i.flash.headD 0
    size := if i.tomb then 0 else ceilDiv i.len 512
    kind := if i.tomb then 2 else if i.replica then 1 else 0
    ver := verField i.version, alt := false, pend := i.st != 2, cor := ! i.tomb && inCorniceOnly i,
    zext := i.zext, pos := i.pos, stash := false }

/-- The slot that holds an item's entry: same fingerprint, place, position and pendingness. -/
def slotOf (sec : Word × Word) (k : Keyway) (i : Item) : Option (Nat × KwEntry) :=
  let e := entryOf sec i
  k.slots.find? (fun p => p.2.fp == e.fp && p.2.loc == e.loc && p.2.kind == e.kind && p.2.pos == e.pos &&
    p.2.pend == e.pend && p.2.ver == e.ver)

/-- Slot write that replaces the entry of item `i` by that of `j` in place, keeping where it stands. -/
def rewriteSlot (sec : Word × Word) (k : Keyway) (i j : Item) : List SlotWrite :=
  match slotOf sec k i with
  | some p => [⟨p.1 / 4, p.1 % 4, some { entryOf sec j with alt := p.2.alt, stash := p.2.stash }, false⟩]
  | none => []

/-- Slot write that empties the entry of an item. -/
def clearSlot (sec : Word × Word) (k : Keyway) (i : Item) : List SlotWrite :=
  match slotOf sec k i with
  | some p => [⟨p.1 / 4, p.1 % 4, none, false⟩]
  | none => []

/-- CRC-32C of a Keyway journal record (Table 4.7). -/
def kwCrc (r : KwRec) : Nat := (crc32c (kwRecBytes r)).toNat

/-- A record is whole, not torn (R174). -/
def kwWhole (r : KwRec) : Bool := r.crc == kwCrc r

/-- Buckets of a granule (R176), and the granule of a bucket. -/
def granuleBuckets : Nat := 32768
def granuleOf (b : Nat) : Nat := b / granuleBuckets

/-- Slot writes as the regions carry them out, each those of its own granules: only the owning region writes a granule (R176, R177). -/
def regionWrites (s : State) (ws : List SlotWrite) : List SlotWrite :=
  (healthyRegions s).flatMap (fun r => ws.filter (fun w => granuleOwner s (granuleOf w.bucket) == some r))

/-- A Keyway journal record with its CRC. -/
def sealRec (seq op : Nat) (ws : List SlotWrite) : KwRec := { seq := seq, op := op, writes := ws, crc := kwCrc ⟨seq, op, ws, 0⟩ }

/-- The Keyway record of an operation with the next journal sequence (R170, Table 4.7). -/
def kwRec (s : State) (op : Nat) (ws : List SlotWrite) : List JRec :=
  let rs := regionWrites s ws
  if rs.isEmpty then [] else [.kw (sealRec (s.kw.jseq + 1) op rs)]

/-- Cut a list into pieces of `n`; `fuel` bounds their number. -/
def pieces {α : Type} (n : Nat) : Nat → List α → List (List α)
  | 0, _ => []
  | f + 1, l => if l.isEmpty then [] else l.take n :: pieces n f (l.drop n)

/-- Records of an operation over many slots: 40 slot writes at most in each (Table 4.7). -/
def kwRecs (s : State) (op : Nat) (ws : List SlotWrite) : List JRec :=
  let rs := regionWrites s ws
  (pieces 40 rs.length rs).zipIdx.map (fun p => .kw (sealRec (s.kw.jseq + 1 + p.2) op p.1))

/-! ### Item lists -/

/-- Items of one (namespace, chunk, key). -/
def itemsOf (s : State) (ns chunk : Nat) (key : Key) : List Item :=
  s.kw.items.filter (fun i => i.ns == ns && i.chunk == chunk && i.key == key)

/-- Pending entries of an item, those without a version included (R153). -/
def pendingOf (s : State) (ns chunk : Nat) (key : Key) : List Item := (itemsOf s ns chunk key).filter (fun i => i.st != 2)

/-- The committed item. -/
def committedOf (s : State) (ns chunk : Nat) (key : Key) : Option Item :=
  (itemsOf s ns chunk key).find? (fun i => i.st == 2)

/-- Whether an entry may be admitted: a new item below the admission limit, another one and tombstones below C (R160). -/
def mayAdmit (s : State) (ns chunk : Nat) (key : Key) (tomb : Bool) : Bool :=
  if tomb || ! (itemsOf s ns chunk key).isEmpty then decide (entries s.kw < capacity s.kw.dram)
  else decide (entries s.kw < admissionLimit s.kw.dram)

/-! ### Cornice -/

/-- Grains occupied by a run of bytes; an item without payload takes one (R245). -/
def grainsFor (n : Nat) : Nat := max 1 (ceilDiv n 4096)

/-- The n lowest free Cornice indices. -/
def freeIdx : Nat → Nat → List Nat → List Nat
  | 0, _, _ => []
  | n + 1, from_, used =>
    let i := leastFree used from_ (used.length + 1)
    i :: freeIdx n (i + 1) used

/-- Occupancy of the Cornice in bytes. -/
def occupancy (s : State) : Nat := 4096 * s.kw.cornice.length

/-- The pair's admission in MiB: the lesser of both banks with a healthy STANDBY, else the own one (R463). -/
def pairAdmission (s : State) : Nat := if hasStandby s then min s.gauge.aDev s.gauge.aTwin else s.gauge.aDev

/-- Whether `n` more grains stay within the pair's admission (R464), and the delta log does not hold payload back
(R181). -/
def corniceTakes (n : Nat) (s : State) : Bool :=
  decide (occupancy s + 4096 * n ≤ pairAdmission s * 2 ^ 20) && ! s.kw.heldBack

/-- Cut bytes into grains of 4 096, the last padded with zeros (R246). -/
def toGrains : Nat → List Byte → List (List Byte)
  | 0, _ => []
  | n + 1, bs => padTo 4096 (bs.take 4096) :: toGrains n (bs.drop 4096)

/-- Write bytes into the Cornice at free grain indices and mirror them (Table 10.6); answers the indices. -/
def cornicePut (bs : List Byte) (s : State) : List Nat × State :=
  let n := grainsFor bs.length
  let idx := freeIdx n 0 (s.kw.cornice.map (·.1))
  let gs := toGrains n bs
  let t := { s with kw := { s.kw with cornice := (idx.zip gs).foldl (fun c p => aSet p.1 p.2 c) s.kw.cornice } }
  (idx, (idx.zip gs).foldl (fun t p => mirror (.corniceWrite p.1 [p.2]) t) t)

/-- Free Cornice grains and tell the STANDBY (R418). -/
def corniceFree (idx : List Nat) (s : State) : State :=
  if idx.isEmpty then s
  else mirror (.corniceRelease (idx.map (fun i => (i, 1))))
    { s with
      kw := { s.kw with cornice := s.kw.cornice.filter (fun p => ! idx.contains p.1) }
      mem := { s.mem with badGrains := s.mem.badGrains.filter (fun i => ! idx.contains i) }
      media := { s.media with restored := s.media.restored.filter (fun i => ! idx.contains i) } }

/-- Bytes of an item's payload from the Cornice, or from flash once it is verified there (R256). -/
def itemBytes (s : State) (i : Item) : List Byte :=
  if i.tomb then []
  else if i.d3 || i.grains.isEmpty then
    ((i.flash.drop (if 16 < i.key.length then 1 else 0)).flatMap (fun a => match aGet a s.media.flash with
      | some g => g.data
      | none => [])).take i.len
  else (i.grains.flatMap (fun a => (aGet a s.kw.cornice).getD [])).take i.len

end Sys2Proof.Machine
end

