-- ==== Sys2Proof/Machine/PowerOps.lean ====
section
/-! DEFINITION. Power arithmetic and shared operations of chapter 11: energy and admission, tokens and the thaw limiter,
energy intervals, power-down. -/

namespace Sys2Proof.Machine

/-! ### Settings -/

/-- The Power record's defaults (Table 14.11). -/
def powDefault : PowRec :=
  { capMf := 1700, vCut := 7000, vFull := 11500, iT := 4000, esr := 5000, eFix := 60, eGib := 400, eMin := 20,
    periodH := 24, budget := 12000, thaw := 1000, idle := 1600, cRead := 4, cTlc := 6, cSlc := 5, cErase := 5, cX24 := 8,
    cX36 := 11, cWake := 2, intervalMs := 1000, dormant := false }

/-- The Power record in force. -/
def powOf (s : State) : PowRec := match s.cfg with | some c => c.pow | none => powDefault

/-! ### Energy and admission (R462, R466) -/

/-- ½ C (V² − W²) in µJ of a capacitance in µF between two voltages in µV, 0 when V is at or below W. -/
def energy (c v w : Nat) : Nat := c * (v * v - w * w) / (2 * 10 ^ 12)

/-- Working e_GiB in mJ per GiB: the record's, or 1.1 times the greatest of the last 8 measured (R466). -/
def workingEGib (s : State) : Nat := max ((powOf s).eGib * 10) (11 * maxL s.power.eGibs / 10)

/-- The capacitance R462 uses: while periodic tests fail, the lesser of the one held and the last failed one (R461). -/
def cgUsed (g : Gauge) : Nat :=
  match g.cg, g.lastFailed with
  | some c, some f => if g.periodicFails = 0 then c else min c f
  | some c, none => c
  | none, _ => 0

/-- Usable energy in µJ at a HOLD voltage in µV (R462). -/
def usable (s : State) (v : Nat) : Nat := energy (cgUsed s.gauge) v ((powOf s).vCut * 1000)

/-- Cornice admission of the device in MiB: min(16 GiB, (0.8 E − E_fixed) / e_GiB) down to a multiple of 2 MiB; 0 while
the gauge is withdrawn, less 2 MiB for each lasting page taken from payload memory (R461, R462, R537). -/
def admissionFor (s : State) (e : Nat) : Nat :=
  if s.gauge.withdrawn then 0
  else min 16384 ((8 * e - 10 * ((powOf s).eFix * 100000)) * 1024 / (10 * (workingEGib s * 1000)) / 2 * 2) - 2 * s.mem.pagesTaken

/-! ### Tokens (R473 to R475) -/

/-- Share of the PS0 budget by power state in percent (Table 3.6). -/
def stateShare (p : Nat) : Nat := match p with | 0 => 100 | 1 => 80 | 2 => 60 | _ => 40

/-- Flash budget of the power state in tokens, fractions rounded down (R108). -/
def flashBudget (s : State) : Nat := (powOf s).budget * stateShare s.power.pstate / 100

/-- Device power cap of the power state in mW (Table 3.6). -/
def powerCap (s : State) : Nat := match s.power.pstate with | 0 => 165000 | 1 => 150000 | 2 => 135000 | _ => 115000

/-- Tokens granted in all (R475). -/
def granted (p : Power) : Nat := sumL (p.granted.map (·.tokens))

/-- The least total in the preceding 10 µs: every total that stood then (R475). -/
def leastRecent (p : Power) (now : Nat) : Nat :=
  let recent := p.lows.filter (fun x => decide (now ≤ x.1 + 10000))
  let before := (p.lows.filter (fun x => decide (x.1 + 10000 < now))).getLast?
  let start := match before with | some x => [x.2] | none => if p.lows.isEmpty then [granted p] else []
  match start ++ recent.map (·.2) ++ [granted p] with
  | [] => 0
  | a :: r => r.foldl min a

/-- Note a change of the granted total; history older than the window collapses to its last value. -/
def noteTotal (now : Nat) (p : Power) : Power :=
  let old := p.lows.filter (fun x => decide (x.1 + 10000 < now))
  let recent := p.lows.filter (fun x => decide (now ≤ x.1 + 10000))
  { p with lows := (match old.getLast? with | some x => [x] | none => []) ++ recent ++ [(now, granted p)] }

/-- A request fits the budget less the idle floor, and the thaw limiter (R473, R475). -/
def fits (s : State) (t : Nat) : Bool :=
  decide (granted s.power + t + (powOf s).idle ≤ flashBudget s)

/-- The thaw limiter lets the total rise by `t` (R475). -/
def thawAllows (s : State) (t : Nat) : Bool :=
  decide (granted s.power + t ≤ leastRecent s.power s.now + (powOf s).thaw)

/-- Token cost of a use at a die, a transfer at the rate of its channel (R234, Table 11.6). Transfers and wakes ask for theirs by TOKEN_REQUEST
(log 150). -/
def tokenCost (s : State) (use die : Nat) : Nat :=
  let p := powOf s
  match use with
  | 0 => p.cRead | 1 => p.cTlc | 2 => p.cSlc | 3 => p.cErase
  | 4 => if channelRate s (die / 64) ≤ 2400 then p.cX24 else p.cX36
  | _ => p.cWake

/-- Block number that stands in the token request of grain read `id` (a read has no operation table entry, R422). -/
def readBlock (id : Nat) : Nat := 65536 + id

/-! ### Programs and erases beside reads on a die (R239, R417, R422) -/

/-- The command of an operation is held back for mirroring still (R417). -/
def heldBack (s : State) (o : OpEntry) : Bool := s.held.any (fun h => h.2 == .flashOp o.die o.op o.block o.wl)

/-- The state of an operation table entry changes, here and on the STANDBY. -/
def setOp (o e : OpEntry) (s : State) : State :=
  mirror (.operation [e] []) { s with twin := { s.twin with ops := updIf (fun x => x == o) (fun _ => e) s.twin.ops } }

/-- A read goes out to its die: a program or erase that runs there is suspended, or, once suspended 8 times, awaited (R239). -/
def issueRead (g : GrainRead) (die : Nat) (s : State) : State :=
  match s.twin.ops.find? (fun o => o.die == die && o.state == 2 && ! heldBack s o) with
  | none => emitNow (.flashRead g.id g.addr g.step) s
  | some o =>
    if o.suspends < 8 then emitNow (.flashRead g.id g.addr g.step)
      (setOp o { o with state := 3, suspends := o.suspends + 1 } (emitNow (.flashOp o.die 6 o.block o.wl) s))
    else { s with power := { s.power with behind := s.power.behind ++ [g.id] } }

/-- A read of a die has ended: a suspended program or erase goes on once no other read of the die is out (R239). -/
def resumeDie (die : Nat) (s : State) : State :=
  if s.power.granted.any (fun r => r.die == die && decide (65536 ≤ r.block)) then s
  else match s.twin.ops.find? (fun o => o.die == die && o.state == 3) with
    | some o => setOp o { o with state := 2 } (emitNow (.flashOp o.die 5 o.block o.wl) s)
    | none => s

/-- A program or erase of a die has ended: reads that waited for it go out (R239). -/
def readsBehind (die : Nat) (s : State) : State :=
  let go := s.media.reads.filter (fun g => s.power.behind.contains g.id &&
    s.power.granted.any (fun r => r.die == die && r.block == readBlock g.id))
  go.foldl (fun t g => issueRead g die t)
    { s with power := { s.power with behind := s.power.behind.filter (fun x => ! go.any (fun g => g.id == x)) } }

/-- The command of a granted operation goes out on its channel: a program or erase of the operation table, a program behind its data-in
(R236, R417), or a grain read, which waits for no mirror (R473). -/
def issueGranted (r : TokReq) (s : State) : State :=
  match s.twin.ops.find? (fun o => o.die = r.die && o.block = r.block && o.wl = r.wl && o.state = 1) with
  | some o =>
    let t := emit (.flashOp o.die o.op o.block o.wl) <| flashOuts (dataInOf s o) <| sealed o.die o.block o.wl
      { s with twin := { s.twin with ops := updIf (fun x => x == o) (fun x => { x with state := 2 }) s.twin.ops } }
    if t.held.length = s.held.length then confirmOut (.flashOp o.die o.op o.block o.wl) t else t
  | none => match s.media.reads.find? (fun g => readBlock g.id == r.block) with
    | some g => issueRead g r.die s
    | none => s

/-- Grant a request whole (R473). -/
def grant (r : TokReq) (s : State) : State :=
  issueGranted r { s with power := noteTotal s.now { s.power with granted := s.power.granted ++ [{ r with gotAt := s.now }] } }

/-- Time in the last 10 ms that urgent work has had on a channel, in ns: operations that run and those that have ended (R273). -/
def urgentUsed (s : State) (channel : Nat) : Nat :=
  let from_ := s.now - 10000000
  sumL ((s.power.granted.filter (fun r => r.rank == 3 && r.die / 64 == channel)).map (fun r => s.now - max r.gotAt from_)) +
    sumL ((s.power.urgent.filter (fun u => u.1 == channel)).map (fun u => u.2.2 - max u.2.1 from_))

/-- The request programs or verifies items that stand in the Cornice (R464): a program whose unit has a Cornice source (Table 10.8), or the
verification read of a new grain. -/
def drains (s : State) (r : TokReq) : Bool :=
  s.twin.ops.any (fun o => o.die == r.die && o.block == r.block && o.wl == r.wl && o.op != 3 && o.source != 0xFFFFFFFF) ||
    s.media.reads.any (fun g => readBlock g.id == r.block && g.why == 2)

/-- Rank in which a request waits (R272): urgent work within its allowance of 2 ms in any 10 ms on its channel stands above host reads, and
ranks with them beyond it (R273); while the occupancy exceeds the admission, what drains the Cornice is raised to class 2 (R464). -/
def effRank (s : State) (r : TokReq) : Nat :=
  if r.rank = 3 ∧ 2000000 ≤ urgentUsed s (r.die / 64) then 2
  else if r.rank = 1 ∧ s.gauge.excessSince.isSome ∧ drains s r then 2 else r.rank

/-- A waiting request of equal or higher rank stands before this one (R474). -/
def blocked (s : State) (r : TokReq) : Bool := s.power.waiting.any (fun w => decide (effRank s r ≤ effRank s w))

/-- The fabric class in which a die operation of a rank runs (R272, Tables 1.4, 7.2): 3 the flush, 2 host reads and urgent work, 1 writes and
level 1, 0 background. -/
def rankClass (rank : Nat) : Nat := match rank with | 0 => 0 | 1 => 1 | 2 => 2 | 3 => 2 | _ => 3

/-- Arbiters grant a class (R24): none outside the gate of the flash pins (R235), only class 3 while a power-fail flush runs, and no class 0 while a takeover runs at this device,
from HOLD_OUT on until event 0x4011, or while the 126 °C action stands (Table 11.5) or the power stays above the cap (R471). -/
def classGranted (s : State) (cls : Nat) : Bool :=
  flashDriven s && (match s.power.flush with | some f => f.why == 1 || decide (3 ≤ cls) | none => true) &&
    ! (s.twin.takeover.isSome && s.keeper.holdOut && decide (cls = 0)) && ! ((s.power.actions.contains 2 || decide (2 ≤ s.power.overs)) && decide (cls = 0))

/-- Ask for tokens: granted whole, or waits; never in part and never dropped (R24, R473, R474). -/
def askTokens (use count rank die block wl : Nat) (s : State) : State :=
  let r : TokReq := { id := s.power.tokenId, die := die, block := block, wl := wl, use := use,
                      tokens := tokenCost s use die * count, rank := rank, at_ := s.now }
  let t := { s with power := { s.power with tokenId := s.power.tokenId + 1 } }
  if fits t r.tokens && thawAllows t r.tokens && classGranted s (rankClass rank) && ! blocked t r then grant r t
  else { t with power := { t.power with waiting := t.power.waiting ++ [r] } }

/-- The operation of a request has ended: its tokens return (R473), and its die takes up what waits for it (R239). -/
def returnTokens (die block wl : Nat) (s : State) : State :=
  let mine (r : TokReq) : Bool := r.die = die && r.block = block && r.wl = wl
  let p := { s.power with granted := s.power.granted.filter (fun r => ! mine r)
                          urgent := s.power.urgent.filter (fun u => decide (s.now < u.2.2 + 10000000)) ++
                            (s.power.granted.filter (fun r => mine r && r.rank == 3)).map (fun r => (r.die / 64, r.gotAt, s.now))
                          behind := s.power.behind.filter (fun x => readBlock x != block) }
  let t := { s with power := noteTotal s.now p }
  if 65536 ≤ block then resumeDie die t else readsBehind die t

/-- The waiting request that is next: greatest rank, earliest of it (R474). -/
def nextWaiting (s : State) : Option TokReq :=
  s.power.waiting.foldl (fun b w => match b with
    | none => some w
    | some x => if effRank s x < effRank s w then some w else some x) none

/-! ### Energy intervals (R477, R478, Table 11.9) -/

/-- Open an energy interval. -/
def openInterval (s : State) : State :=
  let i : Interval :=
    { seq := s.power.intervalSeq + 1, start := s.now, end_ := 0, flags := 0, ps0 := s.power.pstate,
      ps1 := s.power.pstate, device := 0, byTokens := 0, measured := 0, peak := 0, throttle := 0, thaw := 0,
      eUse := 0, admission := 0 }
  { s with power := { s.power with open_ := some i } }

/-- Close the open interval with flags and append it to the ring of 4 096 records in Firn (R477). -/
def closeInterval (flags : Nat) (s : State) : State :=
  match s.power.open_ with
  | some i =>
    let r := { i with end_ := s.now, flags := i.flags ||| flags ||| bit s.ptp.locked 2, ps1 := s.power.pstate,
                      thaw := s.power.thawWait, eUse := s.gauge.eUse / 1000, admission := pairAdmission s }
    { s with power := { s.power with
        ring := (s.power.ring ++ [r]).drop (s.power.ring.length + 1 - 4096), intervalSeq := i.seq, open_ := none,
        thawWait := 0 } }
  | none => s

/-! ### Pace setpoint (R36, R471, R472) -/

/-- Pace target and the setpoint of R36 (Table 1.9): target below 115 °C raised to 1 774. -/
def paceTarget : Nat := 1613

/-- The setpoint of R36: reduced to the target while the 115 °C action stands (Table 11.5). -/
def paceSetpoint (s : State) : Nat := if s.power.actions.contains 1 then paceTarget else 1774

/-- Working setpoint: lowered by the cap loop and the 126 °C action, not below 0.80 of the target (R471). -/
def workingSetpoint (s : State) : Nat := max (paceTarget * 80 / 100) (paceSetpoint s - paceTarget * s.power.lowered / 100)

/-- The setpoint stands at its floor. -/
def atFloor (s : State) : Bool := decide (workingSetpoint s ≤ paceTarget * 80 / 100)

/-! ### Power-down (R448, R476, R598) -/

/-- The cores stop: the hours with the cores released grow by this run (Table 3.23). -/
def endHours (s : State) : State :=
  if running s then { s with start := { s.start with onNs := s.start.onNs + (s.now - s.keeper.releasedAt) } } else s

/-- Hold is released before SEQ_EN5 falls; every enable drops in reverse order, or to step 1 for DORMANT (R448, R476).
What was buffered in Moraine and never written is lost (R659). -/
def powerDown (dormant : Bool) (s : State) : State :=
  let t := endHours (if s.keeper.holdOut then releaseHold s else s)
  { t with
    mor := endRun t.mor
    held := []
    twin := { t.twin with roleState := if dormant then .dormant else .unassigned, linkUp := false, session := false,
                          healthy := false, unacked := [] }
    start := { t.start with serving := false, service := false }
    power := { t.power with flush := none, open_ := none }
    keeper := { t.keeper with en := if dormant then 1 else 0, pg := if dormant then 1 else 0, holdTest := false,
                              drivers := false, terms := false, holdOut := false, beatOut := .release, phase := if dormant then .dormant else .down } }

/-- After a run ended by power failure: down without supply, else the warm start of R454. -/
def afterPowerFail (c : WarmCause) (s : State) : State :=
  if s.keeper.pfail then powerDown false s else dueWarm c (if s.keeper.holdOut then releaseHold s else s)

end Sys2Proof.Machine
end

