-- ==== Sys2Proof/Machine/GaugeFamily.lean ====
section
/-! DEFINITION. The hold-up gauge: its tests, readings, read-only and excess of occupancy (R455 to R466). -/

namespace Sys2Proof.Machine

/-! ### Announcing the own slot state (R308, R333) -/

/-- Datagrams an update is carried in: 3 × ⌈log2(slots in view + 1)⌉ (R333). -/
def carryCount (s : State) : Nat := 3 * Nat.clog 2 (s.ice.view.length + 1)

/-- Take an own slot state. Entering the placing set puts the bins this pair is first for under handover, leaving it gives
its bins to their successors (R339, R343); the Service Address log changes where its being alive does (R149). -/
def setOwn (me : Nat) (st : SlotState) (s : State) : State :=
    let life := alive st != alive s.ice.own
    let enters := st == .placing && s.ice.own != .placing
    let leaves := st != .placing && s.ice.own == .placing
    { s with
      host := { s.host with generation := if life then s.host.generation + 1 else s.host.generation }
      ice := { s.ice with
        own := st
        ownLeft := carryCount s
        entering := if enters then sIns me s.ice.entering else if leaves then s.ice.entering.filter (· != me) else s.ice.entering
        finals := if enters then s.ice.finals.filter (fun f => f.1 != me) else s.ice.finals
        departed := if leaves then s.ice.departed ++ [(me, s.now)]
                    else if enters then s.ice.departed.filter (fun d => d.1 != me) else s.ice.departed } }

/-- Announce an own slot state; the twin keeps the pair's view (Table 10.6). The hosts hear of a new Service Address log (R150). -/
def announceOwn (st : SlotState) (s : State) : State :=
  match s.ice.slot with
  | none => s
  | some me => (if alive st != alive s.ice.own then raiseAsync 3 0 else id) <| mirror (.milmoState [.view { slot := me, state := st, suspected := false, inc := s.ice.inc, time := s.now, marker := 0, left := 0 }])
      (setOwn me st s)

/-- The own state a pair with a passed gauge announces: RETIRING by its roster flag, CLOSED with a closing cause, else
PLACING (Table 8.1, R90, R308). -/
def aliveState (s : State) : SlotState :=
  let retiring := match s.cfg, s.ice.slot with
    | some c, some n => match c.roster with
      | some r => r.slots.any (fun e => e.slot = n && e.retiring)
      | none => false
    | _, _ => false
  if retiring then .retiring else if s.ice.causes.isEmpty then .placing else .closed

/-! ### Passing (R459, R270, R585 step 9, R590) -/

/-- One spill set is erased and verified as erased (R270). -/
def spillReady (s : State) : Bool := s.media.setA.state == 0 || s.media.setB.state == 0

/-- A first device that holds the service address begins to serve: PLACING is announced, event 0x0012 (R585 step 9, R590, R591). -/
def beginServing (s : State) : State :=
  if holdsPair s ∧ s.start.service ∧ s.gauge.passed ∧ ¬ s.start.serving then
    record 0x0012 pathPkg (le 1 (roleCode s.twin.roleState) ++ s.start.stepTimes.flatMap (le 3))
      (announceOwn (aliveState s) { s with start := { s.start with serving := true, servingBy := none, step := 9 } })
  else s

/-- A serving pair that was ranked out for want of a passed gauge is ranked again (R90, R461). -/
def rankAgain (s : State) : State :=
  if holdsPair s ∧ s.start.serving ∧ s.ice.own = .joining then announceOwn (aliveState s) s else s

/-- GAUGE_PASSED (R459): reported passed once a test has passed and a spill set is erased. -/
def reportGauge (s : State) : State :=
  if s.gauge.testPassed ∧ ¬ s.gauge.passed ∧ ¬ s.gauge.withdrawn ∧ spillReady s then
    becomeHealthy (rankAgain (beginServing { s with gauge := { s.gauge with passed := true } }))
  else s

/-! ### Test arithmetic (R456, R457) -/

/-- Sums of a least-squares line through (i, y_i): n, Σx, Σy, Σxy, Σx². -/
structure Fit where
  n : Nat
  sx : Nat
  sy : Nat
  sxy : Nat
  sxx : Nat
  deriving DecidableEq, Repr

/-- Sums over samples taken every 10 µs. -/
def fitOf (ys : List Nat) : Fit :=
  ys.zipIdx.foldl (fun f p =>
    { n := f.n + 1, sx := f.sx + p.2, sy := f.sy + p.1, sxy := f.sxy + p.1 * p.2, sxx := f.sxx + p.2 * p.2 })
    { n := 0, sx := 0, sy := 0, sxy := 0, sxx := 0 }

/-- Fall per sample as num/den, both positive for a falling line. -/
def fallNum (f : Fit) : Int := (f.sx * f.sy : Nat) - (f.n * f.sxy : Nat)
def fallDen (f : Fit) : Int := (f.n * f.sxx : Nat) - (f.sx * f.sx : Nat)

/-- Measured capacitance in µF from a current in mA: C = I / slope (R456 step 5). -/
def measuredCap (iT : Nat) (f : Fit) : Option Nat :=
  if 0 < fallNum f ∧ 0 < fallDen f then some ((iT * 10000 * (fallDen f).toNat) / (fallNum f).toNat) else none

/-- No sample departs from the line by more than 1 % of the fall across the window (R457). -/
def fitGood (f : Fit) (ys : List Nat) : Bool :=
  let num := fallNum f
  let den := fallDen f
  ys.zipIdx.all (fun p =>
    let d : Int := (p.1 : Int) * f.n * den - ((f.sy : Int) * den + num * f.sx - num * p.2 * f.n)
    decide (100 * d.natAbs ≤ (num * (f.n - 1) * f.n).natAbs))

/-- Mean of samples. -/
def mean (l : List Nat) : Nat := sumL l / max l.length 1

/-- Series resistance in µΩ from V0, the mean of the step window and the current (R456 step 4). -/
def seriesRes (v0 v iT : Nat) : Nat := 1000 * (v0 - v) / max iT 1

/-- C_g from C_m: u is 1 % when I_T was measured, 3 % from the record (R456). -/
def gauged (measured : Bool) (c : Nat) : Nat := c * (if measured then 99 else 97) / 100

/-! ### Test control -/

/-- Begin a test: step 1 of R456. -/
def beginTest (s : State) : State :=
  { s with gauge := { s.gauge with
      test := some { step := 1, v0 := 0, at_ := s.now, start := ! s.gauge.testPassed, missed := false },
      due := false, retryAt := none, waits := false } }

/-- A test may not run beside a flush, a takeover or a planned takeover (Table 11.11). -/
def testBarred (s : State) : Bool := s.power.flush.isSome || s.twin.takeover.isSome || s.twin.planned.isSome

/-- Half a gauge period in ns. -/
def halfPeriod (s : State) : Nat := (powOf s).periodH * 1800 * 1000000000

/-- When the next periodic test is due: a period on, and a ROLE B device's half a period later than ROLE A's (R455). -/
def nextTestDue (s : State) (start : Bool) : Nat :=
  s.now + 2 * halfPeriod s + (if start && s.keeper.role == 1 then halfPeriod s else 0)

/-- The gauge is withdrawn: not reported passed, admission 0, refused, unhealthy; a holding device's pair is announced JOINING,
which ranks it out of placement (R90, R461, Table 8.1). -/
def withdraw (s : State) : State :=
  let t := loseHealth { s with gauge := { s.gauge with withdrawn := true, passed := false, aDev := 0 } }
  raiseAsync 0 4 (if holdsPair s then announceOwn .joining t else t)

/-- A test has failed: start tests after 60 s, or 10 min from the third; periodic ones withdraw the gauge at the third
(R457, R459, R461); the record of the third gives the values of each (R482). `crit` is the criterion of R457, 0 for the monitor. -/
def testFailed (crit : Nat) (cap : Option Nat) (s : State) : State :=
  let start := match s.gauge.test with | some t => t.start | none => true
  let vs := s.gauge.failedTests ++ [(crit, cap.getD 0)]
  let t0 := { s with keeper := { s.keeper with holdTest := false }, gauge := { s.gauge with test := none, failedTests := vs } }
  let values := vs.flatMap (fun v => le 1 v.1 ++ le 4 v.2)
  let t1 := record 0x6021 (pathGauge 17) (le 1 crit ++ le 4 (cap.getD 0)) t0
  if start then
    let n := s.gauge.startFails + 1
    let t2 := { t1 with gauge := { t1.gauge with
      startFails := n, retryAt := some (s.now + (if n < 3 then 60 else 600) * 1000000000) } }
    if n = 3 then record 0x6022 (pathGauge 17) values t2 else t2
  else
    let n := s.gauge.periodicFails + 1
    let t2 := { t1 with gauge := { t1.gauge with
      periodicFails := n, lastFailed := if cap.isSome then cap else t1.gauge.lastFailed
      retryAt := some (s.now + (if n < 3 then 60 else 600) * 1000000000) } }
    if n = 3 then withdraw (record 0x6022 (pathGauge 17) values t2) else t2

/-- A test has passed: it replaces C_g, event 0x6020; the gauge is reported passed when R270 also holds, and again
after a withdrawal (R457, R459, R461). -/
def testDone (cg esr v0 : Nat) (s : State) : State :=
  let start := match s.gauge.test with | some t => t.start | none => true
  let t0 := { s with keeper := { s.keeper with holdTest := false }
                     gauge := { s.gauge with
                       cg := some cg, esr := esr, startFails := 0, periodicFails := 0, failedTests := [], lastFailed := none, test := none,
                       testPassed := true, withdrawn := false, lastTest := s.now, nextDue := nextTestDue s start } }
  reportGauge (record 0x6020 (pathGauge 17) (le 4 cg ++ le 4 esr ++ le 4 v0) t0)

/-! ### Commands -/

/-- GAUGE_PERIOD_TIMER (R455): at a start, and every gauge period, a test begins; it waits for a flush or a takeover. -/
def execGaugePeriodTimer (s : State) : Result :=
  onlyIf (running s && s.cfg.isSome && s.gauge.test.isNone &&
      (s.gauge.due || s.gauge.waits || (s.gauge.testPassed && s.gauge.retryAt.isNone && decide (s.gauge.nextDue ≤ s.now)))) (fun s =>
    if testBarred s then { s with gauge := { s.gauge with waits := true } } else beginTest s) s

/-- GAUGE_RETRY_TIMER (R457, R459, R461): the test is repeated when its retry is due. -/
def execGaugeRetryTimer (s : State) : Result :=
  match s.gauge.retryAt with
  | some t => onlyIf (running s && s.gauge.test.isNone && decide (t ≤ s.now)) (fun s =>
      if testBarred s then { s with gauge := { s.gauge with waits := true } } else beginTest s) s
  | none => .next s

/-- GAUGE_TEST_START (R456 steps 1 to 3): HOLD_SENSE has been stable at or above V_full_min; V0 in µV is taken,
HOLD_TEST is raised, the monitor of R458 is armed. -/
def execGaugeTestStart (v0 : Nat) (s : State) : Result :=
  match s.gauge.test with
  | some t => onlyIf (running s && decide (t.step = 1) && decide ((powOf s).vFull * 1000 ≤ v0)) (fun s =>
      { s with keeper := { s.keeper with holdTest := true }
               gauge := { s.gauge with test := some { t with step := 3, v0 := v0, at_ := s.now } } }) s
  | none => .next s

/-- GAUGE_TEST_COMPLETE (R456, R457): samples in µV of 20 to 100 µs and of 1 to 201 ms after HOLD_TEST rose, and the
current measured on a function-2 input, in mA, when there is one. -/
def execGaugeTestComplete (iT : Option Nat) (step fit : List Nat) (s : State) : Result :=
  match s.gauge.test with
  | some t => onlyIf (running s && decide (t.step = 3)) (fun s =>
      let p := powOf s
      let i := iT.getD p.iT
      let esr := seriesRes t.v0 (mean step) i
      let f := fitOf fit
      match measuredCap i f with
      | none => testFailed 3 none s
      | some cm =>
        let cg := gauged iT.isSome cm
        if p.esr < esr then testFailed 1 (some cg) s
        else if cg * 2 < p.capMf * 1000 ∨ 2 * (p.capMf * 1000) < cg then testFailed 2 (some cg) s
        else if ! fitGood f fit then testFailed 3 (some cg) s
        else testDone cg esr t.v0 s) s
  | none => .next s

/-- GAUGE_TEST_DEADLINE (R458): 2 s from step 2 the monitor lowers HOLD_TEST, the test fails, 0x9620. -/
def execGaugeTestDeadline (s : State) : Result :=
  match s.gauge.test with
  | some t => onlyIf (running s && decide (2 ≤ t.step) && decide (t.at_ + 2000000000 < s.now)) (fun s =>
      testFailed 0 none (record 0x9620 (pathMonitor 0) (le 1 t.step) s)) s
  | none => .next s

/-- Read-only is entered at once below E_min, and SMART critical warning bit 3 sets (R465, READ_ONLY_ENTRY). -/
def checkReadOnly (s : State) : State :=
  let eMin := (powOf s).eMin * 1000000
  if s.gauge.eUse < eMin then
    if s.gauge.readOnly then { s with gauge := { s.gauge with backSince := none } }
    else raiseAsync 0 3 (record 0x6023 (pathGauge 0) (le 4 (s.gauge.eUse / 1000) ++ le 4 (eMin / 1000))
      { s with gauge := { s.gauge with readOnly := true, backSince := none } })
  else if s.gauge.readOnly ∧ eMin + 2000000 ≤ s.gauge.eUse then
    { s with gauge := { s.gauge with backSince := some (s.gauge.backSince.getD s.now) } }
  else { s with gauge := { s.gauge with backSince := none } }

/-- Occupancy above the pair's admission is timed from the moment it first is (R464). -/
def checkExcess (s : State) : State :=
  if pairAdmission s * 2 ^ 20 < occupancy s then
    { s with gauge := { s.gauge with excessSince := some (s.gauge.excessSince.getD s.now) } }
  else { s with gauge := { s.gauge with excessSince := none, excessNoted := false } }

/-- GAUGE_READING (R462, R463): every 100 µs, from the mean HOLD voltage in µV; no reading while a test runs. -/
def execGaugeReading (v : Nat) (s : State) : Result :=
  onlyIf (running s && s.cfg.isSome && ! s.keeper.holdTest) (fun s =>
    let e := usable s v
    checkExcess (checkReadOnly { s with gauge := { s.gauge with v := v, eUse := e, aDev := admissionFor s e } })) s

/-- READ_ONLY_EXIT (R465): E_usable at or above E_min + 2 J for 1 s ends read-only. -/
def execReadOnlyExit (s : State) : Result :=
  match s.gauge.backSince with
  | some t => onlyIf (running s && s.gauge.readOnly && decide (t + 1000000000 ≤ s.now)) (fun s =>
      record 0x6024 (pathGauge 0) (le 4 (s.gauge.eUse / 1000))
        { s with gauge := { s.gauge with readOnly := false, backSince := none } }) s
  | none => .next s

/-- ADMISSION_EXCESS_DEADLINE (R464): occupancy above admission 1 s after it first was records 0x9630. -/
def execAdmissionExcessDeadline (s : State) : Result :=
  match s.gauge.excessSince with
  | some t => onlyIf (running s && ! s.gauge.excessNoted && decide (t + 1000000000 ≤ s.now)) (fun s =>
      record 0x9630 (pathMonitor 0) (le 8 (occupancy s) ++ le 4 (pairAdmission s))
        { s with gauge := { s.gauge with excessNoted := true } }) s
  | none => .next s

end Sys2Proof.Machine
end

