-- ==== Sys2Proof/Machine/NetOps.lean ====
section
/-! DEFINITION. Addresses, group filters, announcements and link changes as shared operations of the network unit
(R364 to R369, R377 to R380, R384, R394). -/

namespace Sys2Proof.Machine

/-! ### Addresses (R94, R97, R367 to R369) -/

/-- Index of the management MAC (R366). -/
def macMM : Nat := 16

/-- The link of a MAC runs, and it takes frames: in RECOVERY the management port alone does (R467, R624). -/
def linkRuns (s : State) (k : Nat) : Bool := running s || (s.keeper.phase == .recovery && k == macMM)
def macTakes (s : State) (k : Nat) : Bool := linkRuns s k && s.power.flush.isNone

/-- IPv4 addresses held on a MAC: the service address while this device has taken it, on M0 to M15; the device address
of its ROLE. -/
def held4 (s : State) (k : Nat) : List Nat :=
  match netOf s with
  | some n =>
    let dev := if s.keeper.role = 0 then n.dev4.1 else n.dev4.2
    (if dev = 0 then [] else [dev]) ++ (if k < 16 ∧ s.start.service ∧ n.v4 then [n.svc4] else [])
  | none => []

/-- The link-local address of a device without a configuration in force, in RECOVERY among them: fe80::/64 with its unit address 16 as a
modified EUI-64 (R552, R624). -/
def linkLocal (s : State) : Nat :=
  let m := unitMac s 16
  0xFE80 * 2 ^ 112 + ((m / 2 ^ 24) ^^^ 0x020000) * 2 ^ 40 + 0xFFFE * 2 ^ 24 + m % 2 ^ 24

/-- IPv6 addresses held on a MAC. -/
def held6 (s : State) (k : Nat) : List Nat :=
  match netOf s with
  | some n =>
    let dev := if s.keeper.role = 0 then n.dev6.1 else n.dev6.2
    (if dev = 0 then [] else [dev]) ++ (if k < 16 ∧ s.start.service ∧ n.v6 then [n.svc6] else [])
  | none => if k = macMM then [linkLocal s] else []

/-! ### Groups (R320, R377 to R380) -/

/-- Filter bin of a 48-bit group address (R377). -/
def groupBin (a : Nat) : Nat := (a / 2 ^ 36) ^^^ (a / 2 ^ 24 % 4096) ^^^ (a / 2 ^ 12 % 4096) ^^^ (a % 4096)

/-- Group MAC addresses of a placement bin in the families in use (R320, Table 9.4). -/
def binGroups (n : NetRec) (b : Nat) : List Nat :=
  (if n.v6 then [mac6 b] else []) ++ (if n.v4 then [mac4 ((192 + b / 2 ^ 16) * 2 ^ 16 + b % 2 ^ 16)] else [])

/-- Groups every device joins: all-nodes, solicited-node groups of its addresses, the PTP groups, LLDP (R377). -/
def ownGroups (s : State) : List Nat :=
  match netOf s with
  | some n =>
    [mac6 1, 0x0180C200000E] ++ ((held6 s 0).map (fun a => mac6 (0xFF000000 + a % 2 ^ 24))) ++
      (match n.ptpTransport with
       | 0 => [mac6 0x181, mac6 0x6B]
       | 1 => [mac4 0xE0000181, mac4 0xE000006B]
       | _ => [0x011B19000000])
  | none => []

/-- Milmo groups joined, as MAC addresses. -/
def milmoGroups (s : State) : List Nat :=
  match netOf s with
  | some n => s.ice.groups.flatMap (binGroups n)
  | none => []

/-- Bins whose groups the table of 8 192 has room for beside the device's own (R378). -/
def groupRoom (s : State) : Nat :=
  match netOf s with
  | some n => (8192 - (ownGroups s).length) / max 1 (binGroups n 0).length
  | none => 0

/-- The table of joined groups (R378). -/
def joined (s : State) : List Nat := ownGroups s ++ milmoGroups s

/-- The accepting port: the lowest multicast port that is up (R379). -/
def acceptingPort (s : State) : Option Nat := (mcastPorts s).find? (fun k => isUp s k)

/-- Reports for a group leave every multicast port (R379, R384). -/
def reportGroup (b : Nat) (s : State) : State :=
  (mcastPorts s).foldl (fun t k => txFrame k 7 true (.groupReport k b) t) s

/-- The leave reports of a group (R380). -/
def leaveGroup (b : Nat) (s : State) : State :=
  (mcastPorts s).foldl (fun t k => txFrame k 7 true (.groupLeave k b) t) s

/-- The pair's groups become those of other bins: leave reports go before entries are cleared, reports after entries are set (R379, R380);
each is repeated once (log 15). -/
def setGroups (bins : List Nat) (s : State) : State :=
  let old := s.ice.groups
  let a := (old.filter (fun b => ! bins.contains b)).foldl (fun t b => leaveGroup b t) s
  let t := { a with ice := { a.ice with groups := bins }, net := { a.net with repLeft := 1 } }
  (bins.filter (fun b => ! old.contains b)).foldl (fun t b => reportGroup b t) t

/-! ### Announcements (R384, R436) -/

/-- Gratuitous ARP and unsolicited neighbour advertisements for the service addresses, on every MAC that is up. -/
def announceNow (s : State) : State :=
  match netOf s with
  | some n =>
    let addrs := (if n.v4 then [n.svc4] else []) ++ (if n.v6 then [n.svc6] else [])
    ((List.range 16).filter (fun k => (macOf s k).isSome && isUp s k)).foldl (fun t k =>
      addrs.foldl (fun u a => txFrame k 7 true (.announce k a) u) t) s
  | none => s

/-- Take the service MAC and addresses and announce them; they are repeated at 1 s up to 3 times (R384). -/
def takeAddresses (s : State) : State :=
  let t := announceNow { s with start := { s.start with service := true } }
  { t with net := { t.net with annLeft := 3, repLeft := 1, annAt := t.now } }

/-! ### Link changes (R364, R374, R384) -/

/-- MACs of G0 to G3 that are up: none counts toward the network-loss criterion from then on (Table 10.10). -/
def noteNone (s : State) : State :=
  { s with net := { s.net with
      noneSince := if (macsUp s).isEmpty then some (s.net.noneSince.getD s.now) else none } }

/-- The next Milmo-enabled MAC that is up after `k`, in ascending index (R374). -/
def nextMac (s : State) (k : Nat) : Option Nat :=
  let ms := milmoMacs s
  match ms.find? (fun x => decide (k < x)) with
  | some x => some x
  | none => ms.head?

/-- A MAC reports link down: counted, 0x3010, copies bound for several ports are discarded, flows and their waiting
frames move in order (R364, R374, R384, R387). -/
def macDown (k : Nat) (fault : Bool) (s : State) : State :=
  let q := match macOf s k with | some m => m.txq | none => []
  let a := onMac k (fun m => { bumpMac 93 1 (if fault then bumpMac 94 1 m else m) with
    up := false, downAt := s.now, txq := [], paused := [], xoff := [] }) s
  let b := bump k 62 ((q.filter (·.multi)).length) a
  let mv := q.filter (fun x => ! x.multi)
  let c := match nextMac b k with
    | some k' => onMac k' (fun m => { m with txq := m.txq ++ mv })
        { b with host := { b.host with conns := updIf (fun x => x.mac == k && decide (k < 16)) (fun x => { x with mac := k' }) b.host.conns } }
    | none => bump k 63 mv.length b
  record 0x3010 (pathMac k) [] (drainTx (noteNone c))

/-- Retire the lane of a MAC (R365): the MAC stays down. -/
def retireLane (lane : Nat) (s : State) : State :=
  let k := match macOf s lane with
    | some m => if m.mode = 3 ∨ lane = 16 then lane else lane / 4 * 4 + (if m.mode = 2 then lane % 4 / 2 * 2 else 0)
    | none => match macOf s (lane / 4 * 4) with
      | some m => if m.mode = 2 then lane / 2 * 2 else lane / 4 * 4
      | none => lane
  let t := onMac k (fun m => { m with laneRetired := true }) s
  if isUp t k then macDown k true t else t

/-- MACs a configuration uses (Table 9.1), with the management MAC; everything down, counters at 0 (R362, R387). -/
def freshMac (now idx mode : Nat) : Mac :=
  { idx := idx, mode := mode, up := false, downAt := now, laneRetired := false, counts := [], totals := [], sat := false,
    satNoted := false, rxRem := 0, txRem := 0, paused := [], ignore := [], xoff := [], stalled := false,
    progressAt := now, echo := [], txq := [] }

/-- MACs of a group in a mode. -/
def groupMacs (now g mode : Nat) : List Mac :=
  match mode with
  | 1 => [freshMac now (4 * g) 1]
  | 2 => [freshMac now (4 * g) 2, freshMac now (4 * g + 2) 2]
  | 3 => (List.range 4).map (fun i => freshMac now (4 * g + i) 3)
  | _ => []

/-- The ports at a start: modes of the Network record, all links down, totals from 0; without a configuration only MM. -/
def startPorts (s : State) : State :=
  let gs := match netOf s with
    | some n => (n.groupModes.take 4).zipIdx.flatMap (fun p => groupMacs s.now p.2 p.1)
    | none => []
  { s with net := { Net.reset with macs := gs ++ [freshMac s.now macMM 4], startAt := s.now, sweptAt := s.now,
                                   lldpAt := s.now, noneSince := some s.now } }

/-- Every port of G0 to G3 goes down (R394, R468, R392). -/
def portsDown (s : State) : State :=
  ((s.net.macs.filter (fun m => m.up && decide (m.idx < 16))).map (·.idx)).foldl (fun t k => macDown k false t) s

/-! ### Reading counters (R386) -/

/-- Read counter words into the totals, which clears them. -/
def sweepMac (m : Mac) : Mac :=
  { m with counts := [], totals := m.counts.foldl (fun t p => aSet p.1 ((aGet p.1 t).getD 0 + p.2) t) m.totals }

/-- Event 0x3040 once a counter has saturated (R386). -/
def noteSat (s : State) : State :=
  (s.net.macs.filter (fun m => m.sat && ! m.satNoted)).foldl (fun t m =>
    record 0x3040 (pathMac m.idx) [] (onMac m.idx (fun x => { x with satNoted := true }) t)) s

end Sys2Proof.Machine
end

