-- ==== Sys2Proof/Machine/FlushOps.lean ====
section
/-! DEFINITION. The power-fail flush and the spill of the Cornice as shared operations (R266 to R270, R466 to R469,
R479, R480), and what ends a run. -/

namespace Sys2Proof.Machine

/-- Spill set by number: 0 A, 1 B. -/
def spillSet (s : State) (n : Nat) : SpillSet := if n = 0 then s.media.setA else s.media.setB

/-- Replace a spill set. -/
def setSpill (n : Nat) (x : SpillSet) (s : State) : State :=
  { s with media := if n = 0 then { s.media with setA := x } else { s.media with setB := x } }

/-- The set a flush writes: an erased one, and of two erased ones that not used by the previous flush (R270). -/
def chooseSet (s : State) : Option Nat :=
  if s.media.setA.state = 0 ∧ s.media.setB.state = 0 then some (1 - s.media.lastSet)
  else if s.media.setA.state = 0 then some 0
  else if s.media.setB.state = 0 then some 1
  else none

/-- Spill the Cornice in ascending grain index into a set and journal the flush complete (R267); with no erased set
the grains are still covered by the set they were restored from (R592). A grain found uncorrectable is spilled poisoned (R526). -/
def spillTo (set number : Nat) (s : State) : State :=
  let x := spillSet s set
  let t := { s with media := { s.media with lastSet := set } }
  journal [.flush number set true]
    (mirror (.flushProgress set (maxL (s.kw.cornice.map (·.1))))
      (setSpill set { x with state := 1, flush := number, complete := true, grains := s.kw.cornice,
                              bad := s.mem.badGrains.filter (fun g => (aGet g s.kw.cornice).isSome) }
        (if s.kw.cornice.isEmpty then t else useGrainKey 4 0 t)))

/-- Flush deadline D_f = 20 ms + occupancy / 120 GB/s, in ns (R469). -/
def flushLimit (bytes : Nat) : Nat := 20000000 + bytes / 120

/-- A power-state change not adopted is recorded and not applied (R480 rule 2); answers the interval flag bit 1. -/
def dropStateChange (s : State) : State × Nat :=
  match s.power.asked with
  | some (p, _) => (record 0x6060 pathPkg (le 1 p) { s with power := { s.power with asked := none } }, 2)
  | none => (s, 0)

/-- Moraine at step 3 of a flush: summaries, then the whole buffer, then write-through (R650, R654, R657). -/
def moraineFlush (s : State) : State :=
  onMor (fun m => { writeAll (summarizeAll m s.now) with through := true }) s

/-- A gauge test in progress is discarded and HOLD_TEST lowered (R460). -/
def dropTest (s : State) : State :=
  { s with keeper := { s.keeper with holdTest := false }, gauge := { s.gauge with test := none } }

/-- Begin the flush of a holding device: steps 1 to 3 of R467 and the choice of its set. It is measured where it draws on the bank, which is
where the supply has failed (R466). -/
def beginFlush (cause why v : Nat) (s : State) : State :=
  let (a, f) := dropStateChange (dropTest s)
  let b := moraineFlush (closeInterval (1 + f) a)
  let n := b.power.flushNo + 1
  let fl : Flush :=
    { cause := cause, at_ := s.now, set := (chooseSet b).getD 2, left := b.kw.cornice.map (·.1), index := 0,
      spilled := 0, vStart := v, measured := b.keeper.pfail, number := n, missed := false, why := why, bytes := occupancy b }
  { b with start := { b.start with shutdown := none }, power := { b.power with flush := some fl, flushNo := n } }

/-- GiB-scaled flush energy e_m in mJ per GiB: (measured − E_fixed) / GiB spilled, for at least 1 GiB (R466). -/
def flushPerGib (s : State) (f : Flush) (used : Nat) : Nat :=
  let bytes := 4096 * f.spilled
  if f.measured ∧ 2 ^ 30 ≤ bytes then (used - (powOf s).eFix * 100000) / 1000 * 2 ^ 30 / bytes else 0

/-- Take a measurement: the last 8 are kept, and 0x6030 is recorded when the working value changes (R466). -/
def noteFlush (em : Nat) (s : State) : State :=
  if em = 0 then s
  else
    let old := workingEGib s
    let t := { s with power := { s.power with eGibs := (s.power.eGibs ++ [em]).drop (s.power.eGibs.length + 1 - 8) } }
    if workingEGib t = old then t else record 0x6030 (pathGauge 0) (le 4 old ++ le 4 (workingEGib t)) t

/-- Payload of the hold-up interval record (Table 11.10). -/
def holdPayload (s : State) (f : Flush) (vEnd em used : Nat) : List Byte :=
  le 8 f.number ++ le 4 (used / 1000) ++ le 4 f.spilled ++ le 4 ((s.now - f.at_) / 1000) ++ le 2 (f.vStart / 1000)
    ++ le 2 (vEnd / 1000) ++ le 4 em ++ le 2 f.cause ++ le 2 0

/-- The spill itself and its journaled completion (R267 step 2 to 4, R467 steps 4 and 5). -/
def runSpill (f : Flush) (s : State) : State × Flush :=
  let f' := { f with spilled := s.kw.cornice.length, left := [], index := maxL (s.kw.cornice.map (·.1)) }
  (if f.set < 2 then spillTo f.set f.number s else s, f')

/-- The run ended without an orderly shutdown: the next start counts as an unsafe shutdown (R580, R597). -/
def markUnsafe (s : State) : State := { s with start := { s.start with unsafeEnd := true } }

/-- A stopped device keeps its rails until it is cold (R472). -/
def stopDevice (s : State) : State :=
  let t := endHours (if s.keeper.holdOut then releaseHold s else s)
  { t with
    mor := endRun t.mor
    held := []
    twin := { t.twin with roleState := .unassigned, session := false, linkUp := false, healthy := false, unacked := [] }
    start := { t.start with serving := false, service := false }
    power := { t.power with flush := none, coldSince := none }
    keeper := { t.keeper with phase := .stopped } }

/-- Step 6 of a shutdown (Table 15.6): hold is released, Milmo stops, SHST reports complete; the keeper drops the rails after it (R598). -/
def shutDone (s : State) : State :=
  let t := if s.keeper.holdOut then releaseHold s else s
  { t with
    twin := { t.twin with roleState := .unassigned, healthy := false, planned := none, closedDoor := false }
    start := { t.start with
      service := false, serving := false, shst := 2
      shutdown := some { (t.start.shutdown.getD ⟨true, t.now, 6, false, false, false, 0, []⟩) with at_ := t.now, step := 7 } } }

/-- Completion of a flush: the record of the hold-up interval is its last act (R467 step 6, R479), then the device
powers down or starts again (R454), or stops (R472). `wrote` is whether its Firn write completed. -/
def endFlush (vEnd : Nat) (wrote : Bool) (f0 : Flush) (s : State) : State :=
  let (a, f) := runSpill f0 s
  let used := energy (cgUsed a.gauge) f.vStart vEnd
  let em := flushPerGib a f used
  let pl := holdPayload a f vEnd em used
  let b := noteFlush em a
  let c := if wrote then record 0x6013 pathPkg pl b
    else { b with mor := { b.mor with carried :=
        { newRec b.now b.ptp.locked 0x6013 5 pathPkg pl with carried := true } :: b.mor.carried } }
  let d := markUnsafe c
  if f.why = 3 then stopDevice d
  else if f.why = 2 then shutDone { d with power := { d.power with flush := none } }
  else afterPowerFail (if f.why = 4 then .memoryError else .flushSupply) d

/-- The STANDBY parks: one cluster, every Ethernet MAC stops, mirrored frames are applied as before (R468). -/
def park (s : State) : State :=
  if s.twin.parked then s
  else (s.net.macs.filter (·.up)).foldl (fun t m => macDown m.idx false t) { s with twin := { s.twin with parked := true } }

end Sys2Proof.Machine
end

