-- ==== Sys2Proof/Machine/MediaOps.lean ====
section
/-! DEFINITION. Flash topology, superblocks and items on flash as shared operations: geometry and addresses, opening and
filling superblocks, programs, verification, location changes, relocation, loss of items and dies (chapters 6 and 7). -/

namespace Sys2Proof.Machine

/-- The Media care record's defaults (Table 14.17), in the units of that table. -/
def mediaDefault : MediaRec :=
  { sweepDays := 7, rdThr := 200000, rdSpill := 2000000, spread := 200, goal := 60, floor := 20, reserve := 5,
    spare := 40, spareThr := 10 }

/-- The Media care record in force. -/
def mediaOf (s : State) : MediaRec := match s.cfg with | some c => c.media | none => mediaDefault

/-! ### Superblocks (R247 to R250) -/

/-- Data members of a superblock, ascending. -/
def dataMembers (b : SbRec) : List Nat := b.members.filter (· != b.parity)

/-- Block row of a member. -/
def rowOf (b : SbRec) (p : Nat) : Nat := (aGet p b.rows).getD 0xFFFF

/-- Program units of a superblock when it is filled. -/
def unitCap (g : GeoRec) (b : SbRec) : Nat := (dataMembers b).length * wordlines g

/-- Member and wordline of a program unit (R249). -/
def unitMember (b : SbRec) (u : Nat) : Nat := ((dataMembers b)[u % max (dataMembers b).length 1]?).getD 0
def unitWl (b : SbRec) (u : Nat) : Nat := u / max (dataMembers b).length 1

/-- Address of grain slot `n` in write order (R249). -/
def slotAddr (g : GeoRec) (b : SbRec) (n : Nat) : Nat :=
  let u := n / max (unitGrains g) 1
  let r := n % max (unitGrains g) 1
  let p := unitMember b u
  let per := max (g.bits * grainsPerPage g) 1
  let page := unitWl b u * g.bits + r / max (grainsPerPage g) 1 % max g.bits 1
  mkAddr (32 * (b.group / 64) + p) (b.group / 16 % 4) (b.group % 16) (r / per) (rowOf b p) page (r % max (grainsPerPage g) 1)

/-- The superblock that has a block row. -/
def sbAt (s : State) (die block : Nat) : Option SbRec :=
  s.media.sbs.find? (fun b => groupOf die == b.group && aGet (posOf die) b.rows == some block)

/-- The superblock of a grain address. -/
def sbOfAddr (s : State) (a : Nat) : Option SbRec := sbAt s (addrDie a) (addrBlock a)

/-- A superblock by sequence. -/
def sbBy (s : State) (seq : Nat) : Option SbRec := s.media.sbs.find? (fun b => b.seq == seq)

/-- Set a superblock's record in Firn, mirrored (R248). -/
def setSb (b : SbRec) (s : State) : State := journal [.sb b] s

/-- A superblock keeps its parity (Table 6.8). -/
def keepsParity (b : SbRec) : Bool := b.hold || b.state == 1 || b.state == 2 || b.state == 3

/-! ### Free block rows (R289, R294) -/

/-- Block rows a die cannot give: in a superblock, or retired. -/
def takenRows (s : State) (d : Nat) : List Nat :=
  (s.media.sbs.filter (fun b => b.group == groupOf d)).filterMap (fun b => aGet (posOf d) b.rows) ++
    (s.media.bad.filter (fun x => x.1 == d)).map (·.2)

/-- P/E count of a block row. -/
def peOf (s : State) (d b : Nat) : Nat := ((s.media.pe.find? (fun x => x.1 == d && x.2.1 == b)).map (·.2.2)).getD 0

/-- The erased free block row a member contributes: lowest P/E count, then lowest number, or the highest count for a
static wear-levelling destination; rows 0 to 2 are the reference row and the spill sets (R294, log 16). -/
def freeRow (s : State) (d : Nat) (high : Bool) : Option Nat :=
  let taken := takenRows s d
  let worn := (s.media.pe.filter (fun x => x.1 == d && decide (0 < x.2.2))).map (fun x => (x.2.1, x.2.2))
  let fresh := leastFree (taken ++ worn.map (·.1)) 3 (taken.length + worn.length + 1)
  let best := (worn.filter (fun x => ! taken.contains x.1 && decide (3 ≤ x.1))).foldl (fun (b : Option (Nat × Nat)) x =>
    match b with
    | none => some x
    | some y =>
      let better : Bool := if high then decide (y.2 < x.2) else decide (x.2 < y.2)
      if better || (x.2 == y.2 && decide (x.1 < y.1)) then some x else b) none
  let freshRow := if fresh < (geoOf s).blocks then some fresh else none
  if high then (match best with | some x => some x.1 | none => freshRow)
  else match freshRow with | some r => some r | none => best.map (·.1)

/-- Usable block rows of a die outside row 0 and the spill sets, and its erased free ones (R289). -/
def usableRows (s : State) (d : Nat) : Nat :=
  (geoOf s).blocks - 3 - ((s.media.bad.filter (fun x => x.1 == d && decide (3 ≤ x.2))).length)
def freeRows (s : State) (d : Nat) : Nat := (geoOf s).blocks - 3 - (takenRows s d).length

/-- Least of a list, 0 of none. -/
def minL (l : List Nat) : Nat := match l with | [] => 0 | a :: r => r.foldl min a

/-- Usable members of a group as dies. -/
def groupDies (s : State) (g : Nat) : List Nat := ((List.range 32).map (dieOf g)).filter (usableDie s)

/-- Superblock capacity N and free count F of the device (R289). -/
def capN (s : State) : Nat := sumL ((List.range 256).map (fun g => minL ((groupDies s g).map (usableRows s))))
def freeF (s : State) : Nat := sumL ((List.range 256).map (fun g => minL ((groupDies s g).map (freeRows s))))

/-- A threshold of Table 7.3 in whole superblocks. -/
def threshold (s : State) (tenths : Nat) : Nat := capN s * tenths / 1000

/-! ### The aging ladder (R271 to R274) -/

/-- Seconds in ns. -/
def secNs (n : Nat) : Nat := n * 1000000000

/-- Deadline fault of a task: 1 sweep, 2 verification of a queued item, 3, 4, 5 rewrite for correction, soft decode, read
disturb, 6 static wear levelling, 7 garbage collection, 8 ledger merge, 9 checkpoint generation, 10 metadata rewrite, 11
granule rebuild, 12 dispatch to D3 (Table 7.1), 13 repair, 14 orphan processing, 15 rebalance, 16 handover, 17 return
(Table 8.2: a repair unit carries its own code in its second number). -/
def bgFault (kind id2 : Nat) : Nat :=
  match kind with
  | 1 => 0x9310 | 2 => 0x9311 | 3 => 0x9320 | 4 => 0x9320 | 5 => 0x9321 | 6 => 0x9330 | 7 => 0x9340 | 8 => 0x9350
  | 9 => 0x9360 | 10 => 0x9361 | 11 => 0x9362 | 12 => 0x9370 | 13 => id2 | 14 => 0x9383 | _ => 0x9384

/-- A unit becomes due. One that is already there keeps its first report; the earlier deadline stands (R285). -/
def addBgAt (due kind id id2 span : Nat) (s : State) : State :=
  let same := fun u : BgUnit => u.kind == kind && u.id == id && u.id2 == id2
  if s.media.bg.any same then s
  else { s with media := { s.media with bg := s.media.bg ++ [⟨kind, id, id2, due, span, 0, false⟩] } }

/-- A unit becomes due now. -/
def addBg (kind id id2 span : Nat) (s : State) : State := addBgAt s.now kind id id2 span s

/-- A unit is complete and leaves the ladder. -/
def doneBg (kind id id2 : Nat) (s : State) : State :=
  { s with media := { s.media with bg := s.media.bg.filter (fun u => ! (u.kind == kind && u.id == id && u.id2 == id2)) } }

/-- Level of a unit by its age (Table 7.2): 0, 1, 2 urgent. -/
def ageLevel (now : Nat) (u : BgUnit) : Nat :=
  if u.due + u.span ≤ now then 2 else if u.due + u.span / 2 ≤ now then 1 else 0

/-- Level at which units stand: the greatest that their age or a threshold of Table 7.3 gives them (R272, R290). -/
def unitLevel (s : State) (p : BgUnit → Bool) : Nat := ((s.media.bg.filter p).map (fun u => max u.level (ageLevel s.now u))).foldl max 0

/-- Background work of a level is granted: the device serves, no flush or takeover runs, and its fabric class is granted (R24, R272, R275). -/
def bgGranted (level : Nat) (s : State) : Bool :=
  running s && holdsPair s && s.start.serving && classGranted s level && s.power.flush.isNone && s.twin.takeover.isNone

/-- Units of a task, by its number and that of the unit. -/
def isUnit (kind id id2 : Nat) (u : BgUnit) : Bool := u.kind == kind && u.id == id && u.id2 == id2
def ofKind (kind : Nat) (u : BgUnit) : Bool := u.kind == kind

/-- Units that rewrite a block row (Table 7.1). -/
def isRewrite (id : Nat) (u : BgUnit) : Bool := (u.kind == 3 || u.kind == 4 || u.kind == 5) && u.id == id

/-- Rank of a unit's flash operations (R272, R474). -/
def bgRank (s : State) (p : BgUnit → Bool) : Nat := match unitLevel s p with | 0 => 0 | 1 => 1 | _ => 3

/-- Free-superblock thresholds after a change of F (Table 7.3). -/
def checkFree (s : State) : State :=
  let f := freeF s
  let m := mediaOf s
  let a := if f < threshold s m.goal then addBg 7 0 0 (secNs 60) s else doneBg 7 0 0 s
  let lv := if f < threshold s m.reserve then 2 else if f < threshold s m.floor then 1 else 0
  let b := { a with media := { a.media with lowNoted := lv
                                            bg := if lv = 0 then a.media.bg else updIf (fun u => u.kind == 7) (fun u => { u with level := 2 }) a.media.bg } }
  let c := if 1 ≤ lv ∧ a.media.lowNoted = 0 then raiseAsync 0 0 (record 0x2070 pathPkg (le 4 f) b) else b
  if lv = 2 ∧ a.media.lowNoted < 2 then record 0x2071 pathPkg (le 4 f) c else c

/-- Available spare in percent (R299). -/
def availableSpare (s : State) : Nat :=
  let g := geoOf s
  let dies := (8192 - g.absentDies.length)
  let all := dies * (g.blocks - 3)
  let lost := sumL ((s.media.excluded ++ s.media.lost).map (fun _ => g.blocks - 3)) + (s.media.bad.filter (fun x => decide (3 ≤ x.2))).length
  let r := (mediaOf s).spare
  let have_ : Int := (all : Int) - lost - ((all * (1000 - r) / 1000 : Nat) : Int)
  let den := all * r / 1000
  if den = 0 ∨ have_ ≤ 0 then 0 else min 100 (100 * have_.toNat / den)

/-- The spare falls below its threshold: 0x2081; at 0 % a critical event and new items are refused (R299). -/
def checkSpare (s : State) : State :=
  let a := availableSpare s
  if a = 0 ∧ s.media.spareNoted < 2 then
    recordAs 0x2081 6 pathPkg (le 1 a) { s with media := { s.media with spareNoted := 2 } }
  else if a < (mediaOf s).spareThr ∧ s.media.spareNoted = 0 then
    record 0x2081 pathPkg (le 1 a) { s with media := { s.media with spareNoted := 1 } }
  else s

/-- A block is retired (R297): 0x2080 with the cause of Table 7.4, grown-bad bit. -/
def retireBlock (cause die block : Nat) (s : State) : State :=
  if s.media.bad.contains (die, block) then s
  else checkSpare (checkFree (journal [.bad die block] (record 0x2080 (pathFlashDie die) (le 1 cause ++ le 2 die ++ le 2 block) s)))

/-- Report a block row for rewrite, kind 3, 4 or 5 of Table 7.1: one unit, with the earlier deadline (R285); the third
report within 50 P/E cycles retires the block (R297). -/
def reportRow (kind die block : Nat) (s : State) : State :=
  let span := if kind = 3 then secNs 86400 else if kind = 4 then secNs 3600 else secNs 600
  let id := 65536 * die + block
  let pe := peOf s die block
  let reps := s.media.reports ++ [(die, block, pe)]
  let near := (reps.filter (fun x => x.1 == die && x.2.1 == block && decide (pe ≤ x.2.2 + 50))).length
  let a := { s with media := { s.media with reports := reps } }
  let old := a.media.bg.find? (fun u => (u.kind == 3 || u.kind == 4 || u.kind == 5) && u.id == id)
  let b := match old with
    | some u => if s.now + span < u.due + u.span then addBg kind id 0 span (doneBg u.kind id 0 a) else a
    | none => addBg kind id 0 span a
  if 3 ≤ near then retireBlock 4 die block b else b

/-! ### Reads of grains (R260, R281, R282) -/

/-- A read operation counts on its block row; past the threshold the row is reported once (R281, R282). -/
def countRead (die block n : Nat) (s : State) : State :=
  let old := ((s.media.rdc.find? (fun x => x.1 == die && x.2.1 == block)).map (·.2.2)).getD 0
  let m := mediaOf s
  let thr := if block = 1 ∨ block = 2 then m.rdSpill else m.rdThr
  let t := { s with media := { s.media with rdc := putIf (fun x => x.1 == die && x.2.1 == block) (die, block, old + n) s.media.rdc } }
  if old ≤ thr ∧ thr < old + n then reportRow 5 die block (record 0x2090 (pathFlashDie die) (le 2 die ++ le 2 block) t) else t

/-- Issue a grain read at a step of the ladder; what lay on a lost die, or at an address outside the discovered geometry, can only be
reconstructed (step 6, R240, R265). -/
def startRead (addr why of_ step0 rank : Nat) (s : State) : State :=
  let id := s.media.readId
  let step := if addrValid s addr then step0 else 6
  let t := { s with media := { s.media with
    readId := id + 1, reads := s.media.reads ++ [⟨id, addr, step, s.now, why, of_, false, rank⟩] } }
  countRead (addrDie addr) (addrBlock addr) 1 (askTokens 0 1 rank (addrDie addr) (readBlock id) 0 t)

/-! ### Programs and erases (R250, R252, R422) -/

/-- Enter an operation into the operation table, mirror it and ask for its tokens; it goes out when they are granted. -/
def startOp (e : OpEntry) (use : Nat) (s : State) : State :=
  askTokens use 1 (if e.op = 3 then 0 else 1) e.die e.block e.wl
    (mirror (.operation [e] []) { s with twin := { s.twin with ops := s.twin.ops ++ [e] } })

/-- What stands in the slots of a unit, in write order: none for a pad. -/
def unitGrainsOf (s : State) (b : SbRec) (u : Nat) : List (Option FGrain) :=
  (List.range (unitGrains (geoOf s))).map (fun i => aGet (slotAddr (geoOf s) b (u * unitGrains (geoOf s) + i)) s.media.flash)

/-- First Cornice grain index of a unit (Table 10.8): that of its first grain whose item is in the Cornice; 0xFFFFFFFF with none,
as of a unit that a relocation fills (log 126). -/
def unitSource (s : State) (gs : List (Option FGrain)) : Nat :=
  ((gs.filterMap id).filterMap (fun g =>
    if g.kind ≠ 0 then none
    else match s.kw.items.find? (fun i => i.ns == g.ns && i.chunk == g.chunk && i.key == g.key && i.version == g.version && ! i.grains.isEmpty) with
      | some i => i.grains[g.index]?
      | none => none)).headD 0xFFFFFFFF

/-- Program unit `u` of a superblock (R250). -/
def issueUnit (b : SbRec) (u : Nat) (s : State) : State :=
  let p := unitMember b u
  let gs := unitGrainsOf s b u
  startOp { die := dieOf b.group p, op := 1, state := 1, block := rowOf b p, wl := unitWl b u,
            planes := 2 ^ (geoOf s).planes - 1, suspends := 0, source := unitSource s gs, sb := b.seq, issued := s.now } 1 (sealUnit (dieOf b.group p) (rowOf b p) (unitWl b u) gs s)

/-- Program the parity of a wordline (R252). -/
def issueParity (b : SbRec) (wl : Nat) (s : State) : State :=
  startOp { die := dieOf b.group b.parity, op := 2, state := 1, block := rowOf b b.parity, wl := wl,
            planes := 2 ^ (geoOf s).planes - 1, suspends := 0, source := 0xFFFFFFFF, sb := b.seq, issued := s.now } 1 s

/-- Erase a block row (R293). -/
def issueErase (b : SbRec) (p : Nat) (s : State) : State :=
  startOp { die := dieOf b.group p, op := 3, state := 1, block := rowOf b p, wl := 0,
            planes := 2 ^ (geoOf s).planes - 1, suspends := 0, source := 0xFFFFFFFF, sb := b.seq, issued := s.now } 3 s

/-- An operation has ended: it leaves the table, and its tokens return. -/
def endOp (e : OpEntry) (s : State) : State :=
  returnTokens e.die e.block e.wl
    (mirror (.operation [] [(e.die, e.block, e.wl)]) <| sealed e.die e.block e.wl { s with twin := { s.twin with ops := s.twin.ops.filter (fun x => x != e) } })

/-! ### Opening and filling superblocks -/

/-- The cap on open superblocks: 64 data, 16 of them for relocation, 8 metadata, and the parity accumulator (R250, R286). -/
def mayOpen (s : State) (kind : Nat) (reloc : Bool) : Bool :=
  let g := geoOf s
  let openOf (p : SbRec → Bool) : Nat := (s.media.sbs.filter (fun b => b.state == 1 && p b)).length
  let unit := g.planes * g.bits * (grainsPerPage g * 4526)
  decide (openOf (fun _ => true) < 20 * 2 ^ 20 / max unit 1) &&
    (if kind = 0 then decide (openOf (fun b => b.kind == 0) < 64) && (! reloc || decide (openOf (fun b => b.kind == 0 && b.reloc) < 16))
     else decide (openOf (fun b => b.kind == 1) < 8))

/-- Open a superblock in a group (R247, R294); a group below 8 members opens none and records 0x2060 (R238). -/
def openIn (g kind : Nat) (reloc high : Bool) (s : State) : Option SbRec × State :=
  if groupSize s g < 8 then
    (none, record 0x2060 pathPkg (le 1 g) s)
  else
    let rows := (List.range 32).filterMap (fun p =>
      if usableDie s (dieOf g p) then (freeRow s (dieOf g p) high).map (fun r => (p, r)) else none)
    if rows.length < 8 then (none, s)
    else
      let seq := s.media.sbSeq + 1
      let ms := rows.map (·.1)
      let parity := match ms.find? (fun p => decide (seq % 32 ≤ p)) with | some p => p | none => ms.headD 0
      let b : SbRec :=
        { seq := seq, kind := kind, state := 1, group := g, parity := parity, members := ms, rows := rows, programmed := 0,
          verified := 0, summary := none, cursor := 0, limit := (ms.length - 1) * wordlines (geoOf s), done := [],
          waitSince := none, live := 0, reloc := reloc, hold := false, lastAt := s.now, high := high }
      (some b, setSb b s)

/-- Open a superblock in the first group, from sequence mod 256 on, that can (log 16). -/
def openFrom (kind : Nat) (reloc high : Bool) : Nat → Nat → State → Option SbRec × State
  | 0, _, s => (none, s)
  | f + 1, g, s =>
    match openIn (g % 256) kind reloc high s with
    | (some b, t) => (some b, t)
    | (none, t) => openFrom kind reloc high f (g + 1) t

/-- A superblock with room for `n` more grains: the open one of lowest sequence, for wear levelling one of worn block rows (R296), else a new
one. Below the reserve only those for relocation, repair and metadata (`vital`) open (R290). -/
def sbFor (kind n : Nat) (vital reloc high : Bool) (s : State) : Option SbRec × State :=
  let room (b : SbRec) : Bool := decide (b.cursor + n ≤ b.limit * unitGrains (geoOf s))
  match s.media.sbs.find? (fun b => b.state == 1 && b.kind == kind && b.reloc == reloc && b.high == high && room b) with
  | some b => (some b, s)
  | none =>
    if mayOpen s kind reloc && (vital || decide (s.media.lowNoted < 2)) then
      match openFrom kind reloc high 256 ((s.media.sbSeq + 1) % 256) s with
      | (some b, t) => (some b, checkFree t)
      | (none, t) => (none, t)
    else (none, s)

/-- Put grains into the next slots of a superblock (R245, R249): filled units are programmed, a partly filled one starts
to wait (R250). Answers the addresses. -/
def fillSb (b : SbRec) (gs : List FGrain) (s : State) : List Nat × State :=
  let g := geoOf s
  let u := max (unitGrains g) 1
  let addrs := (List.range gs.length).map (fun i => slotAddr g b (b.cursor + i))
  let cur := b.cursor + gs.length
  let b' := { b with
    cursor := cur, live := b.live + gs.length
    waitSince := if cur % u = 0 then none else if cur / u = b.cursor / u ∧ b.cursor % u ≠ 0 then b.waitSince else some s.now }
  let t := { s with media := { s.media with
    flash := (addrs.zip gs).foldl (fun m p => aSet p.1 p.2 m) s.media.flash
    unver := s.media.unver ++ addrs } }
  let units := (List.range (cur / u - b.cursor / u)).map (fun i => b.cursor / u + i)
  (addrs, units.foldl (fun t x => issueUnit b' x t) (setSb b' t))

/-- Grains of an item in laying order: a key grain for a long key, then its data grains; the first is the lead grain (R244 to R246,
Table 6.5). -/
def itemGrains (fp : Nat) (i : Item) (ctr seq : Nat) (bytes : List Byte) : List FGrain :=
  let base : FGrain :=
    { kind := 0, fp := fp, counter := ctr, index := 0, ns := i.ns, chunk := i.chunk, version := i.version, len := i.len
      dataGrains := grainsFor i.len, key := i.key, pos := i.pos, k := i.k, m := i.m, replica := i.replica, zext := i.zext, sbSeq := seq, data := [] }
  let long : Bool := decide (16 < i.key.length)
  let ds := (toGrains (grainsFor i.len) bytes).zipIdx.map (fun p => { base with index := p.2, data := p.1, lead := ! long && p.2 == 0 })
  if long then { base with kind := 1, index := 2 ^ 31, data := padTo 4096 i.key, lead := true } :: ds else ds

/-- Same item record. -/
def isItem (i j : Item) : Bool := sameItem i.ns i.chunk i.key i.storeId i.pos j

/-- Lay the bytes of an item into a data superblock under a fresh version counter (R244, R245): the item as it then stands, none
without room, and the state. -/
def layBytes (i : Item) (bytes : List Byte) (s : State) : Option Item × State :=
  let ctr := s.media.counter + 1
  let fp := fpOf (itemHash (kwSecret s) i.ns i.chunk i.key)
  match sbFor 0 (itemGrains fp i ctr 0 bytes).length i.repair false false s with
  | (some b, t) =>
    let (addrs, u) := fillSb b (itemGrains fp i ctr b.seq bytes) t
    (some { i with flash := addrs, sb := b.seq, counter := ctr }, journal [.counter ctr] u)
  | (none, t) => (none, t)

/-- Lay an item from the Cornice (R244, R245). A tombstone occupies no grain; without room the item waits in the Cornice. -/
def layItem (i : Item) (s : State) : State :=
  if i.tomb ∨ ! i.flash.isEmpty then s
  else match layBytes i (itemBytes s i) s with
    | (some j, t) => journal [.item j] t
    | (none, t) => t

/-! ### Verification and the life of a superblock (R254, R257) -/

/-- Read back the grains of a unit that are not verified yet (R254). -/
def verifyUnit (b : SbRec) (u : Nat) (s : State) : State :=
  let g := geoOf s
  let addrs := (List.range (unitGrains g)).map (fun i => slotAddr g b (u * unitGrains g + i))
  (addrs.filter (fun a => s.media.unver.contains a && ! s.media.reads.any (fun r => r.addr == a && r.why == 2))).foldl
    (fun t a => startRead a 2 b.seq 1 1 t) s

/-- Pad the partly filled unit of a superblock and program it; with `early` no further unit follows (R250, R259, R287). -/
def padUnit (early : Bool) (b : SbRec) (s : State) : State :=
  let u := max (unitGrains (geoOf s)) 1
  let n := ceilDiv b.cursor u
  let b' := { b with cursor := n * u, waitSince := none, limit := if early then n else b.limit }
  let t := setSb b' s
  if b.cursor % u = 0 then t
  else journal [.counter (s.media.counter + (n * u - b.cursor))] (issueUnit b' (n - 1) t)

/-- Place of a grain in the write order of its superblock (R249). -/
def writeOrder (g : GeoRec) (a : Nat) : Nat :=
  (((addrWl g a * 2 ^ 7 + a / 2 ^ 41) * 2 ^ 3 + a / 2 ^ 32 % 8) * 2 ^ 12 + a / 16 % 4096) * 2 ^ 4 + a % 16

/-- A summary entry (Table 6.7). -/
def summaryEntry (s : State) (i : Item) : List Byte :=
  le 6 (i.flash.headD 0) ++ le 2 i.flash.length ++ le 8 i.counter ++ le 8 i.version ++
    le 4 (fpOf (itemHash (kwSecret s) i.ns i.chunk i.key)) ++ le 2 i.ns ++ le 2 i.chunk ++ le 1 i.pos ++ le 1 (bit i.replica 0) ++ le 6 0

/-- The summary of a superblock: a header of 64 bytes with its sequence, the entry count and a CRC-32C over the entries, then one entry
for each item in write order (R251). -/
def summaryBytes (s : State) (seq : Nat) : List Byte :=
  let is := (s.kw.items.filter (fun i => i.sb == seq && ! i.flash.isEmpty)).insertionSort
    (fun a b => writeOrder (geoOf s) (a.flash.headD 0) ≤ writeOrder (geoOf s) (b.flash.headD 0))
  let es := is.flatMap (summaryEntry s)
  padTo 64 (le 8 seq ++ le 4 is.length ++ le 4 (crc32c es).toNat) ++ es

/-- Metadata goes to a metadata superblock: each grain under a fresh version counter value, with grain index 0 (R244, R247); the write's
command stands for its programs and their verification, so its grains are not read back again (log 144). Answers the address of the
first grain, none without room. -/
def metaWrite (o : MetaOf) (bytes : List Byte) (s : State) : Option Nat × State :=
  let c := s.media.counter
  let gs := (toGrains (grainsFor bytes.length) bytes).zipIdx.map (fun p =>
    ({ kind := 2, counter := c + 1 + p.2, index := 0, data := p.1, owner := some o } : FGrain))
  match sbFor 1 gs.length true false false s with
  | (some b, t) =>
    let (addrs, u) := fillSb b gs t
    (addrs.head?, journal [.counter (c + gs.length), .metaMap (addrs.zip gs) []] { u with media := { u.media with unver := t.media.unver } })
  | (none, t) => (none, t)

/-- Metadata grains of what has been replaced or has gone are dead (R292). -/
def dropMeta (p : MetaOf → Bool) (s : State) : State :=
  let gone := (s.media.flash.filter (fun x => match x.2.owner with | some o => p o | none => false)).map (·.1)
  if gone.isEmpty then s
  else
    let t := journal [.metaMap [] gone] s
    { t with media := { t.media with sbs := t.media.sbs.map (fun b => { b with live := b.live -
        (gone.filter (fun a => groupOf (addrDie a) == b.group && aGet (posOf (addrDie a)) b.rows == some (addrBlock a))).length }) } }

/-- Write the summary of a closed data superblock to a metadata superblock and record where it is (R251). -/
def writeSummary (b : SbRec) (s : State) : State :=
  match metaWrite (.summary b.seq) (summaryBytes s b.seq) (dropMeta (· == .summary b.seq) s) with
  | (l, t) => setSb { b with summary := l } t

/-- A superblock with no live grain becomes EMPTY and its block rows are erased (R293, Table 6.8). -/
def emptySb (b : SbRec) (s : State) : State :=
  b.members.foldl (fun t p => issueErase b p t) (setSb { b with state := 5 } (dropMeta (· == .summary b.seq) s))

/-- An item has a grain on a lost die, not relaid yet (R265). -/
def strayed (s : State) (i : Item) : Bool := i.flash.any (fun a => s.media.lost.contains (addrDie a))

/-- A superblock is as far as its programs and verification allow (Table 6.8): parity of a complete wordline, CLOSING,
PROTECTED, RELEASED with the parity row erased, EMPTY. Parity held for relaying is let go once no grain is on a lost die (Table 6.10). -/
def advanceSb (seq : Nat) (s : State) : State :=
  match sbBy s seq with
  | none => s
  | some b =>
    let d := (dataMembers b).length
    let stray : Bool := s.kw.items.any (fun i => i.sb == seq && strayed s i)
    let left (t : State) : Bool := t.media.unver.any (fun a => match sbOfAddr t a with | some x => x.seq == seq | none => false)
    if b.state = 1 then
      let us := (List.range d).map (fun i => b.programmed * d + i) |>.filter (fun u => decide (u < b.limit))
      if b.limit ≤ b.programmed * d then
        let b2 := { b with state := 2 }
        let t := setSb b2 s
        (List.range (min d b.limit)).foldl (fun t i => verifyUnit b2 (b.limit - 1 - i) t) t
      else if us.all (fun u => b.done.contains u) ∧
          ¬ s.twin.ops.any (fun o => o.sb == seq && o.op == 2 && o.wl == b.programmed) then issueParity b b.programmed s
      else s
    else if b.state = 2 ∧ ¬ left s ∧ ¬ (b.hold && stray) then
      let b3 := { b with state := 3, hold := false, verified := ceilDiv b.limit (max d 1) }
      if b.kind = 0 then
        let t := writeSummary b3 s
        match sbBy t seq with
        | some b4 =>
          let b5 := { b4 with state := 4 }
          if b5.live = 0 then emptySb b5 t else issueErase b5 b5.parity (setSb b5 t)
        | none => t
      else setSb b3 s
    else if (b.state = 4 ∨ (b.state = 3 ∧ b.kind ≠ 0)) ∧ b.live = 0 then emptySb b s
    else s

/-- Every superblock goes as far as it can. -/
def advanceAll (s : State) : State := (s.media.sbs.map (·.seq)).foldl (fun t q => advanceSb q t) s

/-- Metadata that has been replaced or has gone leaves its superblock, which is erased once nothing in it is live (R292, R293). -/
def deadMeta (p : MetaOf → Bool) (s : State) : State := advanceAll (dropMeta p s)

/-- Grains become dead: they leave the map, and their superblocks lose live grains (R292). -/
def deadGrains (addrs : List Nat) (s : State) : State :=
  let t := addrs.foldl (fun t a =>
    let u := { t with media := { t.media with flash := aDel a t.media.flash, unver := t.media.unver.filter (· != a),
                                              reads := t.media.reads.filter (fun r => ! (r.addr == a && r.why == 2)) } }
    if ! (match aGet a t.media.flash with | some g => ! g.dead | none => false) then u
    else match sbOfAddr t a with
      | some b => { u with media := { u.media with sbs := updIf (fun x => x.seq == b.seq) (fun x => { x with live := x.live - 1 }) u.media.sbs } }
      | none => u) s
  advanceAll t

/-- Tell the coordinator and the entry pair that a holder has an item at a level (R256, Table 8.10). -/
def reportLevel (i : Item) (level : Nat) (s : State) : State :=
  let b : Body := .fragmentAck { storeId := i.storeId, chunk := i.chunk, pos := i.pos, level := level, result := 0, cond := 0,
                                 hint := 0xFFFF, version := if i.repair then i.version else 0, ref := 0 }
  let entry := i.storeId / 2 ^ 48
  let t := milmo i.coord 7 b s
  if entry = i.coord ∨ i.repair then t else milmo entry 7 b t

/-- LOCATION_CHANGE (R256): every grain of an item is verified: the entry points to flash, the Cornice copy goes, D3 is
reported. -/
def locationChange (i : Item) (s : State) : State :=
  let j := { i with d3 := true, grains := [] }
  let ws := rewriteSlot (kwSecret s) s.kw i j
  reportLevel j 3 (corniceFree i.grains (journal (kwRec s 5 ws ++ [.item j]) s))

/-- Items whose grains are all verified change their location. -/
def settleItems (addr : Nat) (s : State) : State :=
  match s.kw.items.find? (fun i => i.flash.contains addr && ! i.d3) with
  | some i => if i.flash.any (fun a => s.media.unver.contains a) then s else locationChange i s
  | none => s

/-! ### Loss of items (R265, R279, R288) -/

/-- Stripe record of an item, as a holder reports it (Table 8.9). -/
def stripeOf (i : Item) : StripeB :=
  { ns := i.ns, chunk := i.chunk, key := i.key, state := i.st, intent := i.intent, tomb := i.tomb, domShort := i.domShort,
    zeroExt := i.zext, final := false, holders := i.holders, version := i.version, greatest := i.version,
    valueLen := i.valueLen, k := i.k, m := i.m, dom := i.dom, thr := i.thr, d3 := if i.d3 then [i.pos] else [] }

/-- An item is lost on this device: it is removed from the Keyway by a release record and its coordinator is told, which
repairs it from peers. Items of a namespace that is purge pending are passed over (R512). -/
def localFailure (i : Item) (s : State) : State :=
  if s.kw.purging.any (fun p => p.1 == i.ns) then s else
  let ws := clearSlot (kwSecret s) s.kw i
  let t := journal (kwRec s 6 ws ++ [.itemDel i.ns i.chunk i.key i.storeId i.pos]) s
  let u := { t with media := { t.media with moves := t.media.moves.filter (fun m => ! sameItem m.ns m.chunk m.key m.storeId m.pos i) } }
  milmo i.coord 7 (.mediaFailure (stripeOf i) i.pos) (corniceFree i.grains (deadGrains i.flash u))

/-- Relay an item from its Cornice copy into another open superblock (R255). -/
def relayItem (i : Item) (s : State) : State :=
  let t := deadGrains i.flash s
  let j := { i with flash := [], sb := 0 }
  layItem j (journal [.item j] t)

/-! ### Relocation (R284 to R286, R301) -/

/-- A relocation begins: every grain of the item is read (R284). -/
def startMove (high : Bool) (rank : Nat) (i : Item) (s : State) : State :=
  if ! i.d3 ∨ s.kw.purging.any (fun p => p.1 == i.ns) ∨ s.media.moves.any (fun m => sameItem m.ns m.chunk m.key m.storeId m.pos i) then s
  else
    let id := s.media.readId
    let m : Move := { id := id, ns := i.ns, chunk := i.chunk, key := i.key, storeId := i.storeId, pos := i.pos, counter := i.counter,
                      left := i.flash, new := [], sb := 0, high := high }
    let t := { s with media := { s.media with moves := s.media.moves ++ [m], readId := id + 1 } }
    i.flash.foldl (fun t a => startRead a 1 id 1 rank t) t

/-- Every source grain is read: the same grains go into a relocation superblock, without released ones while the sparse
item table has room (R284, R301, R302). -/
def writeMove (m : Move) (i : Item) (s : State) : State :=
  let rel := if s.media.sparse.length < 1048576 then i.released else []
  let keep := (((i.flash.filterMap (fun a => aGet a s.media.flash)).filter (fun g => g.lead || ! rel.contains g.index)).map
    (fun g => { g with dead := false }))
  match sbFor 0 keep.length true true m.high s with
  | (some b, t) =>
    let (addrs, u) := fillSb b keep t
    { u with media := { u.media with moves := updIf (fun x => x.id == m.id) (fun x => { x with new := addrs, sb := b.seq }) u.media.moves } }
  | (none, t) => t

/-- An address a read request still waits for. -/
def awaited (s : State) (a : Nat) : Bool := s.media.serves.any (fun v => v.left.contains a)

/-- Grains that a relocation has replaced die, those a read begun before it still waits for once that has ended (Table 4.8). -/
def moveDies (addrs : List Nat) (s : State) : State :=
  let t := { s with media := { s.media with dying := s.media.dying ++ addrs.filter (awaited s) } }
  deadGrains (addrs.filter (fun a => ! awaited s a)) t

/-- Grains replaced by a relocation for which no read waits any more die. -/
def reapDying (s : State) : State :=
  let gone := s.media.dying.filter (fun a => ! awaited s a)
  if gone.isEmpty then s
  else deadGrains gone { s with media := { s.media with dying := s.media.dying.filter (awaited s) } }

/-- Every relocated grain is verified: one location change record, unless the entry no longer points to the source
(R284, Table 7.5). Reads begun before it end on the old grains, which die only then (Table 4.8). -/
def finishMove (m : Move) (s : State) : State :=
  let t := { s with media := { s.media with moves := s.media.moves.filter (fun x => x.id != m.id) } }
  match s.kw.items.find? (sameItem m.ns m.chunk m.key m.storeId m.pos) with
  | some i =>
    if i.counter ≠ m.counter then deadGrains m.new t
    else
      let idx := (m.new.filterMap (fun a => aGet a s.media.flash)).filter (fun g => g.kind != 1) |>.map (·.index)
      let sparse := decide (idx.length < grainsFor i.len)
      let j := { i with flash := m.new, sb := m.sb }
      let u := journal (kwRec t 5 (rewriteSlot (kwSecret t) t.kw i j) ++ [.item j]) t
      let v := { u with media := { u.media with
        moved := u.media.moved + m.new.length
        sparse := let l := aDel (i.flash.headD 0) u.media.sparse
                  if sparse then aSet (m.new.headD 0) idx l else l } }
      moveDies i.flash v
  | none => deadGrains m.new t

/-- A relocated grain was verified. -/
def settleMoves (addr : Nat) (s : State) : State :=
  match s.media.moves.find? (fun m => m.new.contains addr) with
  | some m => if m.new.any (fun a => s.media.unver.contains a) then s else finishMove m s
  | none => s

/-- Items with a grain in a block row. -/
def itemsInRow (s : State) (die block : Nat) : List Item :=
  s.kw.items.filter (fun i => i.flash.any (fun a => addrDie a == die && addrBlock a == block))

/-- Items with a grain in a program unit. -/
def itemsInUnit (s : State) (b : SbRec) (die wl : Nat) : List Item :=
  s.kw.items.filter (fun i => i.sb == b.seq && i.flash.any (fun a => addrDie a == die && addrWl (geoOf s) a == wl))

/-- A unit is not relied on (R255): its items with a Cornice copy are relaid, one that a repair laid and that was not verified yet is
a local media failure, relocations into it start again, the row is reported. -/
def relayUnit (b : SbRec) (die wl : Nat) (s : State) : State :=
  let inUnit (a : Nat) : Bool := addrDie a == die && addrWl (geoOf s) a == wl && addrBlock a == rowOf b (posOf die)
  let a := (itemsInUnit s b die wl).foldl (fun t i =>
    if ! i.grains.isEmpty then relayItem i t else if ! i.d3 then localFailure i t else t) s
  let ms := a.media.moves.filter (fun m => m.new.any inUnit)
  ms.foldl (fun t m =>
    let u := deadGrains m.new { t with media := { t.media with moves := t.media.moves.filter (fun x => x.id != m.id) } }
    match u.kw.items.find? (sameItem m.ns m.chunk m.key m.storeId m.pos) with
    | some i => startMove m.high 0 i u
    | none => u) a

/-! ### Serving reads from flash -/

/-- Bytes of an item from value offset 0, sparse grains as zeros (R301). -/
def flashBytes (s : State) (i : Item) : List Byte :=
  let gs := (i.flash.filterMap (fun a => aGet a s.media.flash)).filter (fun g => g.kind != 1)
  ((List.range (grainsFor i.len)).flatMap (fun n => match gs.find? (fun g => g.index == n) with
    | some g => g.data
    | none => List.replicate 4096 0#8)).take i.len

/-- Payload of an item wherever it is: the Cornice until it is verified on flash (R256). -/
def payloadOf (s : State) (i : Item) : List Byte :=
  if i.tomb then [] else if i.grains.isEmpty then flashBytes s i else itemBytes s i

/-- Data grains of an item on flash that are no longer there: relocation left them out (R301). -/
def goneGrains (s : State) (i : Item) : List Nat :=
  if i.tomb ∨ ! i.grains.isEmpty then []
  else
    let have_ := ((i.flash.filterMap (fun a => aGet a s.media.flash)).filter (fun g => g.kind != 1)).map (·.index)
    (List.range (grainsFor i.len)).filter (fun n => ! have_.contains n)

/-- Read Data for an item (Table 8.8). -/
def readDataOf (s : State) (i : Item) (off : Nat) (bytes : List Byte) (result : Nat) : FragB :=
  { ns := i.ns, chunk := i.chunk, key := i.key, pos := i.pos, k := i.k, m := i.m, storeId := i.storeId, version := i.version,
    len := i.len, valueLen := i.valueLen, segOff := off, verReq := false, replica := i.replica, tomb := i.tomb, repair := false,
    domShort := i.domShort, dom := i.dom, ack := i.ack, thr := i.thr, opts := ⟨false, false, false, 0⟩, result := result,
    holders := i.holders, data := bytes, gone := goneGrains s i }

/-- Number that stands for an item in a ladder unit (log 16). -/
def itemNum (ns chunk : Nat) (key : Key) : Nat × Nat := (1024 * ns + chunk, ofLe (key ++ [1#8]))

/-- Queue value of a serve that is the verification of a queued item (R168, R279). -/
def verifyQueue : Nat := 255

/-- A serve whose grains are all read, or one of which is lost, ends: Read Data with the bytes or with result 2 (Table
8.8), and a local media failure for a lost one; a verification leaves the queue (R279). -/
def finishServe (v : Serve) (s : State) : State :=
  let t := reapDying { s with media := { s.media with serves := s.media.serves.filter (fun x => x.id != v.id) } }
  let n := itemNum v.ns v.chunk v.key
  let u := if v.queue = verifyQueue then
      doneBg 2 n.1 n.2 { t with kw := { t.kw with verify := t.kw.verify.filter (fun x => ! (x.1 == v.ns && x.2.1 == v.chunk && x.2.2 == v.key)) } }
    else t
  match s.kw.items.find? (fun i => i.ns == v.ns && i.chunk == v.chunk && i.key == v.key && i.version == v.version && i.pos == v.pos) with
  | some i =>
    if v.queue = verifyQueue then (if v.failed then localFailure i u else u)
    else if v.failed then localFailure i (milmo v.slot v.queue (.readData (readDataOf u i v.off [] 2)) u)
    else milmo v.slot v.queue (.readData (readDataOf u i v.off (((payloadOf s i).drop v.off).take v.len) 0)) u
  | none => u

/-! ### What a grain read brings (R260, R279, R284, R288) -/

/-- The read has ended. -/
def dropRead (r : GrainRead) (s : State) : State :=
  { s with media := { s.media with reads := s.media.reads.filter (fun x => x.id != r.id) } }

/-- A serve is done with one grain. -/
def serveGrain (r : GrainRead) (ok : Bool) (s : State) : State :=
  match s.media.serves.find? (fun v => v.id == r.of_) with
  | some v =>
    let v' := { v with left := v.left.filter (· != r.addr), failed := v.failed || ! ok }
    if v'.left.isEmpty ∨ v'.failed then
      finishServe v' { s with media := { s.media with reads := s.media.reads.filter (fun x => ! (x.why == 0 && x.of_ == v.id)) } }
    else { s with media := { s.media with serves := updIf (fun x => x.id == v.id) (fun _ => v') s.media.serves } }
  | none => s

/-- A relocation has read one grain; after the last it writes. A lost one is a local media failure of its item and ends
the relocation (R288). -/
def moveGrain (r : GrainRead) (ok : Bool) (s : State) : State :=
  match s.media.moves.find? (fun m => m.id == r.of_) with
  | some m =>
    let m' := { m with left := m.left.filter (· != r.addr) }
    match s.kw.items.find? (sameItem m.ns m.chunk m.key m.storeId m.pos) with
    | some i =>
      if ! ok then
        localFailure i { s with media := { s.media with reads := s.media.reads.filter (fun x => ! (x.why == 1 && x.of_ == m.id)) } }
      else
        let t := { s with media := { s.media with moves := updIf (fun x => x.id == m.id) (fun _ => m') s.media.moves } }
        if m'.left.isEmpty then writeMove m' i t else t
    | none => { s with media := { s.media with moves := s.media.moves.filter (fun x => x.id != m.id) } }
  | none => s

/-- The grain of a read is on hand, or uncorrectable on the device (step 7). -/
def readEnds (r : GrainRead) (ok : Bool) (s : State) : State :=
  let t := dropRead r s
  if r.why = 0 then serveGrain r ok t else moveGrain r ok t

/-- The next step of the ladder for a grain that step `st` did not give (Table 6.11): step 2 only where the drift table
holds other levels than the defaults, step 6 only while the superblock keeps parity, 7 when nothing is left. -/
def nextStep (s : State) (r : GrainRead) (st : Nat) : Nat :=
  let drifted : Bool := match s.media.drift.find? (fun e => e.1 == addrDie r.addr && e.2.1 == blockGroup (geoOf s) r.addr) with
    | some e => decide (e.2.2.1 ≠ 0)
    | none => false
  let six : Nat := match sbOfAddr s r.addr with | some b => if keepsParity b then 6 else 7 | none => 7
  if st = 1 then cond drifted 2 3 else if st < 5 then st + 1 else if st = 5 then six else 7


/-! ### Retirement and loss of dies (R265, R297 to R299) -/

/-- Closing causes in force: 1 Keyway at its admission limit (R161), 2 free superblocks below the reserve (R291), 3 no spare left
(R299), 4 a shutdown (R594). -/
def causesNow (s : State) : List Nat :=
  (if admissionLimit s.kw.dram ≤ entries s.kw then [1] else []) ++ (if 2 ≤ s.media.lowNoted then [2] else []) ++
    (if 2 ≤ s.media.spareNoted then [3] else []) ++ (if inShutdown s then [4] else [])

/-- A pair announces CLOSED as soon as a closing cause arises (R308). -/
def checkCauses (s : State) : State :=
  let cs := causesNow s
  let t := { s with ice := { s.ice with causes := cs } }
  if cs.isEmpty then (if s.ice.causes.isEmpty then t else { t with ice := { t.ice with causesEnded := some s.now } })
  else if s.ice.own = .placing then announceOwn .closed { t with ice := { t.ice with closedAt := s.now, causesEnded := none } }
  else { t with ice := { t.ice with causesEnded := none } }

/-- A metadata superblock has lost a second member before its rewrite ended: the images it held are incomplete granules, to be rebuilt
within 4 h; the delta log and ledger runs it held are rebuilt from media and written again (R163, R186, R265). -/
def loseMeta (die : Nat) (b : SbRec) (s : State) : State :=
  let hit := s.media.flash.filter (fun x => addrDie x.1 == die && aGet (posOf die) b.rows == some (addrBlock x.1))
  let gs := (hit.filterMap (fun x => match x.2.owner with | some (.image g p) => some (g, p) | _ => none)).eraseDups
  let t := gs.foldl (fun t x =>
    addBg 11 x.1 0 (secNs 14400) { t with kw := { t.kw with
      incomplete := sIns x.1 t.kw.incomplete
      images := updIf (fun i => i.granule == x.1 && i.place == x.2) (fun i => { i with valid := false }) t.kw.images } }) s
  dropMeta (fun o => match o with | .image g p => gs.contains (g, p) | _ => false) t

/-- What a superblock with a member on a lost die does (Table 6.10, R265). -/
def loseMember (die : Nat) (s : State) (b0 : SbRec) : State :=
  match sbBy s b0.seq with
  | none => s
  | some b =>
    let p := posOf die
    let again : Bool := b.hold && s.kw.items.any (fun i => i.sb == b.seq && i.flash.any (fun a => addrDie a != die && s.media.lost.contains (addrDie a)))
    let onDie (i : Item) : Bool := i.sb == b.seq && strayed s i
    let b' := { b with members := b.members.filter (· != p), rows := aDel p b.rows }
    if b.kind = 1 then
      addBg 10 b.seq 0 (secNs 3600) (setSb b' (if s.media.bg.any (fun u => u.kind == 10 && u.id == b.seq) then loseMeta die b s else s))
    else if ! keepsParity b ∨ again then
      (s.kw.items.filter onDie).foldl (fun t i => if i.grains.isEmpty then localFailure i t else relayItem i t) (setSb b' s)
    else
      let t := if b.state = 1 then padUnit true b s else s
      let held := match sbBy t b.seq with | some x => { x with hold := true } | none => { b with hold := true }
      let u := setSb held t
      let v := (u.kw.items.filter onDie).foldl (fun t i =>
        if i.d3 then startMove false 0 i t else if i.grains.isEmpty then localFailure i t else relayItem i t) u
      match sbBy v b.seq with
      | some x => setSb { x with members := x.members.filter (· != p), rows := aDel p x.rows } v
      | none => v

/-- A die is lost (R265): 0x2050, it leaves its parity group, its operations and reads end, items are relaid,
reconstructed or reported for repair, metadata superblocks are to be rewritten within 1 h. -/
def loseDie (die : Nat) (s : State) : State :=
  if s.media.lost.contains die then s
  else
    let a := record 0x2050 (pathFlashDie die) (le 2 die) { s with
      media := { s.media with
        lost := sIns die s.media.lost
        unver := s.media.unver.filter (fun x => addrDie x != die)
        reads := updIf (fun r => addrDie r.addr == die) (fun r => { r with step := 6 })
          (s.media.reads.filter (fun r => ! (addrDie r.addr == die && r.why == 2))) }
      twin := { s.twin with ops := s.twin.ops.filter (fun o => o.die != die) }
      power := noteTotal s.now { s.power with granted := s.power.granted.filter (fun r => r.die != die)
                                              waiting := s.power.waiting.filter (fun r => r.die != die)
                                              behind := s.power.behind.filter (fun x => ! s.media.reads.any (fun r => r.id == x && addrDie r.addr == die)) } }
    let b := (a.media.sbs.filter (fun x => x.group == groupOf die && x.members.contains (posOf die))).foldl (loseMember die) a
    let c := if groupSize b (groupOf die) < 8 then record 0x2060 pathPkg (le 1 (groupOf die)) b else b
    checkSpare (checkFree (advanceAll c))

/-- Every die of a channel is lost with its sequencer, or with both its cipher engines (R265, R499). -/
def loseChannel (channel : Nat) (s : State) : State :=
  ((List.range 64).map (fun i => 64 * channel + i)).foldl (fun t d => if usableDie t d then loseDie d t else t) s

end Sys2Proof.Machine
end

