-- ==== Sys2Proof/Machine/Yield.lean ====
section
/-! DEFINITION. Giving the pair away: yield, planned takeover, and what a criterion of Table 10.10 brings (R427 to R431,
R442, R443). -/

namespace Sys2Proof.Machine

/-- 24 h in ns. -/
def dayNs : Nat := 86400 * 1000000000

/-- A Health Report no older than 100 µs shows a healthy STANDBY (R428). -/
def mayYield (s : State) : Bool := hasStandby s && decide (s.now ≤ s.twin.reportAt + 100000)

/-- To yield: the Yield frame, event 0x4020, hold released in the order of R402, YIELDED; the third yield within 24 h
leaves the device YIELDED until its next cold start with 0x4023 (R429, R431). -/
def doYield (crit detail : Nat) (s : State) : State :=
  let recent := s.twin.yields.filter (fun t => decide (s.now < t + dayNs)) ++ [s.now]
  let a := record 0x4020 pathTwin (le 1 crit) (sendFrame (.yield crit detail s.now) s)
  let b := releaseHold { a with twin := { a.twin with
    roleState := .yielded, healthy := false, planned := none, closedDoor := false, yields := recent, yieldAt := some s.now } }
  if 3 ≤ recent.length then
    record 0x4023 pathTwin (recent.flatMap (le 8)) { b with twin := { b.twin with noRole := true } }
  else b

/-- Whether a criterion leaves the device unable to reach flash or memory: loss of FREFCLK or MREFCLK (R428). -/
def cutsOff (crit detail : Nat) : Bool := crit == 3 && (detail == 1 || detail == 2)

/-- A criterion becomes true (R427, R428): a STANDBY is not healthy and reports it; an ACTIVE with a fresh report of a
healthy STANDBY yields; while the link retrains it waits; otherwise 0x4022 and degraded service. -/
def criterionTrue (crit detail : Nat) (s : State) : State :=
  let t := { s with twin := { s.twin with criterion := crit, detail := detail }, boot := { s.boot with spoiled := true } }
  match t.twin.roleState with
  | .active =>
    if t.twin.trainSince.isSome then t
    else if mayYield t then doYield crit detail t
    else
      let u := record 0x4022 pathTwin (le 1 crit ++ le 1 1) t
      if cutsOff crit detail then { u with start := { u.start with stoppedServing := true } } else u
  | .standby => { t with twin := { t.twin with healthy := false } }
  | .solo => if cutsOff crit detail then { t with start := { t.start with stoppedServing := true } } else t
  | _ => t

/-- A critical-path deadline miss, and the criterion of row 4 once the rate is exceeded (Table 10.10). -/
def missAndJudge (s : State) : State :=
  let t := criticalMiss s
  if missesExceeded t then criterionTrue 4 (min 255 (missesInWindow t)) t else t

/-- Stands for a connection where a planned takeover is the device's own; the command then tells why: 0 thermal (R472), 1 memory
error (R526), 2 shutdown (R594), 3 update (R620). -/
def ownConn : Nat := 0xFFFFFFFE

/-- Steps 2 and 3 of a planned takeover: no new command is accepted, the Handoff frame goes out (R442). One that runs goes on. -/
def beginPlanned (conn cid : Nat) (s : State) : State :=
  let n := s.twin.txSeq
  if s.twin.planned.isSome then s
  else sendFrame (.handoff n) { s with twin := { s.twin with closedDoor := true, planned := some (n, conn, cid) } }

/-- Hello of this device (Table 10.5). -/
def myHello (s : State) (firnSize check geo : Nat) : HelloB :=
  { major := 1, minor := 0, role := s.keeper.role, state := s.twin.roleState,
    cfgSeq := match s.cfg with | some c => c.seq | none => 0
    serial := s.serial, pair := match s.cfg with | some c => c.pair | none => 0
    dram := s.kw.dram, firn := firnSize, fw := s.boot.fwVer, check := check, geo := geo, stage := s.twin.joinStage }

/-- Firn size in bytes (R3, Table 0.1). -/
def firnBytes : Nat := 2 ^ 31

/-- Bytes of the Flash geometry record body in the order of Table 14.10, for its digest (Table 10.5). -/
def geoBytes (g : GeoRec) : List Byte :=
  le 1 (if g.soloBus then 1 else 0) ++ le 1 (if g.jedec then 1 else 0) ++ le 2 g.rate ++ le 1 g.bits ++ le 1 g.planes
    ++ le 2 (g.page / 1024) ++ le 2 g.spare ++ le 2 g.pages ++ le 4 g.blocks ++ le 4 g.gbit

/-- Key check value of the pair root key held, 0 without one (R487). -/
def pairCheck (s : State) : Nat := s.sec.root.getD 0

/-- Geometry digest: CRC-32C of the Flash geometry record body (Table 10.5). -/
def geoDigest (s : State) : Nat := match s.cfg with | some c => (crc32c (geoBytes c.geo)).toNat | none => 0

/-- The Hello this device sends. -/
def ownHello (s : State) : HelloB := myHello s firnBytes (pairCheck s) (geoDigest s)

/-- Send the Hello that opens a session: frame 1 of each direction (R413, R416). -/
def sendHello (s : State) : State :=
  { s with
    out := s.out ++ hingeOut 1 (.hello (ownHello s))
    twin := pumpFlits { s.twin with
      helloSent := true, txSeq := 2, rxSeq := 0, flitWait := s.twin.flitWait ++ flitsOf (hingeBytes 1 (.hello (ownHello s))) } }

/-- Step 4 of a planned takeover, once the Handoff is acknowledged: hold released, 0x4070, and the former ACTIVE is
STANDBY at once, without a join; a new link session starts with its Hello (R442, R443). -/
def finishPlanned (n : Nat) (s : State) : State :=
  let a := record 0x4070 pathTwin (le 8 n) (releaseHold s)
  sendHello { a with held := [], twin := { a.twin with
    roleState := .standby, healthy := false, planned := none, closedDoor := false, session := false, unacked := [],
    joinStage := 3, twinHello := none, report := none } }

end Sys2Proof.Machine
end

