-- ==== Sys2Proof/Machine/MediaFamily.lean ====
section
/-! DEFINITION. Programs, reads and erases that end, the reading ladder, the sweep, relocation, read counters, loss of dies and
the aging ladder (chapters 6 and 7). -/

namespace Sys2Proof.Machine

/-! ### Program units (R250, R254, R255) -/

/-- PROGRAM_UNIT_TIMEOUT (R250): a unit that has waited 50 ms with some slots filled is padded and programmed. -/
def mediaProgramUnitTimeout (sb : Nat) (s : State) : Result :=
  match sbBy s sb with
  | some b => match b.waitSince with
    | some t => onlyIf (running s && holdsPair s && decide (b.state = 1) && decide (t + 50000000 ≤ s.now)) (padUnit false b) s
    | none => .next s
  | none => .next s

/-- Program unit number of a member's wordline (R249). -/
def unitOf (b : SbRec) (p wl : Nat) : Nat := wl * (dataMembers b).length + (dataMembers b).idxOf p

/-- A block row with programmed pages is a unit of the sweep from its first program on (Table 7.1). -/
def addSweep (die block : Nat) (s : State) : State := addBg 1 die block (secNs ((mediaOf s).sweepDays * 86400)) s

/-- The operation of a die that is out at a block row and wordline. -/
def opAt (s : State) (die block wl : Nat) (p : Nat → Bool) : Option OpEntry :=
  s.twin.ops.find? (fun o => o.die == die && o.block == block && o.wl == wl && o.state == 2 && p o.op)

/-- A program has failed (R255, Table 7.4): event 0x2020, the items of the unit are relaid, the block is retired. -/
def programFailed (b : SbRec) (die block wl : Nat) (s : State) : State :=
  retireBlock 2 die block (relayUnit b die wl (record 0x2020 (pathFlashDie die) (le 2 die ++ le 2 block ++ le 2 wl) s))

/-- A data unit is programmed: the wordline before it in the same block row is read back (R254), and the superblock goes
on: parity of a complete wordline, closing (R250 to R252, R257). -/
def unitDone (b : SbRec) (u : Nat) (s : State) : State :=
  let b' := { b with done := sIns u b.done, lastAt := s.now }
  let t := setSb b' s
  let d := (dataMembers b).length
  advanceSb b.seq (if d ≤ u then verifyUnit b' (u - d) t else t)

/-- The parity of a wordline is programmed (R252). -/
def parityDone (b : SbRec) (s : State) : State :=
  let d := (dataMembers b).length
  advanceSb b.seq (setSb { b with
    programmed := b.programmed + 1, lastAt := s.now
    done := b.done.filter (fun u => decide ((b.programmed + 1) * d ≤ u)) } s)

/-- FLASH_PROGRAM_COMPLETE (R252, R254, R255): a die reports the end of a program, with its status. -/
def mediaFlashProgramComplete (die block wl : Nat) (ok : Bool) (s : State) : Result :=
  match opAt s die block wl (fun o => o == 1 || o == 2) with
  | none => .next s
  | some o =>
    onlyIf (running s && holdsPair s) (fun s =>
      let t := addSweep die block (endOp o s)
      match sbBy t o.sb with
      | none => t
      | some b =>
        let u := if ok then t else programFailed b die block wl t
        match sbBy u o.sb with
        | none => u
        | some c =>
          if o.op = 2 then parityDone c u
          else if ok then unitDone c (unitOf c (posOf die) wl) u
          else advanceSb c.seq (setSb { c with done := sIns (unitOf c (posOf die) wl) c.done } u)) s

/-! ### Reads (R254, R260 to R263) -/

/-- A grain passes verification: it decodes at step 1 with at most 116 corrected bits, and tag and CRC check (R254). -/
def verifies (step bits : Nat) (decoded tagOk crcOk : Bool) : Bool :=
  decoded && decide (step = 1) && decide (bits ≤ 116) && tagOk && crcOk

/-- A grain is verified: its item or its relocation may be complete, and its superblock may go on (R256, R284, R257). -/
def grainVerified (r : GrainRead) (s : State) : State :=
  let t := { s with media := { s.media with unver := s.media.unver.filter (· != r.addr) } }
  advanceSb r.of_ (settleMoves r.addr (settleItems r.addr t))

/-- A grain fails verification: event 0x2030, the unit is relaid and its slots are dead; the second failure in the life of
a block row retires it (R255, Table 7.4). -/
def grainFailed (r : GrainRead) (s : State) : State :=
  let die := addrDie r.addr
  let block := addrBlock r.addr
  let wl := addrWl (geoOf s) r.addr
  let a := record 0x2030 (pathFlashDie die) (le 6 r.addr) s
  let again : Bool := a.media.vfails.contains (die, block)
  let b := match sbBy a r.of_ with | some x => relayUnit x die wl a | none => a
  let c := { b with media := { b.media with
    vfails := if again then b.media.vfails else b.media.vfails ++ [(die, block)]
    unver := b.media.unver.filter (fun x => ! (addrDie x == die && addrBlock x == block && addrWl (geoOf s) x == wl)) } }
  advanceSb r.of_ (if again then retireBlock 3 die block c else c)

/-- Issue a read again at a further step of the ladder, or end it where no step is left. -/
def climb (r : GrainRead) (step : Nat) (s : State) : State :=
  if 7 ≤ step then readEnds r false s
  else
    let t := { s with media := { s.media with reads := updIf (fun x => x.id == r.id) (fun x => { x with step := step }) s.media.reads } }
    let n := if step = 3 then 8 else if step = 4 ∨ step = 5 then 2 else 1
    countRead (addrDie r.addr) (addrBlock r.addr) n
      (askTokens 0 n r.rank (addrDie r.addr) (readBlock r.id) 0 t)

/-- What a decode at a step reports of its block row (R261, R262): rewrite above 162 corrected bits or from step 4 on, event
0x2040 from step 4 on, and the drift table entry of the levels used from step 2 on. -/
def noteDecode (r : GrainRead) (step bits levels : Nat) (s : State) : State :=
  let die := addrDie r.addr
  let block := addrBlock r.addr
  let grp := blockGroup (geoOf s) r.addr
  let a := if 2 ≤ step ∧ step ≤ 5 then
      let t := journal [.drift die grp (levels % 2 ^ 60)] s
      { t with media := { t.media with driftNew := if t.media.driftNew.contains (die, grp) then t.media.driftNew else t.media.driftNew ++ [(die, grp)] } }
    else s
  if 4 ≤ step then reportRow 4 die block (record 0x2040 (pathFlashDie die) (le 6 r.addr ++ le 1 step ++ le 2 bits) a)
  else if 162 < bits then reportRow 3 die block a else a

/-- Rewrite units whose block row holds no item any more are complete and leave the ladder (R274, R285). -/
def settleRewrites (s : State) : State :=
  { s with media := { s.media with bg := s.media.bg.filter (fun u =>
      ! ((u.kind == 3 || u.kind == 4 || u.kind == 5) && (itemsInRow s (u.id / 65536) (u.id % 65536)).isEmpty)) } }

/-- A grain that decoded is opened by a cipher engine (R242, R491). -/
def openGrain (r : GrainRead) (decoded : Bool) (s : State) : State :=
  match aGet r.addr s.media.flash with
  | some g => if decoded then useGrainKey g.kind g.ns s else s
  | none => s

/-- FLASH_READ_COMPLETE (R254, R260 to R262, R243): a grain read ends at its step with the decoder's verdict, the bits it
corrected, the tag and CRC checks, and the levels it used. -/
def mediaFlashReadComplete (id step bits : Nat) (decoded tagOk crcOk : Bool) (levels : Nat) (s : State) : Result :=
  match s.media.reads.find? (fun r => r.id == id && r.step == step) with
  | none => .next s
  | some r =>
    onlyIf (running s && holdsPair s) (fun s =>
      let a := openGrain r decoded (returnTokens (addrDie r.addr) (readBlock r.id) 0 s)
      if r.why = 2 then
        let t := dropRead r a
        if verifies step bits decoded tagOk crcOk then settleRewrites (grainVerified r t) else grainFailed r t
      else if ! decoded then climb r (nextStep a r step) a
      else
        let b := noteDecode r step bits levels a
        if tagOk ∧ crcOk then settleRewrites (readEnds r true b)
        else
          let erased : Bool := match aGet r.addr b.media.flash with
            | some g => b.kw.purging.any (fun p => p.1 == g.ns)
            | none => false
          let t := if erased then b
            else record 0x2041 (pathFlashDie (addrDie r.addr)) (le 1 (if tagOk then 2 else 1) ++ le 6 r.addr) b
          climb r (nextStep t r (max step 5)) t) s

/-- READING_LADDER_DEADLINE (R263): steps 1 to 5 have not ended within 5 ms: 0x9230, a critical-path miss, and the grain
passes to step 6 or 7. -/
def mediaReadingLadderDeadline (id : Nat) (s : State) : Result :=
  match s.media.reads.find? (fun r => r.id == id) with
  | none => .next s
  | some r =>
    onlyIf (running s && holdsPair s && decide (r.step ≤ 5) && ! r.noted && decide (r.at_ + 5000000 < s.now)) (fun s =>
      let a := returnTokens (addrDie r.addr) (readBlock r.id) 0
        { s with media := { s.media with reads := updIf (fun x => x.id == id) (fun x => { x with noted := true }) s.media.reads } }
      let b := record 0x9230 (pathMonitor 0) (le 6 r.addr) a
      let c := if r.why = 2 then grainFailed r (dropRead r b) else climb r (nextStep b r 5) b
      missAndJudge c) s

/-! ### Erases (R270, R289, R293 to R298) -/

/-- Spread of a die: greatest less least P/E count of its usable block rows (R295). -/
def spreadOf (s : State) (d : Nat) : Nat :=
  let ns := (s.media.pe.filter (fun x => x.1 == d && decide (3 ≤ x.2.1) && ! s.media.bad.contains (d, x.2.1))).map (·.2.2)
  let least := if ns.length < usableRows s d then 0 else minL ns
  maxL ns - least

/-- Static wear levelling of a die becomes due when its spread exceeds the threshold, and ends when it is back (R296). -/
def checkSpread (d : Nat) (s : State) : State :=
  if (mediaOf s).spread < spreadOf s d then addBg 6 d 0 (secNs (72 * 3600)) s else doneBg 6 d 0 s

/-- The block row leaves its superblock, which is FREE once it has none left (Table 6.8). -/
def rowGone (die : Nat) (b : SbRec) (s : State) : State :=
  let b' := { b with rows := aDel (posOf die) b.rows }
  setSb (if b.state = 5 ∧ b'.rows.isEmpty then { b' with state := 0 } else b') s

/-- The spill set that uses a block row of a die: 0 A, 1 B (R266). -/
def spillOwner (s : State) (die block : Nat) : Option Nat :=
  if (aGet die s.media.setA.repl).getD 1 = block then some 0
  else if (aGet die s.media.setB.repl).getD 2 = block then some 1 else none

/-- A spill block is replaced: by the plane-0 block of a retired block row of its die where one is left, before any other
block row gives one up; only while its set is erased (R298). -/
def replaceSpill (die set : Nat) (s : State) : State :=
  let x := spillSet s set
  if x.state = 1 then s
  else
    let used := [s.media.setA, s.media.setB].filterMap (fun y => aGet die y.repl)
    let spare := (s.media.bad.filter (fun b => b.1 == die && decide (3 ≤ b.2) && ! used.contains b.2)).map (·.2)
    match spare with
    | r :: _ => setSpill set { x with repl := aSet die r x.repl } s
    | [] => match freeRow s die false with
      | some r => journal [.bad die r] (setSpill set { x with repl := aSet die r x.repl } s)
      | none => s

/-- Items that wait in the Cornice and relocations that wait for a superblock go on once one may open (R290). -/
def layWaiting (s : State) : State :=
  let a := (s.kw.items.filter (fun i => i.flash.isEmpty && ! i.grains.isEmpty && ! i.d3)).foldl (fun t i => layItem i t) s
  (a.media.moves.filter (fun m => m.left.isEmpty && m.new.isEmpty)).foldl (fun t m =>
    match t.kw.items.find? (sameItem m.ns m.chunk m.key m.storeId m.pos) with
    | some i => writeMove m i t
    | none => t) a

/-- FLASH_ERASE_COMPLETE (R281, R289, R293, R295, R297): a die reports the end of an erase. A block row returns to the free
list with its P/E count raised and its read counter 0; one that fails is retired. A failed block of a spill set is replaced. -/
def mediaFlashEraseComplete (die block : Nat) (ok : Bool) (s : State) : Result :=
  match opAt s die block 0 (fun o => o == 3) with
  | some o =>
    onlyIf (running s && holdsPair s) (fun s =>
      let a := endOp o s
      let b := doneBg 1 die block { a with media := { a.media with
        rdc := a.media.rdc.filter (fun x => ! (x.1 == die && x.2.1 == block)) } }
      let c := journal [.pe die block (peOf b die block + 1)] b
      let d := match sbBy c o.sb with | some x => rowGone die x c | none => c
      layWaiting (checkFree (checkSpread die (if ok then d else retireBlock 1 die block d)))) s
  | none => match spillOwner s die block with
    | some n => onlyIf (running s && holdsPair s && ! ok) (fun s =>
        replaceSpill die n (record 0x2080 (pathFlashDie die) (le 1 1 ++ le 2 die ++ le 2 block) s)) s
    | none => .next s

/-- SPILL_SET_ERASE (R270, R459): a set whose restored grains have all left the Cornice, or that holds no complete flush,
is erased and verified as erased; the gauge may then be reported passed. Blocks worn past 10 times the spread threshold are
replaced (R298). -/
def mediaSpillSetErase (set : Nat) (ok : Bool) (s : State) : Result :=
  let x := spillSet s set
  onlyIf (running s && (holdsPair s || firstStarting s) && decide (set < 2) && decide (x.state ≠ 0) && s.power.flush.isNone &&
      (! x.complete || (s.media.restored.isEmpty && decide (s.media.lastSet = set ∨ x.state = 2)))) (fun s =>
    let t := setSpill set { x with state := if ok then 0 else 2, complete := false, grains := [], bad := [], pe := x.pe + 1 } s
    let n := 10 * (mediaOf s).spread
    let u := if ok ∧ (x.pe + 1) % max n 1 = 0 then
        (List.range 8192).foldl (fun t d => if usableDie t d then replaceSpill d set t else t) t
      else t
    reportGauge (if ok ∧ x.complete then journal [.flush x.flush set false] u else u)) s

/-- A die with an operation or read out has given no ready status for 10 ms beyond its longest operation time, which the maker of the
die fixes (R265, log 151). -/
def silentDie (s : State) (die : Nat) : Bool :=
  let last := Config.dieOpTime.toNat + 10000000
  s.twin.ops.any (fun o => o.die == die && o.state == 2 && decide (o.issued + last ≤ s.now)) ||
    s.media.reads.any (fun r => addrDie r.addr == die && decide (r.at_ + last ≤ s.now))

/-- DIE_READY_TIMEOUT (R265): a die that gives no ready status is lost. -/
def mediaDieReadyTimeout (die : Nat) (s : State) : Result :=
  onlyIf (running s && holdsPair s && usableDie s die && silentDie s die) (loseDie die) s

/-! ### The aging ladder (R271 to R275) -/

/-- BACKGROUND_LEVEL_RISE (R272): a unit takes the level of its own age. -/
def mediaBackgroundLevelRise (kind id id2 : Nat) (s : State) : Result :=
  match s.media.bg.find? (fun u => u.kind == kind && u.id == id && u.id2 == id2) with
  | some u => onlyIf (running s && decide (u.level < ageLevel s.now u)) (fun s =>
      { s with media := { s.media with bg := updIf (fun x => x == u) (fun x => { x with level := ageLevel s.now u }) s.media.bg } }) s
  | none => .next s

/-- BACKGROUND_DEADLINE (R272 to R274): a unit reaches its deadline: the fault of its task, with the unit, its age in
seconds and how many units of the task are overdue; the unit is urgent. -/
def mediaBackgroundDeadline (kind id id2 : Nat) (s : State) : Result :=
  match s.media.bg.find? (fun u => u.kind == kind && u.id == id && u.id2 == id2) with
  | some u => onlyIf (running s && holdsPair s && ! u.fault && decide (u.due + u.span ≤ s.now)) (fun s =>
      let overdue := (s.media.bg.filter (fun x => x.kind == kind && decide (x.due + x.span ≤ s.now))).length
      record (bgFault kind id2) (pathMonitor 0) (le 8 id ++ le 8 id2 ++ le 8 ((s.now - u.due) / 1000000000) ++ le 4 overdue)
        { s with media := { s.media with bg := updIf (fun x => x == u) (fun x => { x with fault := true, level := 2 }) s.media.bg } }) s
  | none => .next s

/-! ### Sweep (R276 to R280) -/

/-- Verification of a queued item: every grain is read and checked (R279); an item in the Cornice has none on flash. -/
def verifyItem (i : Item) (s : State) : State :=
  let id := s.media.readId
  let v : Serve := { id := id, slot := 0, queue := verifyQueue, ns := i.ns, chunk := i.chunk, key := i.key, version := i.version, pos := i.pos,
                     off := 0, len := 0, left := i.flash, failed := false }
  if i.flash.isEmpty then finishServe v s
  else
    let t := { s with media := { s.media with serves := s.media.serves ++ [v], readId := id + 1 } }
    i.flash.foldl (fun t a => startRead a 0 id 1 0 t) t

/-- What the sweep does with a grain that is uncorrectable through step 6 (R279, R265, R269). -/
def sweepLost (s : State) (a : Nat) : State :=
  let die := addrDie a
  let block := addrBlock a
  match sbOfAddr s a with
  | some b =>
    if b.kind = 1 then addBg 10 b.seq 0 (secNs 3600) (record 0x2042 (pathFlashDie die) (le 6 a) s)
    else
      let t := reportRow 4 die block (record 0x2042 (pathFlashDie die) (le 6 a) s)
      match t.kw.items.find? (fun i => i.flash.contains a) with
      | some i => localFailure i t
      | none => t
  | none => recordAs 0x2042 6 (pathFlashDie die) (le 6 a) s

/-- A block row is the oldest of its die that the sweep has to visit (R277). -/
def oldestRow (s : State) (die block : Nat) : Bool :=
  s.media.bg.any (fun u => isUnit 1 die block u && s.media.bg.all (fun x => ! (x.kind == 1 && x.id == die) || decide (u.due ≤ x.due)))

/-- SWEEP_VISIT (R276 to R280, R264): the programmed codewords of a block row are read at step 1; `bits` is the greatest
number of corrected bits, `bitsDefault` that of the page read also at the die defaults for a drift entry of age 15, `failed`
the grain addresses uncorrectable through step 6. The reference block of a die is tested instead (block 0). -/
def mediaSweepVisit (die block bits bitsDefault : Nat) (failed : List Nat) (s : State) : Result :=
  if block = 0 then
    onlyIf (bgGranted (unitLevel s (fun u => u.kind == 1 && u.id == die)) s && usableDie s die) (fun s =>
      let t := countRead die 0 4 s
      if bits ≤ 116 ∧ failed.isEmpty then t else loseDie die t) s
  else
    onlyIf (bgGranted (unitLevel s (isUnit 1 die block)) s && usableDie s die && oldestRow s die block) (fun s =>
      let reads := match sbAt s die block with | some b => (geoOf s).bits * max 1 b.programmed | none => 1
      let a := countRead die block reads s
      let grp := blockGroup (geoOf s) (block * 2 ^ 16)
      let old := a.media.drift.find? (fun e => e.1 == die && e.2.1 == grp && e.2.2.2 == 15)
      let b := match old with
        | some e =>
          let t := journal [.drift die grp (if bitsDefault < bits then 0 else e.2.2.1)] a
          { t with media := { t.media with driftNew := t.media.driftNew ++ [(die, grp)] } }
        | none => a
      let c := if 162 < bits then reportRow 3 die block b else b
      let d := failed.foldl sweepLost c
      let queued := d.kw.items.filter (fun i => i.flash.any (fun x => addrDie x == die && addrBlock x == block) &&
        d.kw.verify.any (fun v => v.1 == i.ns && v.2.1 == i.chunk && v.2.2 == i.key))
      let e := queued.foldl (fun t i => verifyItem i t) d
      addSweep die block (doneBg 1 die block e)) s

/-- SWEEP_PASS_END (R280): every block row has been visited in this pass: entries not written in it age by one, up to 15,
and the next pass begins. -/
def mediaSweepPassEnd (s : State) : Result :=
  onlyIf (bgGranted (unitLevel s (ofKind 1)) s && decide (s.media.sweepAt < s.now) &&
      (s.media.bg.filter (fun u => u.kind == 1)).all (fun u => decide (s.media.sweepAt ≤ u.due))) (fun s =>
    let stale := s.media.drift.filter (fun e => ! s.media.driftNew.contains (e.1, e.2.1) && decide (e.2.2.2 < 15))
    let t := if stale.isEmpty then s
      else journal (stale.map (fun e => .drift e.1 e.2.1 (e.2.2.1 + (e.2.2.2 + 1) * 2 ^ 60))) s
    { t with media := { t.media with driftNew := [], sweepAt := s.now } }) s

/-- READ_COUNTER_COPY (R281): every second the read counters are copied to Firn and sent to the STANDBY. -/
def mediaReadCounterCopy (s : State) : Result :=
  onlyIf (running s && holdsPair s && decide (s.media.copiedAt + 1000000000 ≤ s.now)) (fun s =>
    mirror (.counters s.media.rdc) { s with media := { s.media with rdcCopy := s.media.rdc, copiedAt := s.now } }) s

/-! ### Relocation (R284 to R287, R292, R296) -/

/-- A metadata superblock is rewritten to a new one, its codewords unchanged, and its own is emptied (R244, R265). -/
def rewriteMeta (b : SbRec) (s : State) : State :=
  let old := s.media.flash.filter (fun x => match sbOfAddr s x.1 with | some y => y.seq == b.seq | none => false)
  match sbFor 1 old.length true false false (setSb { b with limit := min b.limit (ceilDiv b.cursor (max (unitGrains (geoOf s)) 1)) } s) with
  | (some m, t) =>
    if m.seq = b.seq then t
    else
      let (addrs, u) := fillSb m (old.map (·.2)) t
      let v := journal [.metaMap (addrs.zip (old.map (·.2))) (old.map (·.1))] { u with media := { u.media with unver := t.media.unver } }
      advanceSb b.seq (match sbBy v b.seq with | some x => setSb { x with live := 0 } (doneBg 10 b.seq 0 v) | none => v)
  | (none, t) => t

/-- REWRITE (R284 to R287, R265): the items with a grain in a reported block row are relocated; an OPEN superblock is closed
early first. A metadata superblock is rewritten whole. -/
def mediaRewrite (die block : Nat) (s : State) : Result :=
  let id := 65536 * die + block
  match s.media.bg.find? (isRewrite id) with
  | some u => onlyIf (bgGranted (unitLevel s (isRewrite id)) s) (fun s =>
      match sbAt s die block with
      | some b =>
        if b.kind = 1 then doneBg u.kind id 0 (rewriteMeta b s)
        else
          let t := if b.state = 1 then padUnit true b s else s
          settleRewrites ((itemsInRow t die block).foldl (fun t i => startMove false (bgRank s (isRewrite id)) i t) t)
      | none => doneBg u.kind id 0 s) s
  | none => match sbAt s die block with
    | some b => onlyIf (bgGranted (unitLevel s (isUnit 10 b.seq 0)) s && s.media.bg.any (isUnit 10 b.seq 0)) (rewriteMeta b) s
    | none => .next s

/-- The items of a superblock. -/
def itemsOfSb (s : State) (seq : Nat) : List Item := s.kw.items.filter (fun i => i.sb == seq)

/-- Whether a superblock has an item whose relocation has not begun. -/
def movable (s : State) (b : SbRec) : Bool :=
  (itemsOfSb s b.seq).any (fun i => i.d3 && ! s.media.moves.any (fun m => sameItem m.ns m.chunk m.key m.storeId m.pos i))

/-- The victim of garbage collection: the RELEASED data superblock with the fewest live grains, of equal ones the lowest
sequence (R292). -/
def victim (s : State) : Option SbRec :=
  (s.media.sbs.filter (fun b => b.kind == 0 && b.state == 4 && movable s b)).foldl (fun (best : Option SbRec) b =>
    match best with
    | none => some b
    | some x => if b.live < x.live ∨ (b.live = x.live ∧ b.seq < x.seq) then some b else some x) none

/-- GARBAGE_COLLECTION (R290 to R293): while the free count is below the goal, the victim's live items are relocated. -/
def mediaGarbageCollection (s : State) : Result :=
  onlyIf (bgGranted (unitLevel s (ofKind 7)) s && s.media.bg.any (ofKind 7)) (fun s =>
    match victim s with
    | some b => (itemsOfSb s b.seq).foldl (fun t i => startMove false (bgRank s (ofKind 7)) i t) s
    | none => s) s

/-- The superblock that static wear levelling takes for a die (R296): RELEASED, a member on the die, not written within
24 h, lowest mean P/E count over its members. -/
def coldest (s : State) (die : Nat) : Option SbRec :=
  let sum (b : SbRec) : Nat := sumL (b.rows.map (fun r => peOf s (dieOf b.group r.1) r.2))
  (s.media.sbs.filter (fun b => b.kind == 0 && b.state == 4 && b.group == groupOf die && (aGet (posOf die) b.rows).isSome &&
      decide (b.lastAt + dayNs ≤ s.now) && movable s b)).foldl (fun (best : Option SbRec) b =>
    match best with
    | none => some b
    | some x => if sum b * x.rows.length < sum x * b.rows.length then some b else some x) none

/-- STATIC_WEAR_LEVELLING (R296): while the spread of a die exceeds its threshold, one superblock at a time is relocated to
worn block rows. -/
def mediaStaticWearLevelling (die : Nat) (s : State) : Result :=
  onlyIf (bgGranted (unitLevel s (isUnit 6 die 0)) s && s.media.bg.any (isUnit 6 die 0)) (fun s =>
    if spreadOf s die ≤ (mediaOf s).spread then doneBg 6 die 0 s
    else match coldest s die with
      | some b => (itemsOfSb s b.seq).foldl (fun t i => startMove true (bgRank s (isUnit 6 die 0)) i t) s
      | none => s) s

/-! ### SHED at a holder (R135, R300, R318) -/

/-- Data grains of an item every value byte of which lies in a range of the value; parity fragments release nothing. -/
def releasedIn (i : Item) (off len : Nat) : List Nat :=
  if i.tomb ∨ len = 0 ∨ (! i.replica ∧ i.k ≤ i.pos) then []
  else
    let chunkLen := min (2 ^ 22) (i.valueLen - i.chunk * 2 ^ 22)
    let f := if i.replica then i.valueLen else i.len
    let start := if i.replica then 0 else i.pos * f
    (List.range (ceilDiv i.len 4096)).filter (fun g =>
      let a := start + 4096 * g
      let e := min (min (start + f) (a + 4096)) (if i.replica then i.valueLen else chunkLen)
      let base := if i.replica then 0 else i.chunk * 2 ^ 22
      decide (a < e) && decide (off ≤ base + a) && decide (base + e ≤ off + len))

/-- The coordinator's record of a SHED at a holder, which journals the released grains of each item and takes them off its
live-grain counts (R300). -/
def shedAtHolder (ns : Nat) (key : Key) (version off len : Nat) (s : State) : State :=
  (s.kw.items.filter (fun i => i.ns == ns && i.key == key && i.version == version && i.st == 2)).foldl (fun t i =>
    let new := (releasedIn i off len).filter (fun g => ! i.released.contains g)
    if new.isEmpty && i.zext then t
    else
      let j := { i with released := new.foldl (fun l g => sIns g l) i.released, zext := true }
      let u := journal (kwRec t 5 (rewriteSlot (kwSecret t) t.kw i j) ++ [.item j]) t
      { u with media := { u.media with
          shed := u.media.shed.filter (fun x => ! (x.1 == ns && x.2.1 == i.chunk && x.2.2.1 == key && x.2.2.2.1 == version))
            ++ [(ns, i.chunk, key, version, j.released)]
          flash := u.media.flash.map (fun p => if j.flash.contains p.1 && p.2.kind == 0 && new.contains p.2.index then (p.1, { p.2 with dead := true }) else p)
          sbs := updIf (fun b => b.seq == i.sb && i.d3) (fun b => { b with live := b.live -
            (j.flash.filter (fun a => match aGet a u.media.flash with | some g => g.kind == 0 && new.contains g.index && ! g.dead | none => false)).length }) u.media.sbs } }) s

end Sys2Proof.Machine
end

