-- ==== Sys2Proof/Machine/RimeOps.lean ====
section
/-! DEFINITION. The pool of Rime engines: who takes a string, and what becomes of it when its engine goes out (R227 to R230). -/

namespace Sys2Proof.Machine

/-- Engines of the pool (Table 5.13). -/
def rimeEngines : Nat := 64

/-- Engines that take a string now. -/
def idleEngines (s : State) : List Nat :=
  (List.range rimeEngines).filter (fun e => (aGet e s.rime.busy).isNone && ! s.rime.out.contains e)

/-- Give a string to an idle engine that holds its automaton, else to the lowest idle one, which loads it; without an idle
engine it waits (R228). -/
def giveString (x : RString) (s : State) : State :=
  let idle := idleEngines s
  let pick : Option Nat := match idle.find? (fun e => aGet e s.rime.holds == some x.image) with
    | some e => some e
    | none => idle.head?
  match pick with
  | some e => { s with rime := { s.rime with busy := aSet e { x with at_ := s.now } s.rime.busy, holds := aSet e x.image s.rime.holds } }
  | none => { s with rime := { s.rime with waiting := s.rime.waiting ++ [x] } }

/-- Waiting strings go to engines that have become idle, oldest first. -/
def nextStrings : Nat → State → State
  | 0, s => s
  | n + 1, s =>
    match s.rime.waiting, idleEngines s with
    | x :: r, _ :: _ => nextStrings n (giveString x { s with rime := { s.rime with waiting := r } })
    | _, _ => s

/-- An engine leaves the pool: its partial result is discarded and its string starts again from its first byte on another
(R229). -/
def engineOut (e : Nat) (s : State) : State :=
  let t := { s with rime := { s.rime with busy := aDel e s.rime.busy, out := sIns e s.rime.out, holds := aDel e s.rime.holds } }
  match aGet e s.rime.busy with
  | some x => giveString x t
  | none => t

/-- An engine that its self-test has cleared is in the pool again, and takes a string that waits (R228, R229). -/
def engineBack (e : Nat) (s : State) : State :=
  nextStrings (s.rime.waiting.length + 1) { s with rime := { s.rime with out := s.rime.out.filter (· != e) } }

end Sys2Proof.Machine
end

