-- ==== Sys2Proof/Machine/MemFamily.lean ====
section
/-! DEFINITION. Memory integrity and fault isolation: what a reader does with a bad word, counting, targeted self-tests,
retirement and quarantine (chapter 13, R25 to R28). -/

namespace Sys2Proof.Machine

/-! ### Sites (R531, R535, Tables 13.4, 13.5, 17.5) -/

/-- Unit code and instance of a source path (Table 17.4). -/
def unitCode (p : Nat) : Nat := p / 2 ^ 14 % 256
def instOf (p : Nat) : Nat := p % 2 ^ 14

/-- A site without the word at fault. -/
def siteKey (s : Site) : Site := { s with addr := 0 }

/-- Whether two sites are the same. -/
def sameSite (a b : Site) : Bool := siteKey a == siteKey b

/-- The retirement list entry of a site. -/
def entryAt (s : State) (t : Site) : Option REntry := s.mem.retire.find? (fun e => sameSite e.site t)

/-- Duration of a targeted self-test in ns (Table 13.4). -/
def testTime (kind : Nat) : Nat :=
  match kind with
  | 1 => 10000 | 2 => 1000000 | 3 => 200000 | 4 => 2000000 | 5 => 100000 | 6 => 50000 | 7 => 50000 | 9 => 20000 | _ => 50000

/-- Spares of an array in use: rows of the bank, pages, blocks that lasting sites took (R537). -/
def sparesUsed (s : State) (t : Site) : Nat :=
  (s.mem.retire.filter (fun e => e.site.kind == t.kind && e.replacement.isSome && (t.kind != 1 || e.site.path == t.path))).length

/-- Spares an array has (Table 13.1). -/
def sparesOf (kind : Nat) : Nat := match kind with | 1 => 4 | 2 => 512 | 3 => 1024 | _ => 0

/-- Spares left. -/
def sparesLeft (s : State) (t : Site) : Nat := sparesOf t.kind - sparesUsed s t

/-- Level of a bank's leaky bucket (R529). -/
def bucketOf (s : State) (bank : Nat) : Nat := ((s.mem.buckets.find? (fun b => b.1 == bank)).map (·.2.1)).getD 0

/-- Memory event payload (Table 13.10). -/
def memPayload (s : State) (t : Site) (syndrome access result halts : Nat) : List Byte :=
  le 8 t.addr ++ le 4 t.path ++ le 4 t.idx ++ le 1 t.mem ++ le 1 syndrome ++ le 1 access ++ le 1 result ++ le 1 (bucketOf s t.path)
    ++ le 1 (match entryAt s t with | some e => e.transients.length | none => 0) ++ le 2 (sparesLeft s t) ++ le 4 halts

/-- The syndrome of a word at fault: 0xFF for poison, else a free value, since the code matrix is internal (R515, R517;
log 6). -/
def syndromeOf (poison : Bool) (s : State) : Nat × State :=
  if poison then (255, s) else ((Config.freeValue s.free).toNat % 256, { s with free := s.free + 1 })

/-- Record a memory event with its payload. -/
def memEvent (code : Nat) (t : Site) (poison : Bool) (access result halts : Nat) (s : State) : State :=
  let (y, u) := syndromeOf poison s
  record code t.path (memPayload u t y access result halts) u

/-! ### The retirement list (R533, R535) -/

/-- Device time in s. -/
def nowS (s : State) : Nat := s.now / 1000000000

/-- Enter or replace an entry; a full list drops its oldest transient-only entry, else 0x1070 (R535). -/
def putEntry (e : REntry) (s : State) : State :=
  if s.mem.retire.any (fun x => sameSite x.site e.site) then
    { s with mem := { s.mem with retire := updIf (fun x => sameSite x.site e.site) (fun _ => e) s.mem.retire } }
  else if s.mem.retire.length < 32768 then { s with mem := { s.mem with retire := s.mem.retire ++ [e] } }
  else match s.mem.retire.find? (fun x => x.state == 1) with
    | some x => { s with mem := { s.mem with retire := s.mem.retire.filter (fun y => y != x) ++ [e] } }
    | none => if s.mem.fullNoted then s else record 0x1070 pathPkg [] { s with mem := { s.mem with fullNoted := true } }

/-- Transients of a site within 24 h (R533). -/
def recentTransients (s : State) (t : Site) : List Nat :=
  match entryAt s t with
  | some e => e.transients.filter (fun x => decide (nowS s < x + 86400))
  | none => []

/-! ### Quarantine (R25 to R28) -/

/-- Commands in flight on an element are restarted from their last journal points (R27). -/
def restartOn (element : Nat) (s : State) : State := { s with mem := { s.mem with restarts := aSet element s.now s.mem.restarts } }

/-- More than one region out is criterion 1 of Table 10.10; with three or more a device without a healthy twin stops serving, 0x0050
(R28). -/
def judgeRegions (s : State) : State :=
  let t := if 1 < s.mem.qRegions.length then criterionTrue 1 (toMask s.mem.qRegions) s else s
  if 3 ≤ t.mem.qRegions.length ∧ holdsPair t ∧ ! t.mem.stopped then
    record 0x0050 pathPkg (le 1 (toMask t.mem.qRegions))
      { t with mem := { t.mem with stopped := true }, start := { t.start with stoppedServing := true } }
  else t

/-- A region is quarantined: the commands on it restart elsewhere, and the first one sets critical warning bit 2 where no missing
twin has set it (R25, R27, R28, R150, Table 3.23). -/
def quarantineRegion (r : Nat) (s : State) : State :=
  if s.mem.qRegions.contains r then s
  else
    let t := judgeRegions (restartOn (pathRegion r) { s with mem := { s.mem with qRegions := sIns r s.mem.qRegions } })
    let u := rehome t
    if s.mem.qRegions.isEmpty ∧ ! (twinConfigured s && ! s.twin.healthy) then raiseAsync 0 2 u else u

/-- A cluster is quarantined; the third of a region takes the region with it (Table 1.5). -/
def quarantineCluster (n : Nat) (s : State) : State :=
  if s.mem.qClusters.contains n then s
  else
    let t := dropCluster n (restartOn (pathCluster n) { s with mem := { s.mem with qClusters := sIns n s.mem.qClusters } })
    if 3 ≤ (t.mem.qClusters.filter (fun x => x / 8 == n / 8)).length then quarantineRegion (n / 8) t else t

/-- A core is quarantined. -/
def quarantineCore (n : Nat) (s : State) : State :=
  if s.mem.qCores.contains n then s
  else restartOn (pathCore n) { s with mem := { s.mem with qCores := sIns n s.mem.qCores } }

/-- A pool unit, channel sequencer or bank leaves service; a channel whose sequencer or both cipher engines are out loses
its dies (Table 1.5, R265, R499); what one engine was sealing is sealed again on the other (R495). -/
def quarantineUnit (p : Nat) (s : State) : State :=
  let t := { s with mem := { s.mem with qUnits := sIns p s.mem.qUnits } }
  let i := instOf p
  match unitCode p with
  | 0x10 => loseChannel i t
  | 0x14 => if t.mem.qUnits.contains (pathX 0x14 (i / 2 * 2)) ∧ t.mem.qUnits.contains (pathX 0x14 (i / 2 * 2 + 1)) then loseChannel (i / 2) t
      else resealUnits i t
  | 0x17 => engineOut i t
  | _ => t

/-- A cluster, core, region or pool unit under test is out of its pool, and its work moves at once (R25, R27, R532). Quarantine of
a core, cluster or region is another matter: the test's own entry keeps it out meanwhile (underTest). -/
def takeOut (t : Site) (s : State) : State :=
  match t.kind with
  | 6 => restartOn t.path s
  | 7 => dropCluster t.idx (restartOn t.path s)
  | 8 => rehome (restartOn t.path s)
  | 9 =>
    let u := { s with mem := { s.mem with qUnits := sIns t.path s.mem.qUnits } }
    if unitCode t.path = 0x17 then engineOut (instOf t.path) u
    else if unitCode t.path = 0x14 then resealUnits (instOf t.path) u
    else u
  | _ => s

/-- A region quarantined for its clusters only serves again once fewer than three of them are (Table 1.5). -/
def freeRegion (r : Nat) (s : State) : State :=
  let own : Bool := s.mem.retire.any (fun e => e.state == 2 && (e.site.kind == 8 && e.site.idx == r ||
    e.site.kind == 11 && (unitCode e.site.path == 0x03 && instOf e.site.path == r || unitCode e.site.path == 0x04 && instOf e.site.path / 16 == r)))
  if own ∨ 3 ≤ (s.mem.qClusters.filter (fun x => x / 8 == r)).length then s
  else rehome { s with mem := { s.mem with qRegions := s.mem.qRegions.filter (· != r) } }

/-- An element whose fault was found transient is back in its pool, quarantined or not before (R25). -/
def bringBack (t : Site) (s : State) : State :=
  match t.kind with
  | 6 => { s with mem := { s.mem with qCores := s.mem.qCores.filter (· != instOf t.path) } }
  | 7 => freeRegion (t.idx / 8) { s with mem := { s.mem with qClusters := s.mem.qClusters.filter (· != t.idx) } }
  | 8 => freeRegion t.idx s
  | 9 =>
    let u := { s with
      mem := { s.mem with qUnits := s.mem.qUnits.filter (· != t.path) }
      sec := { s.sec with heldOut := s.sec.heldOut.filter (· != t.path) } }
    if unitCode t.path = 0x17 then engineBack (instOf t.path) u else u
  | _ => s

/-! ### Retirement (R537) -/

/-- A bank with one spare row left is retired: L1, L2 and transit-buffer banks leave use; a directory or region-buffer bank
is a lasting fault of its region, any other one of die X (R537, Tables 1.5, 10.10). -/
def retireBank (t : Site) (s : State) : State :=
  let e : REntry := { site := { t with kind := 11, idx := 0, addr := 0 }, state := 2, transients := [], cause := 2, lastingAt := nowS s, replacement := none }
  let u := putEntry e s
  match unitCode t.path with
  | 0x01 => quarantineCore (instOf t.path) u
  | 0x02 => quarantineUnit t.path u
  | 0x19 => quarantineUnit t.path u
  | 0x03 => quarantineRegion (instOf t.path) u
  | 0x04 => quarantineRegion (instOf t.path / 16) u
  | _ => criterionTrue 3 4 u

/-- A spare serves in place of a lasting site: 0x1050 (R537). -/
def useSpare (t : Site) (s : State) : State :=
  let n := sparesUsed s t
  let u := { s with mem := { s.mem with retire := updIf (fun e => sameSite e.site t) (fun e => { e with replacement := some n }) s.mem.retire } }
  record 0x1050 t.path (memPayload u t 0 5 5 0) u

/-- Lasting pages of a DDR5 channel within 24 h (R537). -/
def pagesOfChannel (s : State) (ch : Nat) : Nat :=
  (s.mem.retire.filter (fun e => e.site.kind == 2 && e.state == 2 && instOf e.site.path / 128 == ch && decide (nowS s < e.lastingAt + 86400))).length

/-- A lasting site is retired by its kind (R537, Table 13.4). -/
def retireSite (t : Site) (s : State) : State :=
  match t.kind with
  | 1 => if 1 < sparesLeft s t then useSpare t s else retireBank t s
  | 2 =>
    let a := if 0 < sparesLeft s t then useSpare t s
      else record 0x1051 t.path (memPayload s t 0 5 4 0) { s with mem := { s.mem with pagesTaken := s.mem.pagesTaken + 1 } }
    if 16 ≤ pagesOfChannel a (instOf t.path / 128) then criterionTrue 3 3 a else a
  | 3 => if 0 < sparesLeft s t then useSpare t s else criterionTrue 2 3 (record 0x1051 t.path (memPayload s t 0 5 4 0) s)
  | 4 => loseDie t.idx s
  | 5 => if unitCode t.path = 0x32 then retireHingeLane (instOf t.path) s else retireLane (instOf t.path) s
  | 6 => quarantineCore (instOf t.path) s
  | 7 => quarantineCluster t.idx s
  | 8 => quarantineRegion t.idx s
  | 9 => quarantineUnit t.path s
  | 10 => { s with ward := { s.ward with lasting := sIns (instOf t.path) s.ward.lasting } }
  | _ => quarantineUnit t.path s

/-- A region that three lasting clusters keep quarantined is itself a lasting quarantine of the list (R26, Table 1.5). -/
def noteLastingRegion (r : Nat) (s : State) : State :=
  let cs := (s.mem.retire.filter (fun e => e.state == 2 && e.site.kind == 7 && e.site.idx / 8 == r)).length
  if 3 ≤ cs ∧ ! s.mem.retire.any (fun e => e.state == 2 && e.site.kind == 8 && e.site.idx == r) then
    putEntry { site := { mem := 255, path := pathRegion r, idx := r, kind := 8, addr := 0 }, state := 2, transients := [], cause := 2,
               lastingAt := nowS s, replacement := none } s
  else s

/-- A site is lasting: 0x1041, an entry, its retirement (R533, R537). -/
def markLasting (t : Site) (cause : Nat) (s : State) : State :=
  let e : REntry := { site := siteKey t, state := 2, transients := recentTransients s t, cause := cause, lastingAt := nowS s,
                      replacement := none }
  let a := putEntry e s
  let b := retireSite t (record 0x1041 t.path (memPayload a t 0 5 4 0) a)
  if t.kind = 7 then noteLastingRegion (t.idx / 8) b else b

/-- An error counts as a transient of its site; the third within 24 h makes the site lasting (R533). -/
def markTransient (t : Site) (cause : Nat) (s : State) : State :=
  let ts := recentTransients s t ++ [nowS s]
  if 3 ≤ ts.length then markLasting t cause s
  else putEntry { site := siteKey t, state := 1, transients := ts, cause := cause, lastingAt := 0, replacement := none } s

/-! ### Targeted self-tests (R531, R532) -/

/-- The latest end of a test of a site. -/
def endedAt (s : State) (t : Site) : Option Nat := (s.mem.ended.find? (fun e => sameSite e.1 t)).map (·.2)

/-- A test of a site begins: it is pending, the site leaves its pool, and the march or test runs (R531, R532). -/
def beginSiteTest (t : Site) (cause : Nat) (s : State) : State :=
  takeOut t { s with
    mem := { s.mem with tests := s.mem.tests ++ [⟨siteKey t, s.now, cause⟩] }
    out := s.out ++ [.selfTest (siteKey t)] }

/-- Tests a start owes (R536): an entry whose CRC fails, which counts as lasting meanwhile, and one whose substitution the last run's
end interrupted, whose spare holds the content until the test has ended. -/
def retest (bad : List Nat) (s : State) : State :=
  ((s.mem.retire.zipIdx.filter (fun p => p.1.state == 3 || bad.contains p.2)).map (·.1)).foldl (fun t e => beginSiteTest e.site e.cause t) s

/-- Start the targeted self-test of a site, unless it is pending, ended within 10 s, or the site is lasting; a memory site
with no spare free is not marched and only counts (R531, R532). -/
def startTest (t : Site) (cause : Nat) (s : State) : State :=
  let fresh : Bool := match endedAt s t with | some e => decide (s.now < e + 10000000000) | none => false
  let lasting : Bool := match entryAt s t with | some e => e.state == 2 | none => false
  if s.mem.tests.any (fun x => sameSite x.site t) ∨ fresh ∨ lasting then s
  else if t.kind ≤ 3 ∧ sparesLeft s t = 0 then markTransient t cause s
  else
    let e : REntry := { site := siteKey t, state := 3, transients := recentTransients s t, cause := cause, lastingAt := 0,
                        replacement := if t.kind ≤ 3 then some (sparesUsed s t) else none }
    beginSiteTest t cause (putEntry e s)

/-- The test of a site has ended: it is no longer pending, and its spare is free again. -/
def endTest (t : Site) (s : State) : State :=
  (if t.kind = 8 then rehome else id) { s with mem := { s.mem with
      tests := s.mem.tests.filter (fun x => ! sameSite x.site t)
      ended := putIf (fun e => sameSite e.1 t) (siteKey t, s.now) s.mem.ended
      retire := updIf (fun e => sameSite e.site t && e.state == 3) (fun e => { e with replacement := none }) s.mem.retire } }

/-- SELF_TEST_COMPLETE (R25, R533): a pass marks the error transient, 0x1040, and an element taken out returns unless this
was its third; a failure marks the site lasting. -/
def memSelfTestComplete (t : Site) (failed : Bool) (s : State) : Result :=
  match s.mem.tests.find? (fun x => sameSite x.site t) with
  | some x => onlyIf (running s) (fun s =>
      let a := endTest t s
      if failed then markLasting t 2 a
      else
        let b := markTransient t x.cause (record 0x1040 t.path (memPayload a t 0 5 3 0) a)
        match entryAt b t with
        | some e => if e.state = 2 then b else bringBack t b
        | none => bringBack t b) s
  | none => .next s

/-- SELF_TEST_DEADLINE (R534): a test beyond 10 times its duration: 0x9120, and its site is lasting. -/
def memSelfTestDeadline (t : Site) (s : State) : Result :=
  match s.mem.tests.find? (fun x => sameSite x.site t) with
  | some x => onlyIf (running s && decide (x.at_ + 10 * testTime t.kind < s.now)) (fun s =>
      markLasting t 3 (record 0x9120 t.path (le 4 t.path ++ le 4 t.idx) (endTest t s))) s
  | none => .next s

/-- RETIREMENT_ENTRY_EXPIRY (R535): an entry with only transients is dropped 24 h after its later one. -/
def memRetirementEntryExpiry (t : Site) (s : State) : Result :=
  match entryAt s t with
  | some e => onlyIf (running s && decide (e.state = 1) && decide ((e.transients.getLast?.getD 0) + 86400 ≤ nowS s)) (fun s =>
      { s with mem := { s.mem with retire := s.mem.retire.filter (fun x => ! sameSite x.site t), fullNoted := false } }) s
  | none => .next s

/-! ### Correctable errors (R516, R529, R530) -/

/-- A correctable error: the word is corrected and written back; it counts in its bank's bucket, 0x1010 on overflow, and
its site is tested (R516, R529, R531). -/
def correctable (t : Site) (s : State) : State :=
  let lv := bucketOf s t.path
  let a := if 16 ≤ lv then memEvent 0x1010 t false 0 0 0 s
    else
      let since := ((s.mem.buckets.find? (fun b => b.1 == t.path)).map (·.2.2)).getD s.now
      { s with mem := { s.mem with buckets := putIf (fun b => b.1 == t.path) (t.path, lv + 1, since) s.mem.buckets } }
  startTest t 0 a

/-- CORRECTABLE_READ (R516, R529, R531). -/
def memCorrectableRead (t : Site) (s : State) : Result := onlyIf (running s) (correctable t) s

/-- BUCKET_LEAK (R529): a level above 0 falls by 1 every 10 s. -/
def memBucketLeak (bank : Nat) (s : State) : Result :=
  match s.mem.buckets.find? (fun b => b.1 == bank) with
  | some b => onlyIf (decide (b.2.2 + 10000000000 ≤ s.now)) (fun s =>
      { s with mem := { s.mem with
        buckets :=
          if b.2.1 ≤ 1 then s.mem.buckets.filter (fun x => x.1 != bank)
          else updIf (fun x => x.1 == bank) (fun x => (x.1, x.2.1 - 1, s.now)) s.mem.buckets } }) s
  | none => .next s

/-- A word is stored poisoned (R517): one of DRAM with its line, where a write of the whole word replaces it (R524). -/
def poisonWord (x : Site) (t : State) : State :=
  if x.mem = 1 then
    let ws := lineMem t.coh (x.addr / 64)
    let n := x.addr / 8 % 8
    writeLine (x.addr / 64) (mergeWords ws n ((ws.drop n).take 1 |>.map (fun w => (w.1, true)))) t
  else if t.mem.poisoned.contains (x.mem, x.addr) then t
  else { t with mem := { t.mem with poisoned := t.mem.poisoned ++ [(x.mem, x.addr)] } }

/-- MEMORY_SCRUB (R530, R517): words the scrubber finds with one bit in error are corrected and counted; uncorrectable ones
are stored poisoned, 0x1020, and their sites are tested. -/
def memMemoryScrub (single bad : List Site) (s : State) : Result :=
  onlyIf (running s) (fun s =>
    bad.foldl (fun t x =>
      startTest x 1 (memEvent 0x1020 x false 3 1 0
        (poisonWord x t)))
      (single.foldl (fun t x => correctable x t) s)) s

/-! ### Writes and uncorrectable reads (R522, R525 to R528) -/

/-- NARROW_WRITE (R522): a write narrower than a word or unaligned changes nothing; the core traps, 0x1030. -/
def memNarrowWrite (core : Nat) (t : Site) (s : State) : Result :=
  onlyIf (running s) (fun s =>
    record 0x1030 (pathCore core) (memPayload s t 0 4 4 0) { s with out := s.out ++ [.trap core 1 t.addr] }) s

/-- Route of R526 that event 0x1020 records, in the payload's last word (log 17): 1 flash, 2 peers, 3 planned takeover, 4
flush, 5 spilled poisoned in the flush that runs. -/
def routeEvent (route : Nat) (t : Site) (s : State) : State :=
  record 0x1020 t.path (memPayload s t 0 0 1 0 ++ le 4 route) s

/-- What the device does with a word it cannot rebuild from its own sources (R526, R539): a Cornice grain from flash or
from peers where the item is there (`atPeers`: the chunk of a Store at D2), else a planned takeover with a healthy STANDBY, else a flush,
which spills the grain poisoned, and a warm start. -/
def cannotRebuild (grain : Option Nat) (atPeers : Bool) (t : Site) (s0 : State) : State :=
  let owner : Option Item := match grain with
    | some g => s0.kw.items.find? (fun i => i.grains.contains g)
    | none => none
  let s := match grain with | some g => { s0 with mem := { s0.mem with badGrains := sIns g s0.mem.badGrains } } | none => s0
  if s.power.flush.isSome then
    routeEvent 5 t s
  else if atPeers then routeEvent 2 t s0
  else match owner with
    | some i =>
      let onFlash : Bool := match grain.bind (fun g => i.flash[i.grains.idxOf g]?) with
        | some a => ! s.media.unver.contains a
        | none => false
      if onFlash then routeEvent 1 t s0
      else if i.st = 2 ∧ 2 ≤ i.ack then routeEvent 2 t (localFailure i s)
      else if hasStandby s then beginPlanned ownConn 1 (routeEvent 3 t s)
      else if holdsPair s then beginFlush ((Config.freeValue s.free).toNat % 65536) 4 s.gauge.v (routeEvent 4 t { s with free := s.free + 1 })
      else dueWarm .memoryError (routeEvent 4 t s)
    | none =>
      if hasStandby s then beginPlanned ownConn 1 (routeEvent 3 t s)
      else if holdsPair s then beginFlush ((Config.freeValue s.free).toNat % 65536) 4 s.gauge.v (routeEvent 4 t { s with free := s.free + 1 })
      else dueWarm .memoryError (routeEvent 4 t s)

/-- The line of a cluster's L2 that a site's word stands in (Table 17.5: instance 16 × cluster + bank). -/
def cachedLine (t : Site) (s : State) : Option CLine :=
  if unitCode t.path = 2 then clusterLine s.coh ⟨instOf t.path / 16, t.addr / 64⟩ else none

/-- That line is in state M. -/
def dirtyLine (t : Site) (s : State) : Bool := (cachedLine t s).any (fun x => x.state == .m)

/-- A clean line with an uncorrectable word is invalidated and fetched again from memory (R518). -/
def refetch (t : Site) (core : Nat) (s : State) : State :=
  match cachedLine t s, homeOf s (t.addr / 64) with
  | some x, some h =>
    let a := onCoh (dropLine ⟨x.cluster, x.line⟩) (leaveLine x.cluster s x.line)
    wake x.line (request h x.line ⟨0, x.cluster, core, 0, []⟩ a)
  | _, _ => s

/-- The word of a line in state M is poisoned where it stands (R517, R518). -/
def poisonLine (t : Site) (s : State) : State :=
  match cachedLine t s with
  | some x =>
    let n := t.addr / 8 % 8
    onCoh (putLine { x with ws := mergeWords x.ws n ((x.ws.drop n).take 1 |>.map (fun w => (w.1, true))) }) s
  | none => s

/-- CORE_LOAD_UNCORRECTABLE (R525, R526, Table 13.3): the core traps and no register receives the word; 0x1020, or 0x1022
for poison, which blames no site. Recovery by structure: 0 Keyway granule, 1 placement table, 2 Ward rules record, 3 firmware
text, 4 command working state, 5 Cornice grain `arg`, 6 state without a source or a trap within a trap's handler; what structures 0
to 3 held is made again from its source within the step. A word of a clean cache line or region-buffer line is not delivered: the line
is fetched again; one of a line in state M reaches the reader poisoned (R518). -/
def memCoreLoadUncorrectable (core : Nat) (t : Site) (poison : Bool) (struct_ arg : Nat) (atPeers : Bool) (s : State) : Result :=
  if t.mem = 0 ∧ ¬ poison ∧ (unitCode t.path = 4 ∨ (cachedLine t s).isSome) ∧ ¬ dirtyLine t s then
    onlyIf (running s) (fun s => startTest t 1 (refetch t (core % 8) s)) s
  else onlyIf (running s) (fun s0 =>
    let first := ! poison && dirtyLine t s0
    let s := if first then poisonLine t s0 else s0
    let poison := poison || first
    let a := memEvent (if poison then 0x1022 else 0x1020) t poison 0 (if poison then 2 else 1) 0
      { s with out := s.out ++ [.trap core 2 t.addr] }
    let b := if poison && ! first then a else startTest t 1 a
    match struct_ with
    | 0 => b
    | 1 => b
    | 2 => b
    | 3 => b
    | 4 => restartOn (pathCore core) b
    | 5 => cannotRebuild (some arg) atPeers t b
    | _ => cannotRebuild none false t b) s

/-- INSTRUCTION_FETCH_UNCORRECTABLE (R527): the cluster is quarantined at once, 0x1020, and tested. -/
def memInstructionFetchUncorrectable (cluster : Nat) (t : Site) (poison : Bool) (s : State) : Result :=
  onlyIf (running s && decide (cluster < 32)) (fun s =>
    let a := memEvent 0x1020 t poison 1 (if poison then 2 else 1) 0 { s with out := s.out ++ [.trap (8 * cluster) 3 t.addr] }
    let b := if poison then a else startTest t 1 a
    startTest { mem := 255, path := pathCluster cluster, idx := cluster, kind := 7, addr := 0 } 1 (quarantineCluster cluster b)) s

/-- DMA_READ_UNCORRECTABLE (R528): the channel halts, nothing of the word or after it is delivered; 0x1021 with the halt
count. A Rime engine that meets the word in its state table is held out and tested, and its string starts again (R229). -/
def memDmaReadUncorrectable (channel : Nat) (t : Site) (poison : Bool) (s : State) : Result :=
  onlyIf (running s && ! s.mem.halted.contains channel) (fun s =>
    let n := ((aGet channel s.mem.halts).getD 0) + 1
    let a := memEvent 0x1021 t poison 2 (if poison then 2 else 1) n
      { s with mem := { s.mem with halted := sIns channel s.mem.halted, halts := aSet channel n s.mem.halts } }
    if unitCode t.path = 0x17 then startTest t 1 (engineOut (instOf t.path) a)
    else if poison then a else startTest t 1 a) s

/-- DMA_CHANNEL_RESTART (R528): firmware restarts a halted channel. -/
def memDmaChannelRestart (channel : Nat) (s : State) : Result :=
  onlyIf (running s && s.mem.halted.contains channel) (fun s =>
    { s with mem := { s.mem with halted := s.mem.halted.filter (· != channel) } }) s

end Sys2Proof.Machine
end

