-- ==== Sys2Proof/Machine/CipherFamily.lean ====
section
/-! DEFINITION. Cipher engines, randomness, field generations and namespace salts (chapter 12). Keys stand in the state as two shares, which no command reads
(R485, R501). -/

namespace Sys2Proof.Machine

/-! ### Field generations and key epochs (R359, R497) -/

/-- Key epoch of device time (R359). -/
def epochOf (now : Nat) : Nat := now / (86400 * 1000000000)

/-- The epoch this device sends in: the current one while PTP is locked, else the greatest held (R359). -/
def sendEpoch (s : State) : Nat := if s.ptp.locked then epochOf s.now else s.ice.epoch

/-- An epoch a datagram may carry (R359). -/
def epochAccepted (s : State) (e : Nat) : Bool :=
  if s.ptp.locked then decide (epochOf s.now ≤ e + 1 ∧ e ≤ epochOf s.now + 1) else decide (s.ice.epoch ≤ e + 1)

/-- The generation of an epoch: the held one with the greatest activation epoch not beyond it (R497). -/
def genFor (gens : List (Nat × Nat × Nat)) (e : Nat) : Option (Nat × Nat × Nat) :=
  (gens.filter (fun g => decide (g.2.1 ≤ e))).foldl (fun (b : Option (Nat × Nat × Nat)) g => match b with
    | none => some g
    | some x => if x.2.1 < g.2.1 then some g else some x) none

/-- Generations that stay: one is destroyed once the epoch is more than 1 beyond the activation of a newer held one. -/
def keptGens (gens : List (Nat × Nat × Nat)) (e : Nat) : List (Nat × Nat × Nat) :=
  gens.filter (fun g => ! gens.any (fun h => decide (g.2.1 < h.2.1) && decide (h.2.1 + 1 < e)))

/-- The device's epoch becomes `e`: the generation in use follows, 0x7013 when it changes (R497). -/
def adoptEpoch (e : Nat) (s : State) : State :=
  let n := (genFor s.sec.gens e).map (·.1)
  let kept := keptGens s.sec.gens e
  let t := { s with
    ice := { s.ice with epoch := e }
    sec := { s.sec with inUse := n, gens := kept, genKeys := s.sec.genKeys.filter (fun k => kept.any (fun g => g.1 == k.1)) } }
  let u := dropKeys (fun k => k.gen.isSome && ! t.sec.gens.any (fun g => some g.1 == k.gen)) t
  if n = s.sec.inUse ∨ n.isNone then u
  else record 0x7013 pathPkg (le 1 (s.sec.inUse.getD 0) ++ le 1 (n.getD 0) ++ le 4 e) (dropKeys (fun k => k.gen.isSome && k.gen == s.sec.inUse) u)

/-- KEY_EPOCH_CHANGE (R359, R497): device time under PTP enters a new epoch. -/
def execKeyEpochChange (epoch : Nat) (s : State) : Result :=
  onlyIf (running s && s.ptp.locked && decide (epoch = epochOf s.now) && decide (s.ice.epoch < epoch)) (adoptEpoch epoch) s

/-! ### Known-answer tests (R500) -/

/-- KNOWN_ANSWER_TEST (R500): a cipher or CMAC engine repeats its test; one that fails is held out and tested, 0x7020. -/
def execKnownAnswerTest (path : Nat) (ok : Bool) (s : State) : Result :=
  onlyIf (running s && (unitCode path == 0x14 || unitCode path == 0x15)) (fun s =>
    let t := { s with sec := { s.sec with katAt := s.now } }
    if ok then t
    else
      startTest { mem := 255, path := path, idx := 0, kind := 9, addr := 0 } 2
        (record 0x7020 path (le 4 path) { t with sec := { t.sec with heldOut := sIns path t.sec.heldOut } })) s

/-! ### Randomness (R502, R503) -/

/-- Both entropy sources are excluded. -/
def noEntropy (s : State) : Bool := s.sec.excluded.contains 0 && s.sec.excluded.contains 1

/-- A reseed of the central DRBG is due: 1 s, or 65 536 requests (R502). -/
def reseedDue (s : State) : Bool := decide (s.sec.reseedAt + 1000000000 ≤ s.now) || decide (65536 ≤ s.sec.requests)

/-- DRBG_RESEED (R502, R503): the DRBG is reseeded; with both sources excluded it stops when a reseed falls due, 0x7032. -/
def execDrbgReseed (s : State) : Result :=
  onlyIf (running s && reseedDue s && ! s.sec.stopped) (fun s =>
    if noEntropy s then record 0x7032 pathPkg (le 4 s.sec.requests) { s with sec := { s.sec with stopped := true } }
    else { s with sec := { s.sec with reseeds := s.sec.reseeds + 1, reseedAt := s.now, requests := 0 } }) s

/-- MASK_RESEED (R502, R503): every 1 ms each mask generator is reseeded from the DRBG; nothing is reseeded once both
sources are excluded. -/
def execMaskReseed (s : State) : Result :=
  onlyIf (running s && decide (s.sec.maskAt + 1000000 ≤ s.now) && ! noEntropy s && ! s.sec.stopped) (fun s =>
    { s with sec := { s.sec with maskAt := s.now, requests := s.sec.requests + 1 } }) s

/-- ENTROPY_HEALTH_FAIL (R503): the source is excluded until the next start, 0x7030; with both excluded 0x7031. -/
def execEntropyHealthFail (source test : Nat) (s : State) : Result :=
  onlyIf (running s && decide (source < 2) && ! s.sec.excluded.contains source) (fun s =>
    let t := record 0x7030 (pathX 0x44 source) (le 1 source ++ le 1 test)
      { s with sec := { s.sec with excluded := sIns source s.sec.excluded } }
    if noEntropy t then record 0x7031 pathPkg [] t else t) s

/-! ### Namespace salts (R484, R503, R509) -/

/-- Draw a new salt for a namespace: none from a stopped DRBG (R503). -/
def drawSalt (ns : Nat) (s : State) : Option State :=
  if s.sec.stopped then none
  else
    let g := ((aGet ns s.sec.salts).getD 0) + 1
    some (journal [.salt ns g] { s with sec := { s.sec with requests := s.sec.requests + 1 } })

/-- The salt of a namespace is drawn at its first service (Table 2.1): the state with it, none when it cannot be drawn. -/
def withSalt (ns : Nat) (s : State) : Option State := if (aGet ns s.sec.salts).isSome then some s else drawSalt ns s

/-- A namespace is purge pending (R509, R512). -/
def purgePending (s : State) (ns : Nat) : Bool := s.kw.purging.any (fun p => p.1 == ns)

/-- Repair of a crypto-erased namespace within its window is refused with result 2; 0x7042 at most once an hour (R511). -/
def inEraseWindow (s : State) (ns : Nat) : Bool := match aGet ns s.sec.windows with | some t => decide (s.now < t) | none => false

/-- Note such a refusal. -/
def noteRefusal (ns : Nat) (s : State) : State :=
  let old := s.sec.refused.find? (fun r => r.1 == ns)
  let n := match old with | some r => r.2.2 + 1 | none => 1
  let last := match old with | some r => r.2.1 | none => 0
  if old.isNone ∨ last + secNs 3600 ≤ s.now then
    record 0x7042 (pathNs ns) (le 2 ns ++ le 4 n) { s with sec := { s.sec with refused := putIf (fun r => r.1 == ns) (ns, s.now, n) s.sec.refused } }
  else { s with sec := { s.sec with refused := putIf (fun r => r.1 == ns) (ns, last, n) s.sec.refused } }

end Sys2Proof.Machine
end

