-- ==== Sys2Proof/Machine/Entry.lean ====
section
/-! DEFINITION. The submission queue entry of an I/O command, field by field (Tables 3.2, 3.8, 3.9, 3.11; R110, R114, R120). -/

namespace Sys2Proof

/-- Dword `i` of the entry. -/
def Sqe.dw (q : Sqe) (i : Nat) : Nat := q.dws[i]?.getD 0 % 2 ^ 32

/-! ### Table 3.9 -/

def Sqe.opcode (q : Sqe) : Nat := q.dw 0 % 256
def Sqe.fuse (q : Sqe) : Nat := q.dw 0 / 2 ^ 8 % 4
def Sqe.psdt (q : Sqe) : Nat := q.dw 0 / 2 ^ 14 % 4
def Sqe.cid (q : Sqe) : Nat := q.dw 0 / 2 ^ 16
def Sqe.nsid (q : Sqe) : Nat := q.dw 1
def Sqe.dw10 (q : Sqe) : Nat := q.dw 10
def Sqe.keyLen (q : Sqe) : Nat := q.dw 11 % 256
def Sqe.opts (q : Sqe) : Nat := q.dw 11 / 2 ^ 8 % 256
def Sqe.handle (q : Sqe) : Nat := q.dw 11 / 2 ^ 16
def Sqe.dw12 (q : Sqe) : Nat := q.dw 12
def Sqe.dw13 (q : Sqe) : Nat := q.dw 13

/-- Bytes 8 to 15 and 56 to 63: the key field, which in Pattern List holds the cursor (R110, R127, R194). -/
def Sqe.keyField (q : Sqe) : List Byte := [2, 3, 14, 15].flatMap (fun i => Machine.le 4 (q.dw i))

/-- The key in the entry: bytes beyond its length are reserved (R110). -/
def Sqe.key (q : Sqe) : Key := q.keyField.take q.keyLen

/-- The 64-bit version in Dwords 12 and 13: expected by a Long Store or Long Delete, asked by a Durability Query (Table 3.10). -/
def Sqe.version (q : Sqe) : Nat := q.dw12 + 2 ^ 32 * q.dw13

/-- Expected version of a SHED: bytes 16 to 23 (Table 3.9). -/
def Sqe.shedVersion (q : Sqe) : Nat := q.dw 4 + 2 ^ 32 * q.dw 5

/-- The entry with a dword of it set. -/
def Sqe.withDw (q : Sqe) (i v : Nat) : Sqe := { q with dws := q.dws.set i v }

/-- The entry with the 16 bytes of its key field set. -/
def Sqe.withKeyField (q : Sqe) (k : List Byte) : Sqe :=
  (((q.withDw 2 (Machine.ofLe (k.take 4))).withDw 3 (Machine.ofLe ((k.drop 4).take 4))).withDw 14 (Machine.ofLe ((k.drop 8).take 4))).withDw 15
    (Machine.ofLe ((k.drop 12).take 4))

/-! ### Data pointer (Table 3.2) -/

/-- SGL identifier byte: descriptor type and sub type. PRESUMED, as the NVMe specification numbers them: 0x01 Data Block with
Offset, 0x5A Transport SGL Data Block, 0x40 Keyed SGL Data Block (log 133). -/
def Sqe.sglId (q : Sqe) : Nat := q.dw 9 / 2 ^ 24

/-- Length of the SGL descriptor: 32 bits, of a keyed one 24 (log 133). -/
def Sqe.sgl (q : Sqe) : Nat := if q.sglId = 0x40 then q.dw 8 % 2 ^ 24 else q.dw 8

namespace Machine

/-- The descriptor is of a type that Table 3.2 gives the transport; a command without data may leave it blank. -/
def sglKnown (rdma : Bool) (q : Sqe) : Bool := q.sgl == 0 || q.sglId == 0x01 || q.sglId == (if rdma then 0x40 else 0x5A)

/-- In-capsule data on an I/O queue is at most 16 KiB (Table 3.1). -/
def inCapsuleOk (q : Sqe) : Bool := q.sglId != 0x01 || decide (q.sgl ≤ 16384)

/-- Every field that Tables 3.9 and 3.10 give a vendor opcode as 0, or as another fixed value, has it (R120). -/
def fixedFields (q : Sqe) : Bool :=
  q.psdt == 1 && (q.opcode == 0x90 || q.shedVersion == 0) && (q.opcode == 0x86 || q.opcode == 0x8A || q.handle == 0) &&
    match q.opcode with
    | 0x81 => q.opts.testBit 2 || q.version == 0
    | 0x84 => q.dw10 == 0
    | 0x88 => q.dw10 == 0 && q.version == 0
    | 0x8A => q.version == 0
    | 0x8D => q.version == 0
    | 0x90 => q.dw13 == 0
    | _ => true

/-- Opcodes of the vendor commands (Table 3.10). -/
def isVendor (opc : Nat) : Bool := decide (0x81 ≤ opc)

/-- An entry with given fields; a key of more than 16 bytes stands beside it (R110). -/
def mkSqe (conn opc cid ns fuse : Nat) (key : Key) (dw10 opts handle dw12 dw13 shed sgl : Nat) : Sqe :=
  let k := if key.length ≤ 16 then padTo 16 key else padTo 16 []
  { conn := conn
    dws := [opc + 2 ^ 8 * fuse + 2 ^ 14 + 2 ^ 16 * cid, ns, ofLe (k.take 4), ofLe ((k.drop 4).take 4), shed % 2 ^ 32, shed / 2 ^ 32, 0, 0, sgl,
            0x5A000000, dw10, (if key.length ≤ 16 then key.length else 0) + 2 ^ 8 * opts + 2 ^ 16 * handle, dw12, dw13,
            ofLe ((k.drop 8).take 4), ofLe ((k.drop 12).take 4)]
    transportOk := true }

/-! ### Key block (Table 3.11) -/

/-- Key length, key and whether the block's form is valid: 264 bytes, 1 to 255 of key. -/
def blockKey (block : List Byte) : Key × Bool :=
  let n := ofLe (block.take 1)
  ((block.drop 8).take n, decide (block.length = 264) && decide (1 ≤ n))

end Machine
end Sys2Proof
end

