-- ==== Sys2Proof/Machine/WardOps.lean ====
section
/-! DEFINITION. Classification of a key by the Ward table, and the policy that governs a command (R64, R65, R196 to
R204, R214, R215). -/

namespace Sys2Proof.Machine

/-! ### Search words (R198) -/

/-- Key byte `i` as a number, 0 beyond the key. -/
def keyByte (key : Key) (i : Nat) : Nat := (key[i]?.getD 0#8).toNat

/-- Bytes `from_` to `from_ + n − 1` of the key, the first lowest. -/
def keyBits (key : Key) (from_ n : Nat) : Nat := ofLe ((List.range n).map (fun i => BitVec.ofNat 8 (keyByte key (from_ + i))))

/-- The head word (Table 5.1): `cls` 0 changing, 1 reading, 2 listing. -/
def headWord (ns cls : Nat) (key : Key) : BitVec 128 :=
  BitVec.ofNat 128 (keyBits key 0 13 + cls * 2 ^ 108 + key.length * 2 ^ 110 + (ns - 1) * 2 ^ 118)

/-- Tail word `t` of 1 to 7. -/
def tailWord (t : Nat) (key : Key) : BitVec 128 := BitVec.ofNat 128 (keyBits key (13 + 16 * (t - 1)) 16)

/-! ### Groups (R197, R203, R204, R214) -/

/-- The Ward rules record in force. -/
def wardOf (s : State) : WardRec := match s.cfg with | some c => c.ward | none => ⟨List.replicate 64 1, [], []⟩

/-- Width of the group with head bank `b`, 0 for a tail. -/
def groupWidth (w : WardRec) (b : Nat) : Nat := w.cascade[b]?.getD 0

/-- Head of the group that holds bank `b`. -/
def groupHead (w : WardRec) (b : Nat) : Nat :=
  ((List.range 8).find? (fun i => decide (i ≤ b) && groupWidth w (b - i) != 0)).elim b (fun i => b - i)

/-- Image of an entry. -/
def wardImage (w : WardRec) (bank entry : Nat) : Option WardEntry :=
  (w.images.find? (fun i => i.bank == bank && i.entry == entry)).map (·.e)

/-- Where a group stands now: its own head, or the free group it was relocated to. -/
def placedHead (s : State) (h : Nat) : Nat := (aGet h s.ward.moved).getD h

/-- Bank in which an image's bank stands now. -/
def placedBank (s : State) (b : Nat) : Nat :=
  let h := groupHead (wardOf s) b
  placedHead s h + (b - h)

/-! ### Match (R199, R200) -/

/-- An entry without an image: every digit don't-care, priority and action 0 (R202). -/
def emptyEntry : WardEntry := { prio := 0, action := 0, value := 0, mask := 0 }

/-- An entry of the table or the shadow by global number. -/
def entryIn (t : List (Nat × WardEntry)) (g : Nat) : WardEntry := (aGet g t).getD emptyEntry

/-- Put an entry; an empty one is not listed. -/
def putEntryIn (g : Nat) (e : WardEntry) (t : List (Nat × WardEntry)) : List (Nat × WardEntry) := if e = emptyEntry then aDel g t else aSet g e t

/-- Every digit that is not don't-care equals the word's bit. -/
def digitsMatch (e : WardEntry) (w : BitVec 128) : Bool := (e.value ^^^ w) &&& e.mask == 0#128

/-- The entries of a row whose head entry is `g`, in a group of width `l`. -/
def rowEntries (l g : Nat) : List Nat := (List.range l).map (fun i => g + 1024 * i)

/-- The row with head entry `g` matches (R199). -/
def rowMatches (t : List (Nat × WardEntry)) (l g ns cls : Nat) (key : Key) : Bool :=
  (entryIn t g).prio != 0 && digitsMatch (entryIn t g) (headWord ns cls key) &&
    (List.range (l - 1)).all (fun i => digitsMatch (entryIn t (g + 1024 * (i + 1))) (tailWord (i + 1) key))

/-- Head banks of a namespace's bank set (R204). -/
def setHeads (s : State) (n : NsEntry) : List Nat := n.bankSet.filter (fun b => groupWidth (wardOf s) b != 0)

/-- The matching rows of a namespace's groups in the table or the shadow: priority, global head entry number, action index. -/
def wardMatches (t : List (Nat × WardEntry)) (s : State) (n : NsEntry) (cls : Nat) (key : Key) : List (Nat × Nat × Nat) :=
  (setHeads s n).flatMap (fun b =>
    (t.filter (fun x => x.1 / 1024 == placedHead s b && rowMatches t (groupWidth (wardOf s) b) x.1 n.id cls key)).map
      (fun x => (x.2.prio, x.1, x.2.action)))

/-- The winner: greatest priority, then lowest global head entry number. -/
def wardWinner (l : List (Nat × Nat × Nat)) : Option (Nat × Nat × Nat) :=
  l.foldl (fun b x => match b with
    | none => some x
    | some y => if y.1 < x.1 ∨ (y.1 = x.1 ∧ x.2.1 < y.2.1) then some x else some y) none

/-- The action record of an index: 0, and an index that names none, leave the namespace's own fields (R201; log 92). -/
def actionOf (s : State) (a : Nat) : Option WardAction := if a = 0 then none else (wardOf s).actions[a - 1]?

/-- The firmware classifier: the rules R199 and R200 over the shadow (R210, R215). -/
def classifyShadow (s : State) (n : NsEntry) (cls : Nat) (key : Key) : Option WardAction :=
  match wardWinner (wardMatches s.ward.shadow s n cls key) with
  | some (_, _, a) => actionOf s a
  | none => none

/-! ### Mismatches (R209 to R211, R214) -/

/-- Time of an entry's last clean comparison (R209). DESIGN CHOICE: for an entry no scrub has compared since the load, the time the
load or the current pass began (log 134). -/
def lastClean (s : State) (g : Nat) : Nat :=
  match aGet g s.ward.dirtyAt with
  | some t => t
  | none => (aGet (g % 1024) s.ward.cleanAt).getD s.ward.passAt

/-- A mismatch: the entry is rewritten from the shadow, 0x1210 with bank, entry, last clean comparison and the searches over its group
since; the third at one entry within 24 h makes the bank's fault lasting (R209, R211, R214). -/
def wardMismatch (s : State) (g : Nat) : State :=
  let bank := g / 1024
  let c := lastClean s g
  let h := groupHead (wardOf s) bank
  let n := (s.ward.searches.filter (fun x => x.1 == h && decide (c < x.2))).length
  let mm := (s.ward.mismatches.filter (fun x => decide (s.now < x.2 + 86400000000000))) ++ [(g, s.now)]
  record 0x1210 (pathX 0x18 bank) (le 1 bank ++ le 2 (g % 1024) ++ le 8 c ++ le 4 n)
    { s with ward := { s.ward with
        rows := putEntryIn g (entryIn s.ward.shadow g) s.ward.rows
        mismatches := mm
        dirtyAt := aSet g c s.ward.dirtyAt
        lasting := if 3 ≤ (mm.filter (fun x => x.1 == g)).length then sIns bank s.ward.lasting else s.ward.lasting } }

/-- Entries of a row that differ from the shadow are rewritten from it (R210). -/
def repairRow (l g : Nat) (s : State) : State :=
  ((rowEntries l g).filter (fun e => entryIn s.ward.rows e != entryIn s.ward.shadow e)).foldl wardMismatch s

/-- A shadow word with an uncorrectable error has been read: its rebuild begins (R212). -/
def beginRebuild (s : State) (g : Nat) : State :=
  { s with ward := { s.ward with lostWords := s.ward.lostWords.filter (· != g), rebuilding := aSet g s.now s.ward.rebuilding } }

/-! ### A search (R204, R205, R210, R212, R215) -/

/-- A search drives the groups of the bank set: it counts against each for the payload of a later mismatch (R211). -/
def noteSearch (n : NsEntry) (s : State) : State :=
  { s with ward := { s.ward with searches := s.ward.searches ++ (setHeads s n).map (fun b => (placedHead s b, s.now)) } }

/-- What a search delivers: the action that governs, none for the namespace's own fields, or that it waits for a shadow word. -/
inductive SearchEnd where
  | action (a : Option WardAction)
  | waits
  deriving DecidableEq, Repr

/-- A search is taken, at most `fuel` times: the winner's row in the shadow is matched before the result is delivered; one that does
not match is rewritten and the search repeated; after the last taking firmware classifies (R210). A shadow word of the winner's
row that is uncorrectable is rebuilt first, and the search waits (R212). -/
def takeSearch : Nat → NsEntry → Nat → Key → State → SearchEnd × State
  | 0, n, cls, key, s => (.action (classifyShadow s n cls key), s)
  | fuel + 1, n, cls, key, s =>
    match wardWinner (wardMatches s.ward.rows s n cls key) with
    | none => (.action none, s)
    | some (_, g, a) =>
      let l := groupWidth (wardOf s) (groupHead (wardOf s) (g / 1024))
      let es := rowEntries l g
      if es.any (fun e => s.ward.lostWords.contains e || (aGet e s.ward.rebuilding).isSome) then
        (.waits, (es.filter s.ward.lostWords.contains).foldl beginRebuild s)
      else if rowMatches s.ward.shadow l g n.id cls key then (.action (actionOf s a), s)
      else takeSearch fuel n cls key (repairRow l g s)

/-- A key command's classification: without a group in the bank set none takes place (R204), a group without a place is classified
in firmware (R215), else the table is searched, and repeated at most three times (R205). -/
def search (n : NsEntry) (cls : Nat) (key : Key) (s : State) : SearchEnd × State :=
  let hs := setHeads s n
  if hs.isEmpty then (.action none, s)
  else if hs.any s.ward.firmware.contains then (.action (classifyShadow s n cls key), s)
  else takeSearch 4 n cls key (noteSearch n s)

/-- Namespace entry of the configuration in force. -/
def nsOf (s : State) (ns : Nat) : Option NsEntry := match s.cfg with | some c => c.nss.find? (fun n => n.id == ns) | none => none

/-- The namespace's fields with the overrides of one action (R65, Table 5.2). -/
def applyAction (p : Policy) (a : Option WardAction) : Policy :=
  match a with
  | some x => { p with k := (x.km.map (·.1)).getD p.k, m := (x.km.map (·.2)).getD p.m, thr := x.thr.getD p.thr,
                       ack := x.ack.getD p.ack, qos := x.qos.getD p.qos }
  | none => p

/-- D1 stands raised to D2 while a twin-configured device has no healthy STANDBY (R84). -/
def raisedAck (s : State) (ack : Nat) : Nat := if ack = 1 ∧ twinConfigured s ∧ ! hasStandby s then 2 else ack

/-! ### Lasting faults (R214, R215) -/

/-- A group is free: in no bank set, without a nonzero head priority, not quarantined and not taken by a relocation. -/
def groupFree (s : State) (h : Nat) : Bool :=
  let w := wardOf s
  let banks := (List.range (groupWidth w h)).map (h + ·)
  groupWidth w h != 0 &&
    ! (match s.cfg with | some c => c.nss.any (fun n => banks.any (fun b => n.bankSet.contains b)) | none => false) &&
    ! w.images.any (fun i => i.bank == h && i.e.prio != 0) &&
    banks.all (fun b => ! s.mem.qUnits.contains (pathX 0x18 b)) &&
    ! s.ward.moved.any (fun p => p.2 == h)

/-- The free group of a width, the lowest head first. -/
def freeGroup (s : State) (width head : Nat) : Option Nat :=
  (List.range 64).find? (fun h => groupWidth (wardOf s) h == width && h != head && groupFree s h)

/-- The table loads at a start (R207, R208, R215): every image goes to the shadow and to the row where its group stands; groups with a
quarantined bank load into a free group of their width or are classified in firmware. The verified record stays in DRAM as that of
the configuration in force. Mismatches of the last 24 h and lasting faults not yet answered stand (R214). -/
def loadWard (s : State) : State :=
  let w := wardOf s
  let t := { s with ward := { WardSt.reset with
    loaded := true, passAt := s.now, tickAt := s.now, mismatches := s.ward.mismatches, lasting := s.ward.lasting } }
  let used (h : Nat) : Bool := match s.cfg with
    | some c => c.nss.any (fun n => n.bankSet.contains h)
    | none => false
  let bad := (List.range 64).filter (fun h => groupWidth w h != 0 && used h &&
    (List.range (groupWidth w h)).any (fun i => s.mem.qUnits.contains (pathX 0x18 (h + i))))
  let u := bad.foldl (fun t h => match freeGroup t (groupWidth w h) h with
    | some g => { t with ward := { t.ward with moved := aSet h g t.ward.moved } }
    | none => { t with ward := { t.ward with firmware := sIns h t.ward.firmware } }) t
  let put (is : List WardImage) : List (Nat × WardEntry) := is.foldl (fun l i => aSet (1024 * placedBank u i.bank + i.entry) i.e l) []
  { u with ward := { u.ward with
      shadow := put w.images
      rows := put (w.images.filter (fun i => ! u.ward.firmware.contains (groupHead w i.bank))) } }

end Sys2Proof.Machine
end

