-- ==== Sys2Proof/Machine/IceOps.lean ====
section
/-! DEFINITION. The icefield: roster and views, placement and failure domains, bulk sending under leases, and what every
Milmo handler shares (chapter 8). -/

namespace Sys2Proof.Machine

/-! ### Roster and view (R304 to R309) -/

/-- The Icefield roster record in force. -/
def rosterOf (s : State) : Option Roster := match s.cfg with | some c => c.roster | none => none

/-- Roster entry of a slot. -/
def rosterEntry (s : State) (slot : Nat) : Option RosterEntry :=
  match rosterOf s with | some r => r.slots.find? (fun e => e.slot == slot) | none => none

/-- State of a slot in this pair's view; its own state for its own slot (R307). -/
def slotState (s : State) (slot : Nat) : SlotState :=
  if s.ice.slot = some slot then s.ice.own
  else match s.ice.view.find? (fun v => v.slot == slot) with | some v => v.state | none => .absent

/-- View entry of another slot. -/
def viewOf (s : State) (slot : Nat) : Option VSlot := s.ice.view.find? (fun v => v.slot == slot)

/-- A slot carries the suspected mark. -/
def suspected (s : State) (slot : Nat) : Bool := match viewOf s slot with | some v => v.suspected | none => false

/-- Slots of the roster, ascending. -/
def rosterSlots (s : State) : List Nat := match rosterOf s with | some r => r.slots.map (·.slot) | none => []

/-- The placing set: PLACING slots, marked or not (R307). -/
def placingSet (s : State) : List Nat := (rosterSlots s).filter (fun x => slotState s x == .placing)

/-- Alive slots other than the own one. -/
def aliveOthers (s : State) : List Nat := (rosterSlots s).filter (fun x => s.ice.slot != some x && alive (slotState s x))

/-- The own slot, 0xFFFF when the pair is in no roster (R305). -/
def mySlot (s : State) : Nat := s.ice.slot.getD 0xFFFF

/-! ### Bins and ranking (R310 to R312) -/

/-- Key hash of an object (R310). -/
def keyHash (s : State) (ns : Nat) (key : Key) : Word :=
  let p := placementKey s
  sipHash p.1 p.2 (le 2 ns ++ le 1 key.length ++ key)

/-- Home bin (R310). -/
def homeBin (s : State) (ns : Nat) (key : Key) : Nat := (keyHash s ns key).toNat / 2 ^ 44

/-- Bin of a chunk (R310). -/
def binOf (s : State) (ns chunk : Nat) (key : Key) : Nat := (homeBin s ns key + chunk) % 2 ^ 20

/-- Weight of a slot in a bin (R311). -/
def weight (s : State) (b slot : Nat) : Nat :=
  let p := placementKey s
  (sipHash p.1 p.2 (le 4 b ++ le 2 slot)).toNat

/-- Slots in descending weight, of equal weights the lower slot first (R311). -/
def rankOf (s : State) (b : Nat) (slots : List Nat) : List Nat :=
  ((slots.map (fun x => (weight s b x, x))).insertionSort (fun x y => y.1 < x.1 ∨ (x.1 = y.1 ∧ x.2 ≤ y.2))).map (·.2)

/-- Ranked list of a bin under the placing set (R311, R312). -/
def ranked (s : State) (b : Nat) : List Nat := rankOf s b (placingSet s)

/-- Domain value of a slot at a level (R313). -/
def domOf (s : State) (lvl : DomLevel) (slot : Nat) : Nat :=
  match rosterEntry s slot with
  | some e => match lvl with
    | .zone => e.zone
    | .rack => 65536 * e.zone + e.rack
    | .feed => 65536 * e.zone + e.feed
  | none => 2 ^ 40 + slot

/-- First pass of the walk: one slot per domain (R314). -/
def walkOnce (s : State) (lvl : DomLevel) (n : Nat) : List Nat → List Nat → List Nat
  | [], out => out
  | x :: r, out =>
    if out.length = n then out
    else if (out.map (domOf s lvl)).contains (domOf s lvl x) then walkOnce s lvl n r out
    else walkOnce s lvl n r (out ++ [x])

/-- Second pass: the slot of the least-used domain, ranked first on a tie, until n are chosen or none is left (R314). -/
def walkMore (s : State) (lvl : DomLevel) (all : List Nat) : Nat → List Nat → List Nat
  | 0, out => out
  | f + 1, out =>
    let uses (x : Nat) : Nat := (out.filter (fun y => domOf s lvl y == domOf s lvl x)).length
    let best := (all.filter (fun x => ! out.contains x)).foldl (fun (b : Option Nat) x => match b with
      | none => some x
      | some y => if uses x < uses y then some x else some y) none
    match best with
    | some x => walkMore s lvl all f (out ++ [x])
    | none => out

/-- Holders of a stripe of n positions placed by a bin (R314). -/
def holdersFor (s : State) (b n : Nat) (lvl : DomLevel) : List Nat :=
  let all := ranked s b
  let one := walkOnce s lvl n all []
  walkMore s lvl all (n - one.length) one

/-- Some domain repeats among the holders: the stripe is domain-short (R315). -/
def domainShort (s : State) (lvl : DomLevel) (hs : List Nat) : Bool := decide ((hs.map (domOf s lvl)).dedup.length < hs.length)

/-- The next slot of the walk for a position: the first ranked slot outside `used` whose domain differs from those in use, else
the one of the least-used domain (R314, R322). -/
def nextHolder (s : State) (b : Nat) (lvl : DomLevel) (keep used : List Nat) : Option Nat :=
  let all := (ranked s b).filter (fun x => ! used.contains x)
  match all.find? (fun x => ! (keep.map (domOf s lvl)).contains (domOf s lvl x)) with
  | some x => some x
  | none => (walkMore s lvl all 1 keep)[keep.length]?

/-! ### Coordinators (R316, R339, R343) -/

/-- The slot first for a home bin in this pair's view. -/
def firstSlot (s : State) (b : Nat) : Option Nat := (ranked s b).head?

/-- Slots that left the placing set since this pair formed its view, and have not come back. -/
def goneSlots (s : State) : List Nat := (s.ice.departed.map (·.1)).filter (fun x => ! (placingSet s).contains x)

/-- The former coordinator of a bin that a slot entered as first: first in the ranking without that slot, slots that left since
included (R343). -/
def formerFirst (s : State) (b slot : Nat) : Option Nat :=
  (rankOf s b (((placingSet s).filter (· != slot) ++ goneSlots s).dedup)).head?

/-- Handover of a bin in which this pair has a part (R343): the new first slot and the former coordinator, while that one is
still placing. -/
def handoverOf (s : State) (b : Nat) : Option (Nat × Nat) :=
  match firstSlot s b with
  | some x =>
    if s.ice.entering.contains x ∧ ! s.ice.finals.contains (x, b) then
      match formerFirst s b x with
      | some f => if (placingSet s).contains f ∧ (s.ice.slot = some x ∨ s.ice.slot = some f) then some (x, f) else none
      | none => none
    else none
  | none => none

/-- Handover records of a bin that still wait for a lease. -/
def stillSending (s : State) (b : Nat) : Bool :=
  s.ice.bulk.any (fun x => match x.2.2 with
    | .handoverRecord r _ => homeBin s r.ns r.key == b
    | _ => false)

/-- How this pair treats a coordination request for a bin (R323, R343): it coordinates, holds it, forwards it, or names the
slot that is first. -/
inductive CoordRole where
  | coordinates | holds | forwards (peer : Nat) | other (hint : Nat)
  deriving DecidableEq, Repr

/-- This pair handed a bin over and has sent its final record: it forwards to the new first (R343). -/
def handedOver (s : State) (b : Nat) : Option Nat :=
  match firstSlot s b with
  | some x => if s.ice.finals.contains (x, b) ∧ s.ice.slot ≠ some x ∧ formerFirst s b x = s.ice.slot then some x else none
  | none => none

/-- Role of this pair for a bin. -/
def roleFor (s : State) (b : Nat) : CoordRole :=
  match handoverOf s b with
  | some (x, f) => if s.ice.slot = some x then .forwards f else if stillSending s b then .coordinates else .holds
  | none =>
    if firstSlot s b = s.ice.slot ∧ s.ice.slot.isSome then .coordinates
    else match handedOver s b with
      | some x => .forwards x
      | none => .other ((firstSlot s b).getD 0xFFFF)

/-- The slot this pair addresses as coordinator of a key. -/
def coordSlot (s : State) (ns : Nat) (key : Key) : Nat :=
  let b := homeBin s ns key
  match roleFor s b with
  | .coordinates => mySlot s
  | .holds => mySlot s
  | .forwards f => f
  | .other x => x

/-- This pair took the bin by succession: the slot that coordinated it, first among those placing without handover and those
that left, is one that left (R339). -/
def tookBin (s : State) (b : Nat) : Bool :=
  let stay := (placingSet s).filter (fun x => ! s.ice.entering.contains x || s.ice.finals.contains (x, b))
  match (rankOf s b ((stay ++ goneSlots s).dedup)).head? with
  | some x => (goneSlots s).contains x
  | none => false

/-- Coordinating record of a key. -/
def recOf (s : State) (ns : Nat) (key : Key) : Option CoRec := s.ice.recs.find? (fun r => r.ns == ns && r.key == key)

/-- A request for a key waits for Record Replies: this pair is its bin's successor and holds no record of it (R340). -/
def mustGather (s : State) (ns : Nat) (key : Key) : Bool := (recOf s ns key).isNone && tookBin s (homeBin s ns key)

/-! ### Isolation (R337) -/

/-- Probes of the last second, and how many of them failed. -/
def isolationShare (s : State) : Nat × Nat :=
  let recent := s.ice.probes.filter (fun p => decide (s.now < p.at_ + 1000000000) && p.result != 0)
  (recent.length, (recent.filter (fun p => p.result == 2)).length)

/-- ISOLATION_CHANGE (R337): isolated above a half of failed probes, again not below a quarter. -/
def judgeIsolation (s : State) : State :=
  let (n, f) := isolationShare s
  if ! s.ice.isolated ∧ 2 * f > n then record 0x5020 pathPkg (le 2 n ++ le 2 f) { s with ice := { s.ice with isolated := true } }
  else if s.ice.isolated ∧ 4 * f < n then { s with ice := { s.ice with isolated := false } }
  else s

/-! ### Bulk traffic (R350 to R355) -/

/-- The calendar is in force: the roster holds more than the threshold of slots (R354). -/
def calendarOn (s : State) : Bool := match rosterOf s with | some r => decide (r.calThr < r.slots.length) | none => false

/-- Lease held for a slot and queue. -/
def leaseFor (s : State) (slot queue : Nat) : Option Lease :=
  s.ice.leases.find? (fun l => l.peer == slot && l.queue == queue && decide (0 < l.rate) && decide (s.now ≤ l.last + 5000000))

/-- A lease follows the calendar while both ends are locked (R355). -/
def followsCalendar (s : State) (l : Lease) : Bool := calendarOn s && s.ptp.locked && l.locked

/-- A lease request for a slot and queue, for as much as the outbound bulk budget allows (R351, R352), unless one is out. -/
def askLease (slot queue : Nat) (s : State) : State :=
  if s.ice.leases.any (fun l => l.peer == slot && l.queue == queue) then s
  else
    let id := s.ice.nextId
    let rate := match rosterOf s with | some r => r.outBulk | none => 0
    let l : Lease := { id := id, peer := slot, queue := queue, asked := rate, rate := 0, locked := s.ptp.locked, last := s.now }
    let pending := sumL (((s.ice.bulk.filter (fun x => x.1 == slot && x.2.1 == queue)).flatMap (fun x => bodiesOf x.2.2)).map (·.length))
    milmo slot 7 (.leaseRequest { id := id, queue := queue, locked := s.ptp.locked, calendar := calendarOn s, rate := rate, bytes := pending })
      { s with ice := { s.ice with nextId := id + 1, leases := s.ice.leases ++ [l] } }

/-- Send bulk traffic: at once under a lease that does not wait for the calendar, else it waits for one (R351). -/
def sendBulk (slot queue : Nat) (b : Body) (s : State) : State :=
  if s.ice.slot = some slot then milmo slot queue b s
  else match leaseFor s slot queue with
    | some l => if followsCalendar s l then { s with ice := { s.ice with bulk := s.ice.bulk ++ [(slot, queue, b)] } } else milmo slot queue b s
    | none => askLease slot queue { s with ice := { s.ice with bulk := s.ice.bulk ++ [(slot, queue, b)] } }

/-- Send what waits for a slot and queue. -/
def flushBulk (slot queue : Nat) (s : State) : State :=
  let go := s.ice.bulk.filter (fun x => x.1 == slot && x.2.1 == queue)
  go.foldl (fun t x => milmo x.1 x.2.1 x.2.2 t)
    { s with ice := { s.ice with bulk := s.ice.bulk.filter (fun x => ! (x.1 == slot && x.2.1 == queue)) } }

/-! ### Receiving (R358 to R360, R338) -/

/-- Count a dropped datagram by its cause (R360). -/
def dropGram (cause : Nat) (s : State) : State :=
  { s with ice := { s.ice with drops := aSet cause ((aGet cause s.ice.drops).getD 0 + 1) s.ice.drops } }

/-- Receive window of a sender slot and ROLE. -/
def windowOf (s : State) (slot role : Nat) : RxWin :=
  match s.ice.windows.find? (fun w => w.slot == slot && w.role == role) with
  | some w => w
  | none => { slot := slot, role := role, greatest := 0, seen := [] }

/-- A sequence is new: above the greatest, or in the window and not seen (R360). -/
def freshSeq (w : RxWin) (seq : Nat) : Bool := decide (w.greatest < seq) || (decide (w.greatest < seq + 1024) && ! w.seen.contains seq && seq != w.greatest)

/-- The window with a sequence accepted. -/
def takeSeq (w : RxWin) (seq : Nat) : RxWin :=
  let g := max w.greatest seq
  { w with greatest := g, seen := (sIns seq (if w.greatest = 0 then w.seen else sIns w.greatest w.seen)).filter (fun x => decide (g < x + 1024)) }

/-- A sender's incarnation is older than the view allows (R338, R360). -/
def staleSender (h : Hdr) (s : State) : Bool :=
  match viewOf s h.slot with
  | some v => if v.state = .lost then decide (h.inc ≤ v.inc) else decide (h.inc < v.inc)
  | none => false

/-- Type and body bytes of a datagram; of a body in several, those of the last one (log 8). -/
def gramOf (b : Body) : Nat × List Byte := (typeOf b, (bodiesOf b).getLastD [])

/-- The datagram's tag verifies under the field key of its epoch (R358, R496). -/
def tagOk (s : State) (h : Hdr) (body : List Byte) : Bool :=
  h.tag == gramTag s ((genFor s.sec.gens h.epoch).map (·.1)) h.epoch h.slot h.role h.seq (h.bytes ++ body)

/-- Why a datagram is dropped, in the order of R360: form, roster, incarnation, epoch, tag, replay; `t` is the verdict on its tag. -/
def dropCause (t : Bool) (type : Nat) (h : Hdr) (s : State) : Option Nat :=
  if h.magic ≠ 0x4D4C ∨ h.version ≠ 1 ∨ h.type ≠ type then some 0
  else if (rosterEntry s h.slot).isNone then some 1
  else if staleSender h s then some 2
  else if ! epochAccepted s h.epoch then some 3
  else if ! t then some 4
  else if ! freshSeq (windowOf s h.slot h.role) h.seq then some 5
  else none

/-- A datagram reaches a pair that receives Milmo: only an ACTIVE or SOLO device of a roster pair does. -/
def receives (s : State) : Bool := takesFrames s && holdsPair s && s.ice.slot.isSome && s.cfg.isSome

/-- A pair that starts hears the answers to its View Sync before it takes the service address (R309, R585 step 2). -/
def hears (s : State) : Bool := receives s || (firstStarting s && s.ice.slot.isSome && s.cfg.isSome)

/-- Accept a datagram or drop it (R360): a dropped one is counted, 0x7210 for a failed tag, 0x7211 for a replay; the
window change of an accepted one is mirrored with its effects, and an unlocked device adopts a greater epoch (R359). -/
def acceptBy (t : Bool) (type : Nat) (h : Hdr) (s : State) : Option State × State :=
  let seen := useKey (fieldKey ((genFor s.sec.gens h.epoch).map (·.1)) h.epoch)
  match dropCause t type h s with
  | some n =>
    let t := dropGram n (if n = 4 ∨ n = 5 then seen s else s)
    (none, if n = 4 then record 0x7210 (pathSlot h.slot) (le 2 h.slot ++ le 1 h.role) t
      else if n = 5 then record 0x7211 (pathSlot h.slot) (le 2 h.slot ++ le 1 h.role ++ le 8 h.seq) t else t)
  | none =>
    let w := takeSeq (windowOf s h.slot h.role) h.seq
    let t := seen { s with ice := { s.ice with windows := putIf (fun x => x.slot == h.slot && x.role == h.role) w s.ice.windows } }
    let u := if ! s.ptp.locked ∧ s.ice.epoch < h.epoch then adoptEpoch h.epoch t else t
    (some (mirror (.milmoState [.window w]) u), u)

/-- Accept a datagram of a type and a body or drop it, by its own tag. -/
def accept (h : Hdr) (g : Nat × List Byte) (s : State) : Option State × State := acceptBy (tagOk s h g.2) g.1 h s

/-- A datagram's effect: nothing of a dropped one is acted on (R360). -/
def onGram (h : Hdr) (b : Body) (f : State → State) (s : State) : State :=
  match accept h (gramOf b) s with
  | (some t, _) => f t
  | (none, t) => t

/-! ### Namespaces (R67) -/

/-- A namespace identifier is in the configuration. -/
def knownNs (s : State) (ns : Nat) : Bool := (nsOf s ns).isSome

/-- A coordination message for an unknown namespace is refused with 0x5070 (R67). -/
def refuseNs (ns : Nat) (s : State) : State := record 0x5070 (pathNs ns) (le 2 ns) s

/-- What a coordination message does where its namespace is in the configuration; else it is refused (R67). -/
def inNs (ns : Nat) (f : State → State) (s : State) : State := if knownNs s ns then f s else refuseNs ns s

end Sys2Proof.Machine
end

