-- ==== Sys2Proof/Machine/IceHold.lean ====
section
/-! DEFINITION. The holder's part of a Store: accepting, committing and dropping items, and the ledger (chapters 4 and 8). -/

namespace Sys2Proof.Machine

/-! ### Ledger (R188 to R193) -/

/-- Order value of a key in a namespace (R188). -/
def orderValue (n : NsEntry) (key : Key) : Nat × Nat := ((sipHash n.q0 n.q1 key).toNat, (sipHash n.q1 n.q0 key).toNat)

/-- Ledger delta of a chunk-0 item (R190, R191). -/
def ledgerOf (s : State) (i : Item) : List JRec :=
  match nsOf s i.ns with
  | some n =>
    let o := orderValue n i.key
    if i.chunk = 0 then
      [.ledger { ns := i.ns, lf := o.1, th := o.2, version := i.version, key := i.key, pos := i.pos, tomb := i.tomb,
                 ahead := i.holders.take i.pos, at_ := s.now }]
    else []
  | none => []

/-! ### Removing and committing items (R154, R175) -/

/-- Remove an item: its entry by a record of an operation, its Cornice grains, its grains on flash, its sparse map. -/
def removeItem (op : Nat) (i : Item) (s : State) : State :=
  let ws := clearSlot (kwSecret s) s.kw i
  let t := journal (kwRec s op ws ++ [.itemDel i.ns i.chunk i.key i.storeId i.pos]) s
  let u := { t with media := { t.media with sparse := aDel (i.flash.headD 0) t.media.sparse } }
  corniceFree i.grains (deadGrains i.flash u)

/-- Commit a pending item (R154): it becomes the committed one and the previous one goes, in one record; a committed
version that is greater stands, and the pending one goes as superseded. A tombstone removes every chunk of the key. DESIGN CHOICE:
a superseded pending entry goes by a record of operation 3, and the one record of a tombstone's commit may hold more than the 40
slot writes of Table 4.7 (log 130). -/
def commitItem (i : Item) (version : Nat) (s : State) : State :=
  let old := s.kw.items.filter (fun x => x.ns == i.ns && x.key == i.key && x.st == 2 && (i.tomb || x.chunk == i.chunk) && ! isItem i x)
  if old.any (fun x => x.chunk == i.chunk && decide (version < x.version)) then removeItem 3 i s
  else
    let j := { i with st := 2, version := version }
    let sec := kwSecret s
    let ws := rewriteSlot sec s.kw i j ++ old.flatMap (fun x => clearSlot sec s.kw x)
    let t := journal (kwRec s (if i.tomb then 4 else 2) ws ++ [.item j] ++
      old.map (fun x => .itemDel x.ns x.chunk x.key x.storeId x.pos) ++ ledgerOf s j) s
    old.foldl (fun t x =>
      corniceFree x.grains (deadGrains x.flash { t with media := { t.media with sparse := aDel (x.flash.headD 0) t.media.sparse } })) t

/-- Items of a Store ID. -/
def itemsOfStore (s : State) (id : Nat) : List Item := s.kw.items.filter (fun i => i.storeId == id)

/-- A Commit Notice commits the pending items of its Store ID (R326). -/
def applyCommit (id version : Nat) (s : State) : State :=
  ((itemsOfStore s id).filter (fun i => i.st != 2)).foldl (fun t i => commitItem i version t) s

/-- A Commit Notice reaches a holder (R67, R326). -/
def onCommitNotice (b : CtlB) (s : State) : State := inNs b.ns (applyCommit b.storeId b.version) s

/-- An Abort Notice reaches a holder: its pending items of the Store ID go, or those of one position (R322, R327). -/
def applyAbort (id pos : Nat) (s : State) : State :=
  ((itemsOfStore s id).filter (fun i => if pos = 0xFFFF then i.st != 2 else i.pos == pos)).foldl (fun t i => removeItem 3 i t) s

/-- A Commit Intent reaches a holder: its pending items of the Store ID carry the version and the intent (R324). -/
def applyIntent (id version : Nat) (s : State) : State :=
  ((itemsOfStore s id).filter (fun i => i.st != 2)).foldl (fun t i =>
    let j := { i with intent := true, version := version, st := 1 }
    journal (kwRec t 1 (rewriteSlot (kwSecret t) t.kw i j) ++ [.item j]) t) s

/-! ### Accepting (R171, R321, R696) -/

/-- Why a fragment is refused, in the order of R321, none where it is not. -/
def refusal (b : FragB) (s : State) : Option Nat :=
  if s.ice.isolated then some 4
  else if ! knownNs s b.ns ∨ purgePending s b.ns ∨ (b.repair ∧ inEraseWindow s b.ns) then some 2
  else if ! s.gauge.passed then some 3
  else
    let new := (itemsOf s b.ns b.chunk b.key).isEmpty
    if inShutdown s then some 1
    else if ! mayAdmit s b.ns b.chunk b.key b.tomb then some 1
    else if new ∧ ! b.repair ∧ (2 ≤ s.media.lowNoted ∨ 2 ≤ s.media.spareNoted) then some 1
    else none

/-- Fragment Ack of an item. -/
def ackOf (b : FragB) (pos level result cond hint version ref : Nat) : Body :=
  .fragmentAck { storeId := b.storeId, chunk := b.chunk, pos := pos, level := level, result := result, cond := cond,
                 hint := hint, version := version, ref := ref }

/-- Entry pair of a Store ID (Table 8.8). -/
def entryOfStore (id : Nat) : Nat := id / 2 ^ 48

/-- Send an ack to the entry pair and, where it is another slot, to the coordinator (R321). -/
def ackBoth (b : FragB) (a : Body) (s : State) : State :=
  let e := entryOfStore b.storeId
  let c := coordSlot s b.ns b.key
  let t := milmo e 7 a s
  if c = e then t else milmo c 7 a t

/-- The item a fragment makes. -/
def itemFrom (b : FragB) (pos version st coord : Nat) (grains : List Nat) (s : State) : Item :=
  { ns := b.ns, chunk := b.chunk, key := b.key, pos := pos, storeId := b.storeId, version := version, st := st, intent := false,
    d3 := b.tomb, replica := b.replica, tomb := b.tomb, repair := b.repair, domShort := b.domShort, k := b.k, m := b.m,
    thr := b.thr, ack := b.ack, dom := b.dom, holders := b.holders, len := b.len, valueLen := b.valueLen, grains := grains,
    flash := [], sb := 0, counter := 0, ackAt := s.now, queryAt := 0, coord := coord, zext := false, released := [] }

/-- Enter an item into the Keyway with its one journal record; none when its bucket and stash are full (R170, R172). -/
def enterItem (i : Item) (s : State) : Option State :=
  let sec := kwSecret s
  match planInsert (buckets s.kw.dram) s.kw (itemHash sec i.ns i.chunk i.key) (entryOf sec i) with
  | some ws => some (journal (kwRec s 1 ws ++ [.item i]) s)
  | none => none

/-- Take an item from the network into the Cornice, and enter it (R52, R171). -/
def takeItem (b : FragB) (pos version st : Nat) (s : State) : Option (Item × State) :=
  let (grains, t) := if b.tomb then ([], s) else cornicePut (padTo b.len b.data) s
  let i := itemFrom b pos version st (coordSlot s b.ns b.key) grains s
  match enterItem i t with
  | some u => some (i, u)
  | none => none

/-- An accepted item is acknowledged at D1 and laid; a tombstone, which occupies no grain, is at D3 at once (R321, R251). -/
def keepItem (b : FragB) (pos version : Nat) (i : Item) (s : State) : State :=
  let a := ackBoth b (ackOf b pos 1 0 0 0xFFFF version 0) s
  if i.tomb then ackBoth b (ackOf b pos 3 0 0 0xFFFF version 0) a else layItem i a

/-- A fragment that is held already is acknowledged again (R322). -/
def heldItem (b : FragB) (pos : Nat) (s : State) : Option Item :=
  s.kw.items.find? (sameItem b.ns b.chunk b.key b.storeId pos)

/-- Two pending entries of other Stores stand: a third Store waits (R153). -/
def mustWait (b : FragB) (s : State) : Bool := decide (2 ≤ (pendingOf s b.ns b.chunk b.key).length)

/-- An entry that the Keyway cannot admit is an event of R161, whose code and severity are free values (log 13). -/
def keywayFull (s : State) : State := recordRule 161 (Config.eventSeverity 161).val pathPkg s

/-- Result 1 comes from a shutdown or from free superblocks alone, not from the Keyway (R291, R299, R594). -/
def notForKeyway (b : FragB) (s : State) : Bool :=
  inShutdown s || mayAdmit s b.ns b.chunk b.key b.tomb && (itemsOf s b.ns b.chunk b.key).isEmpty && ! b.repair &&
    (decide (2 ≤ s.media.lowNoted) || decide (2 ≤ s.media.spareNoted))

/-- The reply to a refused fragment. Repair within an erase window is noted, an unknown namespace records 0x5070, and a full Keyway
records its event (R67, R161, R511). -/
def refuse (from_ : Nat) (b : FragB) (pos r : Nat) (s : State) : State :=
  let t := if r = 2 ∧ ! knownNs s b.ns then refuseNs b.ns s
    else if r = 2 ∧ b.repair ∧ inEraseWindow s b.ns then noteRefusal b.ns s
    else if r = 1 ∧ ! notForKeyway b s then keywayFull s else s
  milmo from_ 7 (ackOf b pos 0 r 0 (if r = 5 then (firstSlot s (homeBin s b.ns b.key)).getD 0xFFFF else 0xFFFF) 0 0) t

/-- Position a fragment has here: its own, or the index of the own slot in a multicast one (R320). -/
def myPos (b : FragB) (s : State) : Option Nat :=
  if b.pos ≠ 0xFF then some b.pos
  else
    let n := b.holders.idxOf (mySlot s)
    if n < b.holders.length then some n else none

/-- Keep a fragment that is neither refused nor waiting, under a version (0 before assignment) and state; its namespace's salt
is drawn when this is its first service (R484). -/
def storeItem (from_ : Nat) (b : FragB) (pos version st : Nat) (s : State) : State :=
  if ! b.tomb ∧ ! corniceTakes (grainsFor b.len) s then dropGram 6 s
  else match takeItem b pos version st ((withSalt b.ns s).getD s) with
    | some (i, t) => keepItem b pos version i t
    | none => refuse from_ b pos 1 s

/-- A Store waits while two of its item are pending (R153). -/
def waitItem (from_ role : Nat) (b : FragB) (s : State) : State :=
  if s.kw.waits.any (fun w => w.frag == b) then s
  else { s with kw := { s.kw with waits := s.kw.waits ++ [⟨from_, role, b, s.now⟩] } }

end Sys2Proof.Machine
end

