-- ==== Sys2Proof/Machine/IceCoord.lean ====
section
/-! DEFINITION. The coordinator's part: version assignment, commit and abort, succession, version floors, repair orders
(R68, R74 to R78, R323 to R328, R339 to R348). -/

namespace Sys2Proof.Machine

/-! ### Records and versions -/

/-- The greatest version of a key committed or in flight (R77). -/
def refVer (r : Option CoRec) : Option CoVer :=
  match r with
  | some x => (x.vers.filter (fun v => v.st != 4)).foldl (fun (b : Option CoVer) v => match b with
      | none => some v
      | some y => if y.version < v.version then some v else some y) none
  | none => none

/-- The current version of a key: the greatest committed one (R76). -/
def currentVer (r : Option CoRec) : Option CoVer :=
  match r with
  | some x => x.vers.find? (fun v => v.st == 2)
  | none => none

/-- Condition of a Store or Delete against the reference version (R77, R78, R122): 0 met, 1 key exists, 2 key does not
exist, 3 version mismatch. -/
def condition (o : StoreOpts) (tomb : Bool) (ref : Option CoVer) : Nat :=
  let exists_ : Bool := match ref with | some v => ! v.tomb | none => false
  if o.ifVersion ∧ (match ref with | some v => v.version | none => 0) ≠ o.expected then 3
  else if (tomb ∨ o.ifExists) ∧ ! exists_ then 2
  else if o.ifAbsent ∧ exists_ then 1
  else 0

/-- The next version of a key in its bin (R68, R344). -/
def nextVersion (s : State) (ns : Nat) (key : Key) : Nat :=
  let g := match recOf s ns key with | some r => r.greatest | none => 0
  4096 * (max (g / 4096) ((aGet (homeBin s ns key) s.ice.floors).getD 0) + 1) + mySlot s

/-- Chunks of a value (R59). -/
def chunkCount (valueLen : Nat) : Nat := max 1 (ceilDiv valueLen (2 ^ 22))

/-- Journal a coordinating record (R74). -/
def setRec (r : CoRec) (s : State) : State := journal [.co r] s

/-- Change one version of a record. -/
def onVer (version : Nat) (f : CoVer → CoVer) (r : CoRec) : CoRec := { r with vers := updIf (fun v => v.version == version) f r.vers }

/-- The record and version of a Store ID. -/
def verOfStore (s : State) (id : Nat) : Option (CoRec × CoVer) :=
  s.ice.recs.findSome? (fun r => (r.vers.find? (fun v => v.storeId == id)).map (fun v => (r, v)))

/-- Note that a slot holds a position of a chunk at a level. -/
def noteHolder (chunk pos slot level : Nat) (v : CoVer) : CoVer :=
  let c := match v.chunks.find? (fun x => x.chunk == chunk) with
    | some x => x
    | none => { chunk := chunk, holders := [], d1 := [], d3 := [], lost := [] }
  let c' : CoChunk := { c with
    holders := aSet pos slot c.holders, d1 := sIns pos c.d1
    d3 := if level = 3 then sIns pos c.d3 else c.d3, lost := c.lost.filter (· != pos) }
  { v with chunks := putIf (fun x => x.chunk == chunk) c' v.chunks }

/-- Stripe width of a version: k + m, or m + 1 replicas (R60, R61). -/
def isReplica (v : CoVer) : Bool := v.tomb || decide (v.valueLen ≤ 4096 * v.thr)
def stripeWidth (v : CoVer) : Nat := if isReplica v then v.m + 1 else v.k + v.m

/-- Every position of every chunk is at D3 (R81). -/
def allLaid (v : CoVer) : Bool :=
  (List.range v.nChunks).all (fun n => match v.chunks.find? (fun x => x.chunk == n) with
    | some x => decide (stripeWidth v ≤ x.d3.length)
    | none => false)

/-- A committed value at D3 leaves the ladder (R86). -/
def settleLaid (r : CoRec) (v : CoVer) (s : State) : State :=
  if allLaid v then doneBg 12 (itemNum r.ns 0 r.key).1 (itemNum r.ns 0 r.key).2 s else s

/-- A committed value that is not at D3 is a unit of the ladder, due at its commit and late 10 s after it (R86). -/
def ladderUnit (r : CoRec) (v : CoVer) (s : State) : State :=
  if v.st = 2 ∧ ! allLaid v then
    let n := itemNum r.ns 0 r.key
    addBgAt v.commitTime 12 n.1 n.2 (secNs 10) s
  else s

/-- Slots that hold anything of a version. -/
def slotsOf (v : CoVer) : List Nat := (v.chunks.flatMap (fun x => x.holders.map (·.2))).dedup

/-- Store control body (Table 8.11). -/
def ctlOf (r : CoRec) (v : CoVer) (result pos : Nat) : CtlB :=
  { storeId := v.storeId, version := v.version, ns := r.ns, chunks := v.nChunks, level := v.ack, result := result, pos := pos,
    commitTime := v.commitTime, key := [] }

/-! ### Assignment (R68, R77, R323) -/

/-- Apply the acks that came before their Store ID had a version. -/
def takeEarly (id : Nat) (v : CoVer) (s : State) : CoVer :=
  (s.ice.early.filter (fun e => e.2.storeId == id)).foldl (fun v e => noteHolder e.2.chunk e.2.pos e.1 e.2.level v) v

/-- Assign a version to a version request whose condition is met (R68, R74). -/
def assignVer (b : FragB) (s : State) : Nat × State :=
  let n := nextVersion s b.ns b.key
  let v0 : CoVer :=
    { version := n, storeId := b.storeId, st := 1, intent := false, tomb := b.tomb, k := b.k, m := b.m, thr := b.thr, ack := b.ack,
      dom := b.dom, domShort := b.domShort, valueLen := b.valueLen, nChunks := chunkCount b.valueLen, chunks := [],
      assignedAt := s.now, commitTime := 0, zext := [], unacked := [], sentAt := 0 }
  let v := takeEarly b.storeId v0 s
  let r : CoRec := match recOf s b.ns b.key with
    | some r => { r with greatest := max n r.greatest, vers := r.vers ++ [v] }
    | none => { ns := b.ns, key := b.key, bin := homeBin s b.ns b.key, greatest := n, vers := [v] }
  (n, setRec r { s with ice := { s.ice with early := s.ice.early.filter (fun e => e.2.storeId != b.storeId) } })

/-- The request names this pair as holder of position 0; a coordinator that is not only assigns (R323, R343; log 20). -/
def holdsFirst (b : FragB) (s : State) : Bool := b.holders.headD 0xFFFF == mySlot s

/-- A version request at its coordinator: conditions, then assignment, with the coordinator's own item where it holds
position 0; a third Store in a row waits, and without Cornice space nothing is assigned (R77, R122, R153, R696). -/
def assign (b : FragB) (s : State) : State :=
  let e := entryOfStore b.storeId
  let ref := refVer (recOf s b.ns b.key)
  let k := condition b.opts b.tomb ref
  if k ≠ 0 then milmo e 7 (ackOf b 0 0 0 k 0xFFFF 0 (match ref with | some v => v.version | none => 0)) s
  else if ! holdsFirst b s ∨ (heldItem b 0 s).isSome then
    let (n, a) := assignVer b s
    let t := match heldItem b 0 a with
      | some i =>
        let j := { i with version := n, st := 1 }
        journal (kwRec a 1 (rewriteSlot (kwSecret a) a.kw i j) ++ [.item j]) a
      | none => a
    milmo e 7 (ackOf b 0 1 0 0 0xFFFF n 0) t
  else if mustWait b s then waitItem e 0 b s
  else if ! b.tomb ∧ ! corniceTakes (grainsFor b.len) s then dropGram 6 s
  else if (takeItem b 0 0 0 s).isNone then refuse e b 0 1 s
  else
    let (n, t) := assignVer b s
    storeItem e b 0 n 1 t

/-! ### Commit and abort (R324 to R327) -/

/-- The ledger delta a coordinator adds within its commit record, with the position it holds of chunk 0; one that holds none stands
as position 0, so that it returns the key itself (R74, R191, R193; log 131). -/
def coordDelta (s : State) (r : CoRec) (v : CoVer) : List JRec :=
  match nsOf s r.ns with
  | some n =>
    let o := orderValue n r.key
    let hs := match v.chunks.find? (fun x => x.chunk == 0) with | some x => x.holders | none => []
    let pos := match hs.find? (fun h => some h.2 == s.ice.slot) with | some h => h.1 | none => 0
    [.ledger { ns := r.ns, lf := o.1, th := o.2, version := v.version, key := r.key, pos := pos, tomb := v.tomb,
               ahead := (List.range pos).map (fun p => (aGet p hs).getD 0xFFFF), at_ := s.now }]
  | none => []

/-- Commit a version: journaled as current with its ledger delta in the same record, older committed ones superseded, the ladder
unit of R86, the Commit Confirm, and Commit Notices to every holder of every chunk (R74, R191, R326). -/
def commitVersion (entry : Nat) (r : CoRec) (v : CoVer) (s : State) : State :=
  let above := r.vers.any (fun x => x.st == 2 && decide (v.version < x.version))
  let v' := { v with st := if above then 3 else 2, commitTime := s.now }
  let r' := { r with vers := r.vers.map (fun x =>
    if x.version = v.version then v' else if x.st = 2 ∧ ! above then { x with st := 3 } else x) }
  let a := ladderUnit r' v' (journal (.co r' :: coordDelta s r v') s)
  let b := milmo entry 7 (.commitConfirm (ctlOf r v' 0 0xFFFF)) a
  settleLaid r' v' (milmoAll (slotsOf v') 7 (.commitNotice (ctlOf r v' 0 0xFFFF)) b)

/-- Abort a version: Abort Notices to every holder that acknowledged it, resent until each has applied it (R327). -/
def abortVersion (r : CoRec) (v : CoVer) (s : State) : State :=
  let to_ := slotsOf v
  milmoAll to_ 7 (.abortNotice (ctlOf r { v with commitTime := 0 } 0 0xFFFF))
    (setRec (onVer v.version (fun x => { x with st := 4, unacked := to_, sentAt := s.now }) r) s)

/-! ### Succession (R340, R341) -/

/-- What this pair holds of a chunk, as a Record Reply gives it (R340): nothing of a namespace under its purge pass (R195). -/
def ownRecords (s : State) (ns chunk : Nat) (key : Key) : List StripeB :=
  let l := ((itemsOf s ns chunk key).filter (fun _ => ! purgePending s ns)).map (fun i => { stripeOf i with state := if i.st = 2 then 2 else 1 })
  if l.isEmpty then
    [{ ns := ns, chunk := chunk, key := key, state := 1, intent := false, tomb := false, domShort := false, zeroExt := false,
       final := false, holders := [], version := 0, greatest := 0, valueLen := 0, k := 1, m := 0, dom := .rack, thr := 0, d3 := [] }]
  else l

/-- A version gathered from Record Replies: state 2 if any reports it committed, holders by position, who has it at D1 and
D3. -/
def gathered (got : List (Nat × StripeB)) (version : Nat) : Option CoVer :=
  match got.filter (fun x => x.2.version == version) with
  | [] => none
  | (s0, r0) :: rest =>
    let all := (s0, r0) :: rest
    let place (x : Nat × StripeB) : Nat := x.2.holders.idxOf x.1
    let base : CoVer :=
      { version := version, storeId := 0, st := if all.any (fun x => x.2.state == 2) then 2 else if all.any (fun x => x.2.state == 4) then 4 else 1,
        intent := all.any (fun x => x.2.intent), tomb := r0.tomb, k := r0.k, m := r0.m, thr := r0.thr, ack := 2, dom := r0.dom,
        domShort := r0.domShort, valueLen := r0.valueLen, nChunks := chunkCount r0.valueLen, chunks := [], assignedAt := 0,
        commitTime := 0, zext := [], unacked := [], sentAt := 0 }
    some (all.foldl (fun v x =>
      if place x < x.2.holders.length then noteHolder x.2.chunk (place x) x.1 (if x.2.d3.contains (place x) then 3 else 1) v else v) base)

/-- Fragments or replicas a version needs to be at D2 (R81). -/
def d2Needs (v : CoVer) : Nat := if isReplica v then 2 else v.k + 1

/-- D2 is reached: every chunk has enough holders in distinct failure domains (R81, R341). -/
def d2Reached (s : State) (v : CoVer) : Bool :=
  (List.range v.nChunks).all (fun n => match v.chunks.find? (fun x => x.chunk == n) with
    | some x => decide (d2Needs v ≤ (((x.holders.filter (fun h => x.d1.contains h.1)).map (fun h => domOf s v.dom h.2)).dedup).length)
    | none => false)

/-- Store ID and acknowledgement level of a version, from the item this pair holds of it; without one the namespace's
level stands (log 18). -/
def ownFacts (s : State) (ns : Nat) (key : Key) (version : Nat) : Nat × Nat :=
  match s.kw.items.find? (fun i => i.ns == ns && i.key == key && i.version == version && i.chunk == 0) with
  | some i => (i.storeId, i.ack)
  | none => (0, match nsOf s ns with | some n => n.pol.ack | none => 2)

/-- What a successor decides for a pending version (R341): commit, abort, or ask the entry pair of a D1 Store. -/
inductive Verdict where
  | commit | abort | ask
  deriving DecidableEq, Repr

def verdict (s : State) (v : CoVer) : Verdict :=
  if v.st = 4 then .abort
  else if v.ack = 1 then
    if v.intent then .commit
    else if v.storeId = 0 ∨ slotState s (entryOfStore v.storeId) == .lost then .abort
    else .ask
  else if v.intent ∧ d2Reached s v then .commit else .abort

/-- Apply a successor's decision, journaled before it is announced (R341). -/
def decide_ (r : CoRec) (v : CoVer) (yes : Bool) (s : State) : State :=
  if yes then commitVersion (entryOfStore v.storeId) r v s else abortVersion r v s

/-- Start the gathering of a key's records, or add a request to the one that runs (R340). -/
def gatherFor (ns : Nat) (key : Key) (from_ : Nat) (b : Body) (s : State) : State :=
  match s.ice.succs.find? (fun x => x.ns == ns && x.key == key) with
  | some x => { s with ice := { s.ice with succs := updIf (fun y => y == x) (fun y => { y with held := y.held ++ [(from_, b)] }) s.ice.succs } }
  | none =>
    let bin := homeBin s ns key
    let waits := (ranked s bin).filter (fun x => x != mySlot s && ! suspected s x)
    let x : Succ := { ns := ns, key := key, waits := waits, got := (ownRecords s ns 0 key).map (fun r => (mySlot s, r)),
                      floors := [(aGet bin s.ice.floors).getD 0], held := [(from_, b)], asks := [], more := [] }
    milmoAll waits 7 (.recordQuery { ns := ns, first := 0, count := 1, key := key, pos := 0, version := 0, off := 0, len := 0 })
      { s with ice := { s.ice with succs := s.ice.succs ++ [x] } }

/-- The Record Queries that rebuild a version's other chunks: chunk and slot, from the walks of their bins (R342). -/
def chunkQueries (s : State) (ns : Nat) (key : Key) (v : CoVer) : List (Nat × Nat) :=
  (List.range (v.nChunks - 1)).flatMap (fun n => (holdersFor s (binOf s ns (n + 1) key) (stripeWidth v) v.dom).map (fun h => (n + 1, h)))

/-- Send Record Queries, each for one chunk of a key (R340, R342). -/
def queryAll (ns : Nat) (key : Key) (qs : List (Nat × Nat)) (s : State) : State :=
  qs.foldl (fun t q => milmo q.2 7 (.recordQuery { ns := ns, first := q.1, count := 1, key := key, pos := 0, version := 0, off := 0, len := 0 }) t) s

/-- Rebuild the records of a version's other chunks by Record Queries to the walks of their bins (R342). -/
def queryChunks (ns : Nat) (key : Key) (v : CoVer) (s : State) : State := queryAll ns key (chunkQueries s ns key v) s

/-- The versions a gathering has found, each with what this pair knows of its Store. -/
def foundVers (x : Succ) (s : State) : List CoVer :=
  ((((x.got.map (fun g => g.2.version)).filter (· != 0)).dedup).filterMap (gathered x.got)).map (fun v =>
    let f := ownFacts s x.ns x.key v.version
    { v with storeId := f.1, ack := f.2 })

/-- Queries whose answers a decision needs: a value is at D2 only when every chunk is, so the other chunks of a pending version that
shows intent and was to reach D2 are asked for before it is decided (R81, R341; log 132). -/
def wantedQueries (x : Succ) (s : State) : List (Nat × Nat) :=
  (((foundVers x s).filter (fun v => v.st == 1 && v.intent && decide (2 ≤ v.ack))).flatMap (fun v => chunkQueries s x.ns x.key v)).filter
    (fun q => ! suspected s q.2 && ! x.got.any (fun g => g.1 == q.2 && g.2.chunk == q.1))

/-- Every remaining slot has answered: the record is formed, pending versions are decided, and D1 ones without intent are
asked of their entry pair (R340, R341). The requests held are handled once nothing is left to ask. -/
def decideSucc (x : Succ) (s : State) : State :=
  let bin := homeBin s x.ns x.key
  let versions := ((x.got.map (fun g => g.2.version)).filter (· != 0)).dedup
  let vs := foundVers x s
  let top := maxL ((vs.filter (fun v => v.st == 2)).map (·.version))
  let vs2 := vs.map (fun v => if v.st = 2 ∧ v.version ≠ top then { v with st := 3 } else v)
  let r : CoRec := { ns := x.ns, key := x.key, bin := bin, greatest := max (maxL versions) (maxL (x.got.map (fun g => g.2.greatest))), vers := vs2 }
  let a := journal [.floor bin (maxL x.floors), .co r] s
  let b := (vs2.filter (fun v => v.st == 1)).foldl (fun t v =>
    match verdict t v, recOf t x.ns x.key with
    | .commit, some q => decide_ q v true t
    | .abort, some q => decide_ q v false t
    | .ask, _ => milmo (entryOfStore v.storeId) 7 (.statusQuery { ctlOf r v 0 0xFFFF with key := x.key }) t
    | _, none => t) a
  let b := (vs2.filter (fun v => decide (1 < v.nChunks))).foldl (fun t v => queryChunks x.ns x.key v t) b
  let asks := ((vs2.filter (fun v => v.st == 1)).filter (fun v => verdict s v == .ask)).map (·.version)
  if asks.isEmpty then
    { b with ice := { b.ice with
        succs := b.ice.succs.filter (fun y => ! (y.ns == x.ns && y.key == x.key)), mail := b.ice.mail ++ x.held } }
  else { b with ice := { b.ice with succs := updIf (fun y => y.ns == x.ns && y.key == x.key) (fun y => { y with asks := asks, waits := [], more := [] }) b.ice.succs } }

/-- The slots of the home bin have answered: what is still wanted of other chunks is asked for, at this pair from its own items; with
nothing wanted the gathering is decided (R340, R341). -/
def resolveSucc (x : Succ) (s : State) : State :=
  let qs := wantedQueries x s
  let own := (qs.filter (fun q => s.ice.slot == some q.2)).flatMap (fun q => (ownRecords s x.ns q.1 x.key).map (fun r => (mySlot s, r)))
  let far := qs.filter (fun q => s.ice.slot != some q.2)
  let x' := { x with got := x.got ++ own, waits := [], more := far }
  if far.isEmpty then decideSucc x' s
  else queryAll x.ns x.key far { s with ice := { s.ice with succs := updIf (fun y => y.ns == x.ns && y.key == x.key) (fun _ => x') s.ice.succs } }

/-- A gathering goes on once nothing it waits for is left, and not while the pair is isolated, which commits nothing (R337, R340, R341). -/
def succOn (x : Succ) (s : State) : State :=
  if x.waits.isEmpty ∧ x.asks.isEmpty ∧ x.more.isEmpty ∧ ! s.ice.isolated then resolveSucc x s else s

/-! ### Version floors (R70, R128, R344) -/

/-- The first 8 slots of a bin other than this pair's (R344). -/
def floorSlots (s : State) (b : Nat) : List Nat := ((ranked s b).filter (· != mySlot s)).take 8

/-- Release a tombstone's items at its holders and discard a key's record. -/
def discardRec (ns : Nat) (key : Key) (s : State) : State :=
  match recOf s ns key with
  | some r =>
    let t := journal [.coDel ns key] s
    (r.vers.filter (fun v => v.tomb && v.st == 2)).foldl (fun t v =>
      milmoAll (slotsOf v) 1 (.holderReturn
        { ns := ns, chunk := 0, key := key, state := 2, intent := false, tomb := true, domShort := v.domShort, zeroExt := false, final := false,
          holders := [], version := v.version, greatest := r.greatest, valueLen := 0, k := v.k, m := v.m, dom := v.dom, thr := v.thr, d3 := [] }
        (some false)) t) t
  | none => s

/-- Raise the floor of a key's bin before its last record is discarded (R344). -/
def raiseFloor (r : CoRec) (s : State) : State :=
  let seq := max (r.greatest / 4096) (maxL (r.vers.map (fun v => v.version / 4096)))
  let f := max seq ((aGet r.bin s.ice.floors).getD 0)
  let to_ := floorSlots s r.bin
  let t := journal [.floor r.bin f] s
  if to_.isEmpty then discardRec r.ns r.key t
  else
    milmoAll to_ 7 (.floorNotice r.bin f)
      { t with ice := { t.ice with raises := t.ice.raises ++ [⟨r.bin, f, to_, r.ns, r.key, s.now⟩] } }

/-- A slot of a raise has answered, or is LOST: with none left the record is discarded. -/
def raiseAnswered (slot bin floor : Nat) (s : State) : State :=
  (s.ice.raises.filter (fun x => x.bin == bin && decide (x.floor ≤ floor) && x.waits.contains slot)).foldl (fun t x =>
    let w := x.waits.filter (· != slot)
    if w.isEmpty then
      discardRec x.ns x.key { t with ice := { t.ice with raises := t.ice.raises.filter (fun y => ! (y.ns == x.ns && y.key == x.key)) } }
    else { t with ice := { t.ice with raises := updIf (fun y => y.ns == x.ns && y.key == x.key) (fun y => { y with waits := w }) t.ice.raises } }) s

/-! ### Repair (R345 to R348) -/

/-- Surviving positions of a chunk. -/
def surviving (x : CoChunk) : List Nat := ((x.holders.map (·.1)).filter (fun p => ! x.lost.contains p))

/-- Margin of a stripe: surviving fragments less k, k counted as 1 for a replicated value (R345). -/
def marginOf (v : CoVer) (x : CoChunk) : Int := (surviving x).length - (if isReplica v then 1 else v.k : Nat)

/-- Deadline span and fault code by margin (Table 8.2). -/
def repairSpan (m : Int) : Nat × Nat := if m ≤ 0 then (secNs 600, 0x9380) else if m = 1 then (secNs 3600, 0x9381) else (secNs 43200, 0x9382)

/-- Holders of a chunk as the 32 positions of a stripe record; a position without a holder on record is that of the walk
(R329). -/
def holderList (s : State) (r : CoRec) (v : CoVer) (chunk : Nat) : List Nat :=
  let n := stripeWidth v
  let w := holdersFor s ((r.bin + chunk) % 2 ^ 20) n v.dom
  let known := match v.chunks.find? (fun x => x.chunk == chunk) with | some x => x.holders | none => []
  (List.range n).map (fun p => match aGet p known with | some h => h | none => w[p]?.getD 0xFFFF)

/-- Durability level of a version by what its holders have reported (R81). -/
def levelOf (s : State) (v : CoVer) : Nat :=
  if allLaid v then 3
  else
    let held := (List.range v.nChunks).all (fun n => v.chunks.any (fun x => x.chunk == n && ! x.d1.isEmpty))
    if d2Reached s v then 2 else if v.st = 2 ∨ v.st = 3 ∨ held then 1 else 0

/-- Stripe record of a chunk at its coordinator (Table 8.9). -/
def recordOf (s : State) (r : CoRec) (v : CoVer) (chunk : Nat) : StripeB :=
  { ns := r.ns, chunk := chunk, key := r.key, state := if v.st = 3 then 2 else v.st, intent := v.intent, tomb := v.tomb,
    domShort := v.domShort, zeroExt := ! v.zext.isEmpty, final := false, holders := holderList s r v chunk, version := v.version,
    greatest := r.greatest, valueLen := v.valueLen, k := v.k, m := v.m, dom := v.dom, thr := v.thr
    d3 := match v.chunks.find? (fun x => x.chunk == chunk) with | some x => x.d3 | none => []
    exts := v.zext, level := levelOf s v }

/-- An object is lost: critical 0x5050, once (R347). -/
def objectLost (ns : Nat) (key : Key) (s : State) : State :=
  if s.ice.lostObjs.contains (ns, key) then s
  else record 0x5050 (pathNs ns) (le 2 ns ++ le 1 key.length ++ key.take 24) { s with ice := { s.ice with lostObjs := s.ice.lostObjs ++ [(ns, key)] } }

/-- Order the repair of one position of a chunk (R345, R347): the next slot of the walk takes it, the unit enters the ladder
under the deadline of the stripe's margin; a stripe with too few survivors is lost. -/
def orderRepair (r : CoRec) (v : CoVer) (chunk pos : Nat) (s : State) : State :=
  match v.chunks.find? (fun x => x.chunk == chunk) with
  | none => s
  | some x0 =>
    let x := { x0 with lost := sIns pos x0.lost, d1 := x0.d1.filter (· != pos), d3 := x0.d3.filter (· != pos) }
    let v1 := { v with chunks := putIf (fun y => y.chunk == chunk) x v.chunks }
    if marginOf v1 x < 0 then objectLost r.ns r.key (setRec (onVer v.version (fun _ => v1) r) s)
    else
      let keep := (x.holders.filter (fun h => h.1 != pos && ! x.lost.contains h.1)).map (·.2)
      match nextHolder s ((r.bin + chunk) % 2 ^ 20) v.dom keep (x0.holders.map (·.2)) with
      | none => setRec (onVer v.version (fun _ => v1) r) s
      | some h =>
        let x2 := { x with holders := aSet pos h x.holders }
        let v2 := { v1 with chunks := putIf (fun y => y.chunk == chunk) x2 v1.chunks }
        let (span, fault) := repairSpan (marginOf v1 x)
        let t := setRec (onVer v.version (fun _ => v2) r) s
        let rec_ := recordOf t r v2 chunk
        let n := (itemNum r.ns chunk r.key).1
        milmo h 7 (.repairOrder rec_ pos)
          (addBg 13 (32 * n + pos) fault span
            { t with ice := { t.ice with repairs := t.ice.repairs ++ [⟨rec_, pos, h, false, s.now, false, 0⟩] } })

/-- Positions of a chunk that no holder ever took (R322). -/
def unplacedPositions (v : CoVer) (x : CoChunk) : List Nat := (List.range (stripeWidth v)).filter (fun p => (aGet p x.holders).isNone)

/-- A chunk of a version, with no holder where none was ever heard of. -/
def chunkOrEmpty (v : CoVer) (n : Nat) : CoChunk :=
  match v.chunks.find? (fun x => x.chunk == n) with
  | some x => x
  | none => { chunk := n, holders := [], d1 := [], d3 := [], lost := [] }

/-- A version that lists all its chunks. -/
def withChunks (v : CoVer) : CoVer := { v with chunks := (List.range v.nChunks).map (chunkOrEmpty v) }

/-- The positions of a version that the loss of a slot costs: those the slot held, and, where the slot was the entry pair, those that
nobody has acknowledged, whose bytes only its Cornice had (R87, R88). -/
def costsOf (slot : Nat) (v : CoVer) : List (Nat × Nat) :=
  let gone := v.storeId != 0 && entryOfStore v.storeId == slot
  (withChunks v).chunks.flatMap (fun x =>
    ((x.holders.filter (fun h => h.2 == slot && ! x.lost.contains h.1)).map (·.1) ++
      (if gone then (unplacedPositions v x).filter (fun p => ! x.lost.contains p) else [])).map (fun p => (x.chunk, p)))

/-- Repair every position of the versions this pair coordinates that the loss of a slot costs (R87, R88, R345, R347). -/
def repairSlot (slot : Nat) (s : State) : State :=
  s.ice.recs.foldl (fun t r =>
    (r.vers.filter (fun v => v.st == 2)).foldl (fun t v =>
      (costsOf slot v).foldl (fun t c =>
        match recOf t r.ns r.key with
        | some q => match q.vers.find? (fun y => y.version == v.version) with
          | some w => orderRepair q (withChunks w) c.1 c.2 t
          | none => t
        | none => t) t) t) s

/-- Every holder of a chunk is told the holder list that a repair or rebalance left (R191; log 131). -/
def tellHolders (ns chunk : Nat) (key : Key) (version : Nat) (s : State) : State :=
  match recOf s ns key with
  | some r => match r.vers.find? (fun v => v.version == version) with
    | some v =>
      let rec_ := recordOf s r v chunk
      milmoAll (((chunkOrEmpty v chunk).holders.map (·.2)).dedup) 7 (.holderReturn rec_ (some true)) s
    | none => s
  | none => s

/-- A repaired position is restored: its unit leaves the ladder; after a rebalance the old holder releases its item; the holders
learn the new list (R191, R346, R348). -/
def repairDone (ns chunk : Nat) (key : Key) (version pos slot : Nat) (s : State) : State :=
  match s.ice.repairs.find? (fun x => ! x.mine && x.rec_.ns == ns && x.rec_.chunk == chunk && x.rec_.key == key && x.rec_.version == version && x.pos == pos && x.holder == slot) with
  | some x =>
    let n := (itemNum ns chunk key).1
    let t := { s with ice := { s.ice with repairs := s.ice.repairs.filter (fun y => y != x) }
                      media := { s.media with bg := s.media.bg.filter (fun u => ! ((u.kind == 13 || u.kind == 15) && u.id == 32 * n + pos)) } }
    tellHolders ns chunk key version (if x.rebalance then milmo x.old 7 (.holderReturn x.rec_ (some false)) t else t)
  | none => s

end Sys2Proof.Machine
end

