-- ==== Sys2Proof/Machine/IceEntry.lean ====
section
/-! DEFINITION. The entry pair's part of a Store or Delete: Cornice admission, dispatch, acknowledgements, commit and
completion (R71, R75, R81 to R85, R91, R112, R319 to R327). -/

namespace Sys2Proof.Machine

/-! ### Stores by Store ID -/

def storeBy (s : State) (id : Nat) : Option EStore := s.ice.stores.find? (fun e => e.id == id)

/-- Mirror the record of a pending Store (Table 10.6). -/
def mirrorStore (id : Nat) (s : State) : State :=
  match storeBy s id with
  | some e => mirror (.milmoState [.pendingStore e]) s
  | none => s

/-- Change a Store of this entry pair; its pending record is mirrored (Table 10.6). -/
def onStore (id : Nat) (f : EStore → EStore) (s : State) : State :=
  mirrorStore id { s with ice := { s.ice with stores := updIf (fun e => e.id == id) f s.ice.stores } }

def onChunk (n : Nat) (f : EChunk → EChunk) (e : EStore) : EStore := { e with chunks := updIf (fun x => x.chunk == n) f e.chunks }

def onPos (p : Nat) (f : EPos → EPos) (x : EChunk) : EChunk := { x with poss := updIf (fun y => y.pos == p) f x.poss }

def chunkBy (e : EStore) (n : Nat) : Option EChunk := e.chunks.find? (fun x => x.chunk == n)

def posBy (x : EChunk) (p : Nat) : Option EPos := x.poss.find? (fun y => y.pos == p)

/-! ### Coding (R60, R61, R317, R318) -/

/-- The value is stored as replicas: a tombstone, or no longer than the threshold (R61, R78). -/
def repStore (e : EStore) : Bool := e.tomb || decide (e.valueLen ≤ 4096 * e.pol.thr)

/-- Positions of each chunk (R314). -/
def widthOf (e : EStore) : Nat := if repStore e then e.pol.m + 1 else e.pol.k + e.pol.m

/-- Chunks of the Store. -/
def chunksOf (e : EStore) : Nat := if e.tomb then 1 else chunkCount e.valueLen

/-- Length of chunk n of a value (R59). -/
def chunkLen (valueLen n : Nat) : Nat := min (2 ^ 22) (valueLen - 2 ^ 22 * n)

/-- Fragment length F of a chunk (R60). -/
def fragLen (k len : Nat) : Nat := ceilDiv (ceilDiv len k) 64 * 64

/-- Data fragment j of a chunk (R318). -/
def dataFrag (f j : Nat) (bytes : List Byte) : List Byte := padTo f ((bytes.drop (j * f)).take f)

/-- The bytes of a position: the whole value of a replica, a data fragment, or a parity fragment (R317). -/
def fragmentBytes (rep : Bool) (k m pos : Nat) (bytes : List Byte) : List Byte :=
  let f := fragLen k bytes.length
  if rep then bytes
  else if pos < k then dataFrag f pos bytes
  else rsParity m (pos - k) f ((List.range k).map (fun j => dataFrag f j bytes))

/-- Bytes of a chunk in the entry pair's Cornice. -/
def chunkBytes (s : State) (x : EChunk) : List Byte := (x.grains.flatMap (fun a => (aGet a s.kw.cornice).getD [])).take x.len

/-- Holders of a chunk as its datagrams list them (Table 8.8). -/
def holdersOf (x : EChunk) : List Nat := x.poss.map (fun p => if p.unplaced then 0xFFFF else p.slot)

/-- The Fragment of a position; `ver` makes it the version request (R319, Table 8.8). -/
def fragOf (s : State) (e : EStore) (x : EChunk) (pos : Nat) (ver : Bool) : FragB :=
  let d := if e.tomb then [] else fragmentBytes (repStore e) e.pol.k e.pol.m pos (chunkBytes s x)
  { ns := e.ns, chunk := x.chunk, key := e.key, pos := pos, k := if repStore e then 1 else e.pol.k, m := e.pol.m, storeId := e.id,
    version := e.version, len := d.length, valueLen := e.valueLen, segOff := 0, verReq := ver, replica := repStore e, tomb := e.tomb,
    repair := false, domShort := x.domShort, dom := e.pol.dom, ack := e.pol.ack, thr := e.pol.thr, opts := e.opts, result := 0,
    holders := holdersOf x, data := d }

/-! ### Sending (R319, R320, R322) -/

/-- Bulk copies of a position that still wait for a lease are not sent. -/
def dropBulk (id n p : Nat) (s : State) : State :=
  { s with ice := { s.ice with bulk := s.ice.bulk.filter (fun x => match x.2.2 with
      | .fragment b => ! (b.storeId == id && b.chunk == n && b.pos == p)
      | _ => true) } }

/-- A position waits for a lease. -/
def waitsBulk (s : State) (id n p : Nat) : Bool :=
  s.ice.bulk.any (fun x => match x.2.2 with
    | .fragment b => b.storeId == id && b.chunk == n && b.pos == p
    | _ => false)

/-- The version request goes with position 0 of chunk 0 while no version is known, to the coordinator (R319, R323). -/
def carriesRequest (e : EStore) (n : Nat) (p : EPos) : Bool := n == 0 && p.pos == 0 && e.version == 0 && p.slot == e.coord

/-- Send a position by unicast, on queue 4 or as bulk traffic on queue 3 (R319). -/
def sendPos (bulk : Bool) (id n p : Nat) (s : State) : State :=
  match storeBy s id with
  | none => s
  | some e => match chunkBy e n with
    | none => s
    | some x => match posBy x p with
      | none => s
      | some y =>
        if y.unplaced then s
        else
          let b := Body.fragment (fragOf s e x p (carriesRequest e n y))
          let t := onStore id (onChunk n (onPos p (fun z => { z with sentAt := some s.now }))) s
          if bulk then sendBulk y.slot 3 b t else milmo y.slot 4 b t

/-- The version request alone, to the slot the entry pair takes for the coordinator (R323). -/
def requestVersion (id : Nat) (s : State) : State :=
  match storeBy s id with
  | none => s
  | some e => match chunkBy e 0 with
    | none => s
    | some x => milmo e.coord 7 (.fragment (fragOf s e x 0 true)) s

/-- Send a body to the group of a bin (R320). -/
def milmoGroup (bin : Nat) (b : Body) (s : State) : State :=
  emit (.milmoGroup bin 4 (s.ice.txSeq + 1) b) <| useKey (fieldKey s.sec.inUse s.ice.epoch) { s with ice := takeTxSeq b s.ice }

/-- Multicast is enabled (R320). -/
def mcastOn (s : State) : Bool := match rosterOf s with | some r => r.mcast | none => false

/-- Dispatch a chunk that lies in the Cornice: its holders by the walk, a domain-short stripe recorded, positions 0 to k at
once and the others as bulk; a replicated value by multicast where it is enabled, with unicast copies to the holders
outside the group's first 12 slots (R314, R315, R319, R320). -/
def dispatchChunk (id n : Nat) (s : State) : State :=
  match storeBy s id with
  | none => s
  | some e => match chunkBy e n with
    | none => s
    | some x =>
      let w := widthOf e
      let hs := holdersFor s x.bin w e.pol.dom
      let short := domainShort s e.pol.dom hs
      let ps : List EPos := (List.range w).map (fun p =>
        { pos := p, slot := hs[p]?.getD 0xFFFF, sentAt := none, resends := 0, level := 0, unplaced := decide (hs.length ≤ p) })
      let coord := if n = 0 then hs.headD 0xFFFF else e.coord
      let a := onStore id (fun e => { onChunk n (fun y => { y with poss := ps, domShort := short, sentAt := s.now }) e with
        stage := max 1 e.stage, coord := coord }) s
      let b := if short then record 0x5040 (pathNs e.ns) (le 2 e.ns ++ le 2 n ++ le 1 e.key.length ++ e.key.take 24) a else a
      let k := if repStore e then 1 else e.pol.k
      if mcastOn b ∧ repStore e then
        let members := (rankOf b x.bin (placingSet b)).take 12
        let m := match storeBy b id with
          | some f => match chunkBy f n with
            | some y => milmoGroup x.bin (.fragment { fragOf b f y 0xFF (f.version == 0) with data := chunkBytes b y }) b
            | none => b
          | none => b
        let marked := onStore id (onChunk n (fun y => { y with poss := y.poss.map (fun p => { p with sentAt := some s.now }), allSent := true })) m
        (ps.filter (fun p => ! members.contains p.slot || some p.slot == b.ice.slot)).foldl (fun t p => sendPos false id n p.pos t) marked
      else ps.foldl (fun t p => sendPos (decide (k < p.pos)) id n p.pos t) b

/-! ### Levels (R81, R82, R112) -/

/-- Positions whose domain no earlier position has: only these count toward D2 (R81, R315). -/
def countable (s : State) (e : EStore) (ps : List EPos) : List EPos :=
  ps.filter (fun p => ! p.unplaced && ! ps.any (fun q => decide (q.pos < p.pos) && ! q.unplaced && domOf s e.pol.dom q.slot == domOf s e.pol.dom p.slot))

/-- Fragments or replicas a Store needs for D2 (R81). -/
def needsD2 (e : EStore) : Nat := if repStore e then 2 else e.pol.k + 1

/-- Level of a dispatched chunk (Table 2.2). -/
def chunkLevel (s : State) (e : EStore) (x : EChunk) : Nat :=
  if x.poss.isEmpty then 0
  else if x.poss.all (fun p => p.level == 3) then 3
  else if needsD2 e ≤ ((countable s e x.poss).filter (fun p => decide (1 ≤ p.level))).length then 2
  else 1

/-- Level of the value: that of its lowest chunk, 0 before all of it is there (R81). -/
def valueLevel (s : State) (e : EStore) : Nat :=
  if e.chunks.length < chunksOf e ∨ e.got < e.valueLen then 0 else minL (e.chunks.map (chunkLevel s e))

/-- Level a Store has to reach now: D1 is D2 while the pair has no healthy STANDBY, under way or not (R84, log 119). -/
def ackNow (s : State) (e : EStore) : Nat := raisedAck s e.pol.ack

/-- A chunk can still reach the Store's level with the positions that have a place (R322). -/
def reachable (s : State) (e : EStore) (x : EChunk) : Bool :=
  x.poss.isEmpty ||
  match ackNow s e with
  | 1 => true
  | 2 => decide (needsD2 e ≤ (countable s e x.poss).length)
  | _ => x.poss.all (fun p => ! p.unplaced)

/-- Placement is possible for a policy (R112): enough eligible holders in distinct domains. -/
def placementOk (s : State) (p : Policy) (rep : Bool) (bin : Nat) : Bool :=
  let n := if rep then p.m + 1 else p.k + p.m
  let d := (walkOnce s p.dom n (ranked s bin) []).length
  match p.ack with
  | 1 => decide (1 ≤ d)
  | 2 => decide ((if rep then 2 else p.k + 1) ≤ d)
  | _ => decide (n ≤ d)

/-! ### Ending a Store -/

/-- Store control body from the entry pair (Table 8.11). -/
def entryCtl (e : EStore) (level pos : Nat) (key : Bool) : CtlB :=
  { storeId := e.id, version := e.version, ns := e.ns, chunks := chunksOf e, level := level, result := 0, pos := pos, commitTime := 0,
    key := if key then e.key else [] }

/-- Slots to which anything of a Store was sent. -/
def sentTo (e : EStore) : List Nat :=
  (e.chunks.flatMap (fun x => (x.poss.filter (fun p => p.sentAt.isSome && ! p.unplaced)).map (·.slot))).dedup

/-- A Store leaves the entry pair with its Cornice grains. -/
def dropStore (e : EStore) (s : State) : State :=
  corniceFree (e.chunks.flatMap (·.grains)) <| mirror (.milmoState [.storeEnd e.id])
    { s with ice := { s.ice with
        stores := s.ice.stores.filter (fun x => x.id != e.id)
        bulk := s.ice.bulk.filter (fun x => match x.2.2 with | .fragment b => b.storeId != e.id | _ => true) } }

/-- Complete the host command of a Store with a status and result dwords. -/
def answerStore (e : EStore) (st : Status) (v : Nat) (s : State) : State :=
  let t := complete e.conn e.cid e.ns st (v % 2 ^ 32) (v / 2 ^ 32) [] s
  { t with host := { t.host with
      writes := t.host.writes + 1
      bytesWritten := t.host.bytesWritten + (if isOk st then e.valueLen else 0)
      mediaErrors := t.host.mediaErrors + (if st = stUnrecovered then 1 else 0) } }

/-- Fail the command of a Store. -/
def failStore (e : EStore) (st : Status) (v : Nat) (s : State) : State := dropStore e (answerStore e st v s)

/-- Tell slots to discard a Store: all positions, or one (R322, R325). -/
def abortAt (e : EStore) (slots : List Nat) (version pos : Nat) (s : State) : State :=
  milmoAll slots 7 (.abortNotice { entryCtl e 1 pos false with version := version }) s

/-- A chunk may leave the entry pair's Cornice: every position that has a holder is held at D1 there, and the chunk is at D2, or at
D3 where the pair holds a fragment of it itself (R85, R319; log 21 for unplaced positions). -/
def mayFree (s : State) (e : EStore) (x : EChunk) : Bool :=
  let placed := x.poss.filter (fun p => ! p.unplaced)
  let mine := placed.any (fun p => some p.slot == s.ice.slot)
  placed.all (fun p => decide (1 ≤ p.level)) && decide ((if mine then 3 else 2) ≤ chunkLevel s e x)

/-- Free the chunks that may leave; an ended Store with nothing left goes. -/
def freeDone (id : Nat) (s : State) : State :=
  match storeBy s id with
  | none => s
  | some e =>
    let go := e.chunks.filter (fun x => mayFree s e x)
    let t := corniceFree (go.flatMap (·.grains)) (onStore id (fun e => { e with
      chunks := e.chunks.map (fun x => if mayFree s e x then { x with grains := [] } else x) }) s)
    if e.stage = 4 ∧ e.chunks.all (fun x => mayFree s e x) then dropStore e t else t

/-! ### Commit (R324, R325) -/

/-- Send the Commit Request and, at the same instant, the Commit Intents; a D1 Store journals its own intent first (R324,
R325). -/
def requestCommit (e : EStore) (level : Nat) (s : State) : State :=
  let to_ := (e.chunks.flatMap (fun x => (x.poss.filter (fun p => decide (1 ≤ p.level))).map (·.slot))).dedup
  let a := if ackNow s e = 1 then journal [.storeIntent e.id] s else s
  let b := onStore e.id (fun e => { e with stage := 2, commitAt := s.now, d1 := ackNow s e == 1, asked := to_ }) a
  milmoAll to_ 7 (.commitIntent (entryCtl e level 0xFFFF true)) (milmo e.coord 7 (.commitRequest (entryCtl e level 0xFFFF true)) b)

/-- Intent acknowledgements the completion waits for (R325). -/
def intentsNeeded (e : EStore) : Nat := if e.d1 then 0 else needsD2 e

/-- Take a Store on as far as it goes: fail it when its level is out of reach, ask for the commit once the level is reached,
post the completion once the confirm and the intents are in (R82, R322, R324, R325). -/
def advance (id : Nat) (s : State) : State :=
  match storeBy s id with
  | none => s
  | some e =>
    let lvl := valueLevel s e
    if e.stage = 1 ∧ e.chunks.any (fun x => ! reachable s e x) then failStore e stPlacement 0 s
    else if e.stage = 1 ∧ e.version ≠ 0 ∧ ackNow s e ≤ lvl then requestCommit e lvl s
    else if e.stage = 3 ∧ intentsNeeded e ≤ e.intents.length then
      freeDone id (onStore id (fun e => { e with stage := 4, posted := true }) (answerStore e stOk e.version s))
    else freeDone id s

/-! ### Moving a position (R322) -/

/-- Place a position on the next slot of the walk that holds no other position of the stripe; the slot passed over is told to
discard it. With no slot left it stays unplaced. -/
def movePos (id n p : Nat) (s : State) : State :=
  match storeBy s id with
  | none => s
  | some e => match chunkBy e n with
    | none => s
    | some x => match posBy x p with
      | none => s
      | some y =>
        let others := ((x.poss.filter (fun q => q.pos != p && ! q.unplaced)).map (·.slot))
        let a := dropBulk id n p (abortAt e [y.slot] e.version p s)
        match nextHolder a x.bin e.pol.dom others (others ++ x.passed ++ [y.slot]) with
        | some h =>
          sendPos false id n p (onStore id (onChunk n (fun x => { onPos p (fun q => { q with slot := h, level := 0, resends := 0, sentAt := none }) x with
            passed := x.passed ++ [y.slot] })) a)
        | none =>
          onStore id (onChunk n (fun x => { onPos p (fun q => { q with slot := 0xFFFF, level := 0, unplaced := true }) x with
            passed := x.passed ++ [y.slot] })) a

/-- The coordinator is elsewhere: the version request goes to the slot named, at most 3 times in all; position 0 goes with it
where that slot holds no other position, else it moves on by itself (R323; log 20). -/
def followHint (id from_ hint : Nat) (s : State) : State :=
  match storeBy s id with
  | none => s
  | some e =>
    if e.version ≠ 0 ∨ 3 ≤ e.tries ∨ hint = 0xFFFF then s
    else match chunkBy e 0 with
      | none => s
      | some x =>
        let t := onStore id (fun e => { e with coord := hint, tries := e.tries + 1 }) s
        let here : Bool := match posBy x 0 with | some y => y.slot == from_ | none => false
        if here ∧ ! x.poss.any (fun q => q.slot == hint) then
          sendPos false id 0 0 (onStore id (onChunk 0 (fun x => { onPos 0 (fun q => { q with slot := hint, level := 0, resends := 0 }) x with
            passed := x.passed ++ [from_] })) t)
        else requestVersion id (if here then movePos id 0 0 t else t)

/-! ### Acknowledgements (R82, R321 to R323) -/

/-- A condition failed: the command completes with its status and the reference version, and every other slot is told to
discard the Store (R115, R122, R322). -/
def conditionFailed (e : EStore) (from_ cond ref : Nat) (s : State) : State :=
  let st := match cond with | 1 => stKeyExists | 2 => stNoKey | _ => stVersionMismatch
  failStore e st ref (abortAt e ((sentTo e).filter (· != from_)) 0 0xFFFF s)

/-- A Fragment Ack at the entry pair. -/
def entryAck (from_ : Nat) (a : AckB) (s : State) : State :=
  match storeBy s a.storeId with
  | none => s
  | some e =>
    if a.cond ≠ 0 then (if e.version = 0 ∧ e.stage ≤ 1 then conditionFailed e from_ a.cond a.ref s else s)
    else match chunkBy e a.chunk with
      | none => s
      | some x =>
        let here : Bool := match posBy x a.pos with | some y => y.slot == from_ && ! y.unplaced | none => false
        if a.result = 5 then advance e.id (followHint e.id from_ a.hint s)
        else if a.result ≠ 0 then (if here then advance e.id (movePos e.id a.chunk a.pos s) else s)
        else
          let t := if a.version ≠ 0 ∧ e.version = 0 then
              onStore e.id (fun e => { e with version := a.version, versionAt := s.now, coord := from_ }) s
            else s
          if here then advance e.id (onStore e.id (onChunk a.chunk (onPos a.pos (fun p => { p with level := max p.level a.level }))) t)
          else if x.passed.contains from_ then advance e.id (abortAt e [from_] e.version a.pos t)
          else advance e.id t

/-- A Commit Confirm at the entry pair (R324, R325). -/
def entryConfirm (b : CtlB) (s : State) : State :=
  match storeBy s b.storeId with
  | none => s
  | some e =>
    if e.stage ≠ 2 then s
    else match b.result with
      | 0 => advance e.id (onStore e.id (fun e => { e with stage := 3 }) s)
      | 3 => advance e.id (onStore e.id (fun e => { e with stage := 1 }) s)
      | _ => failStore e stStoreAborted 0 (abortAt e (sentTo e) e.version 0xFFFF s)

/-- An intent acknowledgement at the entry pair (R325). -/
def entryIntent (from_ : Nat) (id : Nat) (s : State) : State :=
  match storeBy s id with
  | none => s
  | some e =>
    if e.asked.contains from_ then advance id (onStore id (fun e => { e with intents := sIns from_ e.intents }) s) else s

/-- A Status Query at the entry pair: a Commit Intent where it journaled its intent, else an Abort Notice with result 2
(R325). -/
def entryStatus (from_ : Nat) (b : CtlB) (s : State) : State :=
  if s.ice.intents.contains b.storeId then milmo from_ 7 (.commitIntent { b with result := 0, level := 1 }) s
  else milmo from_ 7 (.abortNotice { b with result := 2, pos := 0xFFFF, key := [] }) s

/-! ### Cornice admission (R91, R106) -/

/-- A Store waits for Cornice space: it has a chunk to come and all of the granted ones are in. -/
def wantsSpace (e : EStore) : Bool :=
  decide (e.chunks.length < chunksOf e) && decide (e.got = sumL (e.chunks.map (·.len))) && decide (e.stage < 4)

/-- Length of the next chunk of a Store. -/
def nextLen (e : EStore) : Nat := if e.tomb then 0 else chunkLen e.valueLen e.chunks.length

/-- The request served next: highest QoS class, of one class the one that began to wait first (R91). -/
def firstWaiting (s : State) : Option EStore :=
  (s.ice.stores.filter wantsSpace).foldl (fun (b : Option EStore) e => match b with
    | none => some e
    | some y => if y.qos < e.qos ∨ (y.qos = e.qos ∧ e.at_ < y.at_) then some e else some y) none

/-- Acknowledge received payload at the transport: held back until it is mirrored (R83, R103). What the host sends acknowledges
what it was sent before (log 41). -/
def ackPayload (conn n : Nat) (s : State) : State :=
  match s.host.conns.find? (fun x => x.idx = conn) with
  | some x =>
    let r := x.rcvNxt + n
    emit (.transportAck conn r) { s with host := { s.host with conns := updIf (fun y => y.idx == conn) (fun y => { y with rcvNxt := r, sndAck := y.sndNxt }) s.host.conns } }
  | none => s

/-- All payload of a chunk is in: dispatch it, and the Store begins to wait for the next one. -/
def chunkIn (id n : Nat) (s : State) : State := advance id (dispatchChunk id n (onStore id (fun e => { e with at_ := s.now }) s))

/-- Payload beyond the capsule: asked by a ready-to-transfer PDU on NVMe/TCP, read by RDMA on NVMe/RDMA (R102, Table 3.2). -/
def askPayload (s : State) (conn cid off len : Nat) : Out :=
  if s.host.conns.any (fun c => c.idx == conn && c.rdma) then .rdmaRead conn cid off len else .readyToTransfer conn cid off len

/-- Grant Cornice space for one chunk: in-capsule payload goes in at once, the rest is asked of the host (R91, R102). -/
def grantChunk (e : EStore) (s : State) : State :=
  let n := e.chunks.length
  let len := nextLen e
  let (gs, a) := if len = 0 then ([], s) else cornicePut (padTo len e.data) s
  let x : EChunk := { chunk := n, len := len, grains := gs, bin := binOf s e.ns n e.key, poss := [], passed := [], sentAt := 0, allSent := false,
                      domShort := false }
  if e.data.length = len then
    chunkIn e.id n (ackPayload e.conn len (onStore e.id (fun e => { e with chunks := e.chunks ++ [x], got := e.got + len, data := [] }) a))
  else
    sentOn e.conn 24 <| emit (askPayload s e.conn e.cid e.got len) (onStore e.id (fun e => { e with chunks := e.chunks ++ [x] }) a)

/-- Grant space to waiting requests in their order while it lasts; none overtakes the first (R91). -/
def grantWaiting : Nat → State → State
  | 0, s => s
  | n + 1, s =>
    match firstWaiting s with
    | some e =>
      if corniceTakes (if nextLen e = 0 then 0 else grainsFor (nextLen e)) s then grantWaiting n (grantChunk e s) else s
    | none => s

/-- Rounds of granting: every Store that waits has at most 1 024 chunks to come. -/
def grantRounds (s : State) : Nat := 1025 * (s.ice.stores.length + 1)

/-- Write bytes at an offset of a run of Cornice grains, mirroring each grain that changes. -/
def corniceWriteAt (grains : List Nat) (off : Nat) (bytes : List Byte) (s : State) : State :=
  (grains.zipIdx).foldl (fun t g =>
    let lo := 4096 * g.2
    if off + bytes.length ≤ lo ∨ lo + 4096 ≤ off then t
    else
      let old := padTo 4096 ((aGet g.1 t.kw.cornice).getD [])
      let from_ := max off lo - lo
      let piece := (bytes.drop (lo + from_ - off)).take (4096 - from_)
      let new := old.take from_ ++ piece ++ old.drop (from_ + piece.length)
      mirror (.corniceWrite g.1 [new]) { t with kw := { t.kw with cornice := aSet g.1 new t.kw.cornice } }) s

/-- Payload from the host for a granted chunk: into the Cornice, acknowledged at D1; a full chunk is dispatched (R83, R102). -/
def takePayload (e : EStore) (bytes : List Byte) (s : State) : State :=
  match e.chunks.getLast? with
  | none => s
  | some x =>
    let off := e.got - 2 ^ 22 * x.chunk
    let a := ackPayload e.conn bytes.length (corniceWriteAt x.grains off bytes (onStore e.id (fun e => { e with got := e.got + bytes.length }) s))
    if off + bytes.length = x.len then grantWaiting (grantRounds a) (chunkIn e.id x.chunk a) else a

/-! ### Beginning (R71) -/

/-- A changing command that passed its checks begins to wait for space (R91); its Store ID never repeats and is mirrored
(Table 8.8, Table 10.6). -/
def beginStore (conn cid ns : Nat) (key : Key) (tomb : Bool) (pol : Policy) (opts : StoreOpts) (valueLen : Nat) (data : List Byte)
    (timeout : Nat) (s : State) : State :=
  let n := s.ice.storeId + 1
  let id := mySlot s * 2 ^ 48 + n
  let e : EStore :=
    { id := id, conn := conn, cid := cid, ns := ns, key := key, tomb := tomb, pol := pol, opts := opts, valueLen := valueLen, got := 0, data := data,
      chunks := [], version := 0, versionAt := 0, coord := 0xFFFF, tries := 0, stage := 0, at_ := s.now, commitAt := 0, intents := [],
      asked := [], posted := false, d1 := false, timeout := timeout, qos := pol.qos }
  let a := mirror (.milmoState [.storeCounter n, .pendingStore e])
    { s with ice := { s.ice with storeId := n, stores := s.ice.stores ++ [e] } }
  grantWaiting (grantRounds a) a

end Sys2Proof.Machine
end

