-- ==== Sys2Proof/Machine/Pattern.lean ====
section
/-! DEFINITION. Patterns and automata of the Rime engines: the pattern language, its compilation to the minimal automaton,
automaton images, and what an engine does with an input string (R217 to R225). -/

namespace Sys2Proof.Machine

/-! ### Pattern source (R217, Table 5.8) -/

/-- Expressions over byte sets, a set as the mask of its members. -/
inductive Re where
  | eps
  | set (m : Nat)
  | cat (a b : Re)
  | alt (a b : Re)
  | star (a : Re)
  deriving DecidableEq, Repr

/-- Tokens of a pattern; `err` ends the source with a Pattern Rejected reason. -/
inductive Tok where
  | set (m : Nat)
  | rep (lo : Nat) (hi : Option Nat)
  | lpar | rpar | bar | caret | dollar
  | err (reason : Nat)
  deriving DecidableEq, Repr

/-- Mask of the bytes `a` to `b`. -/
def rangeMask (a b : Nat) : Nat := 2 ^ (b + 1) - 2 ^ a

/-- Every byte. -/
def anyMask : Nat := 2 ^ 256 - 1

/-- Value of a hexadecimal digit. -/
def hexVal (c : Nat) : Option Nat :=
  if 0x30 ≤ c ∧ c ≤ 0x39 then some (c - 0x30)
  else if 0x61 ≤ c ∧ c ≤ 0x66 then some (c - 0x57)
  else if 0x41 ≤ c ∧ c ≤ 0x46 then some (c - 0x37)
  else none

/-- A byte written \xHH, after the x. -/
def hexByte : List Nat → Option (Nat × List Nat)
  | a :: b :: r => match hexVal a, hexVal b with
    | some x, some y => some (16 * x + y, r)
    | _, _ => none
  | _ => none

/-- ASCII codes of a name. -/
def codes (s : String) : List Nat := s.toList.map Char.toNat

/-- Masks of the character classes over 0x00 to 0x7F. -/
def classMask (name : List Nat) : Option Nat :=
  let digit := rangeMask 0x30 0x39
  let upper := rangeMask 0x41 0x5A
  let lower := rangeMask 0x61 0x7A
  let graph := rangeMask 0x21 0x7E
  if name = codes "alpha" then some (upper ||| lower)
  else if name = codes "digit" then some digit
  else if name = codes "alnum" then some (upper ||| lower ||| digit)
  else if name = codes "upper" then some upper
  else if name = codes "lower" then some lower
  else if name = codes "space" then some (rangeMask 9 13 ||| rangeMask 32 32)
  else if name = codes "blank" then some (rangeMask 9 9 ||| rangeMask 32 32)
  else if name = codes "xdigit" then some (digit ||| rangeMask 0x41 0x46 ||| rangeMask 0x61 0x66)
  else if name = codes "punct" then some (graph ^^^ (upper ||| lower ||| digit))
  else if name = codes "cntrl" then some (rangeMask 0 31 ||| rangeMask 127 127)
  else if name = codes "print" then some (rangeMask 0x20 0x7E)
  else if name = codes "graph" then some graph
  else none

/-- Name of a class up to ":]". -/
def className : List Nat → List Nat → Option (List Nat × List Nat)
  | acc, 0x3A :: 0x5D :: r => some (acc.reverse, r)
  | acc, c :: r => className (c :: acc) r
  | _, [] => none

/-- One byte of a bracket list: a literal or \xHH; an error is a reason. -/
def bracketByte : List Nat → Except Nat (Nat × List Nat)
  | 0x5C :: 0x78 :: r => match hexByte r with | some x => .ok x | none => .error 1
  | c :: r => .ok (c, r)
  | [] => .error 1

/-- The list of a bracket, after "[" and "^"; `first` while ] is a literal. -/
def bracketList : Nat → Bool → Nat → List Nat → Except Nat (Nat × List Nat)
  | 0, _, _, _ => .error 1
  | _ + 1, _, _, [] => .error 1
  | f + 1, first, m, c :: r =>
    if c = 0x5D ∧ ¬ first then .ok (m, r)
    else if c = 0x5B ∧ (r.head? = some 0x2E ∨ r.head? = some 0x3D) then .error 2
    else if c = 0x5B ∧ r.head? = some 0x3A then
      match className [] r.tail with
      | some (n, r') => match classMask n with
        | some k => bracketList f false (m ||| k) r'
        | none => .error 2
      | none => .error 1
    else
      match bracketByte (c :: r) with
      | .error e => .error e
      | .ok (x, 0x2D :: 0x5D :: r') => bracketList f false (m ||| rangeMask x x) (0x2D :: 0x5D :: r')
      | .ok (x, 0x2D :: r') =>
        if r'.head? = some 0x5B ∧ (r'.tail.head? = some 0x3A ∨ r'.tail.head? = some 0x2E ∨ r'.tail.head? = some 0x3D) then .error 2
        else match bracketByte r' with
          | .error e => .error e
          | .ok (y, r'') => if y < x then .error 1 else bracketList f false (m ||| rangeMask x y) r''
      | .ok (x, r') => bracketList f false (m ||| rangeMask x x) r'

/-- A bracket, after "[". -/
def bracket (r : List Nat) : Except Nat (Nat × List Nat) :=
  match r with
  | 0x5E :: r' => match bracketList (r.length + 1) true 0 r' with
    | .ok (m, x) => .ok (anyMask ^^^ m, x)
    | .error e => .error e
  | _ => bracketList (r.length + 1) true 0 r

/-- A decimal number. -/
def number : Nat → List Nat → Nat × List Nat
  | acc, c :: r => if 0x30 ≤ c ∧ c ≤ 0x39 then number (10 * acc + (c - 0x30)) r else (acc, c :: r)
  | acc, [] => (acc, [])

/-- Whether a list begins with a digit. -/
def digitFirst (l : List Nat) : Bool := match l with | c :: _ => decide (0x30 ≤ c ∧ c ≤ 0x39) | [] => false

/-- A bound, after the opening brace: a reason, or the repetition. A brace form that Table 5.8 does not list is outside the subset. -/
def bound (r : List Nat) : Except Nat (Nat × Option Nat × List Nat) :=
  if ! digitFirst r then .error 2
  else
    let (n, r1) := number 0 r
    if 255 < n then .error 2
    else match r1 with
      | 0x7D :: r2 => .ok (n, some n, r2)
      | 0x2C :: 0x7D :: r2 => .ok (n, none, r2)
      | 0x2C :: r2 =>
        if ! digitFirst r2 then .error 2
        else
          let (k, r3) := number 0 r2
          if 255 < k then .error 2
          else match r3 with
            | 0x7D :: r4 => if k < n then .error 1 else .ok (n, some k, r4)
            | _ => .error 2
      | _ => .error 2

/-- Bytes a backslash may precede. -/
def escapable : List Nat := [0x2E, 0x5B, 0x5C, 0x28, 0x29, 0x2A, 0x2B, 0x3F, 0x7B, 0x7D, 0x7C, 0x5E, 0x24, 0x5D]

/-- Tokens of a source. -/
def lexPat : Nat → List Nat → List Tok
  | 0, _ => []
  | _, [] => []
  | f + 1, c :: r =>
    if c = 0x2E then .set anyMask :: lexPat f r
    else if c = 0x5B then match bracket r with
      | .ok (m, r') => .set m :: lexPat f r'
      | .error e => [.err e]
    else if c = 0x5C then match r with
      | 0x78 :: r' => match hexByte r' with
        | some (x, r'') => .set (rangeMask x x) :: lexPat f r''
        | none => [.err 1]
      | x :: r' => if escapable.contains x then .set (rangeMask x x) :: lexPat f r' else [.err 1]
      | [] => [.err 1]
    else if c = 0x28 then .lpar :: lexPat f r
    else if c = 0x29 then .rpar :: lexPat f r
    else if c = 0x2A then .rep 0 none :: lexPat f r
    else if c = 0x2B then .rep 1 none :: lexPat f r
    else if c = 0x3F then .rep 0 (some 1) :: lexPat f r
    else if c = 0x7B then match bound r with
      | .ok (n, k, r') => .rep n k :: lexPat f r'
      | .error e => [.err e]
    else if c = 0x7C then .bar :: lexPat f r
    else if c = 0x5E then .caret :: lexPat f r
    else if c = 0x24 then .dollar :: lexPat f r
    else .set (rangeMask c c) :: lexPat f r

/-- A top-level alternative: it begins with ^, its body, it ends with $. -/
structure Alt where
  start : Bool
  body : Re
  fin : Bool
  deriving DecidableEq, Repr

/-- A group being read: its alternatives so far and the pieces of the current one, latest first. -/
structure Frame5 where
  alts : List Alt
  seq : List Re
  start : Bool
  fin : Bool
  deriving DecidableEq, Repr

def Frame5.empty : Frame5 := ⟨[], [], false, false⟩

/-- Concatenation of pieces that stand latest first. -/
def catAll (l : List Re) : Re := l.foldl (fun acc x => match acc with | .eps => x | a => .cat x a) .eps

/-- `n` copies. -/
def copies : Nat → Re → Re
  | 0, _ => .eps
  | 1, r => r
  | n + 1, r => .cat r (copies n r)

/-- At most `n` copies, nested. -/
def upTo : Nat → Re → Re
  | 0, _ => .eps
  | n + 1, r => .alt .eps (.cat r (upTo n r))

/-- A repetition. -/
def repeated (r : Re) (lo : Nat) (hi : Option Nat) : Re :=
  match hi with
  | none => if lo = 0 then .star r else .cat (copies lo r) (.star r)
  | some k => if lo = k then copies lo r else if lo = 0 then upTo k r else .cat (copies lo r) (upTo (k - lo) r)

/-- Close the current alternative; empty ones are refused. -/
def closeAlt (f : Frame5) : Except Nat (List Alt) :=
  if f.seq.isEmpty ∧ ¬ (f.start ∨ f.fin) then .error 2 else .ok (f.alts ++ [⟨f.start, catAll f.seq, f.fin⟩])

/-- Alternation of bodies. -/
def altAll : List Alt → Re
  | [] => .eps
  | [a] => a.body
  | a :: r => .alt a.body (altAll r)

/-- Parse tokens with the stack of open groups, the innermost first. -/
def parsePat : List Tok → List Frame5 → Except Nat (List Alt)
  | _, [] => .error 1
  | [], [f] => closeAlt f
  | [], _ => .error 1
  | t :: ts, f :: st =>
    match t with
    | .err e => .error e
    | .bar => match closeAlt f with
      | .ok as => parsePat ts (⟨as, [], false, false⟩ :: st)
      | .error e => .error e
    | .rpar =>
      if f.fin then .error 2
      else match st with
        | [] => .error 1
        | g :: st' => match closeAlt f with
          | .ok as => parsePat ts ({ g with seq := altAll as :: g.seq } :: st')
          | .error e => .error e
    | _ =>
      if f.fin then .error 2
      else match t with
        | .set m => parsePat ts ({ f with seq := .set m :: f.seq } :: st)
        | .rep lo hi => match f.seq with
          | [] => .error 1
          | x :: xs => parsePat ts ({ f with seq := repeated x lo hi :: xs } :: st)
        | .lpar => if 32 ≤ st.length then .error 2 else parsePat ts (Frame5.empty :: f :: st)
        | .caret =>
          if st.isEmpty ∧ f.seq.isEmpty ∧ ¬ f.start then parsePat ts ({ f with start := true } :: st) else .error 2
        | _ => if st.isEmpty then parsePat ts ({ f with fin := true } :: st) else .error 2

/-- Parse a source. -/
def parseSource (src : List Byte) : Except Nat (List Alt) :=
  parsePat (lexPat (src.length + 1) (src.map (·.toNat))) [Frame5.empty]

/-! ### Compilation (R221) -/

/-- Instructions of a search program: a byte of a set, two ways, a jump, a match at once, a match at the end. -/
inductive PInst where
  | ch (m : Nat)
  | split (a b : Nat)
  | jmp (a : Nat)
  | acc
  | fin
  deriving DecidableEq, Repr

/-- Program of an expression placed at `b`. -/
def compRe : Re → Nat → List PInst
  | .eps, _ => []
  | .set m, _ => [.ch m]
  | .cat x y, b => let p := compRe x b; p ++ compRe y (b + p.length)
  | .alt x y, b =>
    let p := compRe x (b + 1)
    let q := compRe y (b + p.length + 2)
    .split (b + 1) (b + p.length + 2) :: p ++ .jmp (b + p.length + 2 + q.length) :: q
  | .star x, b => let p := compRe x (b + 1); .split (b + 1) (b + p.length + 2) :: p ++ [.jmp b]

/-- Program of an alternative; one without ^ may start at any byte. -/
def compAlt (a : Alt) (b : Nat) : List PInst :=
  let tail : List PInst := [if a.fin then .fin else .acc]
  if a.start then compRe a.body b ++ tail
  else [.split (b + 3) (b + 1), .ch anyMask, .jmp b] ++ compRe a.body (b + 3) ++ tail

/-- Program of a pattern and its entry points. -/
def compAll (as : List Alt) : List PInst × List Nat :=
  as.foldl (fun p a => (p.1 ++ compAlt a p.1.length, p.2 ++ [p.1.length])) ([], [])

/-- Instructions reached without a byte: the work list `todo`, what was seen, the resting places ascending. -/
def closure (p : List PInst) : Nat → List Nat → List Nat → List Nat → List Nat
  | 0, _, _, out => out
  | _, [], _, out => out
  | f + 1, i :: todo, seen, out =>
    if seen.contains i then closure p f todo seen out
    else match p[i]? with
      | some (.split a b) => closure p f (a :: b :: todo) (i :: seen) out
      | some (.jmp a) => closure p f (a :: todo) (i :: seen) out
      | some _ => closure p f todo (i :: seen) (sIns i out)
      | none => closure p f todo (i :: seen) out

/-- Closure of a set of places. -/
def close (p : List PInst) (l : List Nat) : List Nat := closure p (2 * p.length + l.length + 1) l [] []

/-- Places after a byte. -/
def stepSet (p : List PInst) (q : List Nat) (b : Nat) : List Nat :=
  close p (q.filterMap (fun i => match p[i]? with
    | some (PInst.ch m) => if m.testBit b then some (i + 1) else none
    | _ => none))

/-- Explore the sets reachable from the start: sets in order of discovery, successors by byte for those explored. -/
def explore (p : List PInst) : Nat → Nat → List (List Nat) → List (List Nat) → List (List Nat) × List (List Nat)
  | 0, _, sets, next => (sets, next)
  | f + 1, i, sets, next =>
    match sets[i]? with
    | none => (sets, next)
    | some q =>
      let succ := (List.range 256).map (stepSet p q)
      let sets' := succ.foldl (fun l x => if l.contains x then l else l ++ [x]) sets
      explore p f (i + 1) sets' (next ++ [succ.map (fun x => sets'.idxOf x)])

/-- An automaton: per state A, E and the next state of each byte; state 0 is the start; the dead state if any. -/
structure Dfa where
  acc : List Bool
  fin : List Bool
  next : List (List Nat)
  dead : Option Nat
  deriving DecidableEq, Repr

/-- `n` rounds of a step. -/
def rounds {α : Type} : Nat → (α → α) → α → α
  | 0, _, x => x
  | n + 1, f, x => rounds n f (f x)

/-- Next state of a byte. -/
def dNext (next : List (List Nat)) (i b : Nat) : Nat := (next[i]?.getD [])[b]?.getD i

/-- The set automaton of a pattern, A where a match is certain whatever follows (R219). -/
def rawDfa (as : List Alt) : Dfa :=
  let (p, entries) := compAll as
  let (sets, next) := explore p (2 ^ p.length + 1) 0 [close p entries] []
  let has (x : PInst) (q : List Nat) : Bool := q.any (fun i => p[i]? == some x)
  let accs := sets.map (has .acc)
  let fins := sets.map (fun q => has .acc q || has .fin q)
  let sure := rounds sets.length (fun (cl : List Bool) => (List.range sets.length).map (fun i =>
    accs[i]?.getD false || (cl[i]?.getD false && (next[i]?.getD []).all (fun j => cl[j]?.getD false)))) fins
  { acc := sure, fin := fins, next := next, dead := none }

/-- Class of each state after refinement: states of one class accept the same continuations. -/
def refine (d : Dfa) : List Nat :=
  let n := d.acc.length
  let key0 := (List.range n).map (fun i => if d.acc[i]?.getD false then 0 else if d.fin[i]?.getD false then 1 else 2)
  let norm {α : Type} [BEq α] (ks : List α) : List Nat := ks.map (fun k => ks.idxOf k)
  rounds n (fun (cl : List Nat) => norm ((List.range n).map (fun i =>
    (cl[i]?.getD 0, if d.acc[i]?.getD false then [] else (d.next[i]?.getD []).map (fun j => cl[j]?.getD 0))))) (norm key0)

/-- Classes in the order of a breadth-first walk from the start (Table 5.9). -/
def walk (d : Dfa) (cl : List Nat) : Nat → Nat → List Nat → List Nat
  | 0, _, seen => seen
  | f + 1, i, seen =>
    match seen[i]? with
    | none => seen
    | some r =>
      let succ := if d.acc[r]?.getD false then [] else (List.range 256).map (fun b => cl[dNext d.next r b]?.getD 0)
      walk d cl f (i + 1) (succ.foldl (fun l x => if l.contains x then l else l ++ [x]) seen)

/-- The minimal automaton (R221, Table 5.9). -/
def minimal (d : Dfa) : Dfa :=
  let cl := refine d
  let order := walk d cl (d.acc.length + 1) 0 [cl[0]?.getD 0]
  let acc := order.map (fun r => d.acc[r]?.getD false)
  let next := order.map (fun r => (List.range 256).map (fun b =>
    if d.acc[r]?.getD false then order.idxOf r else order.idxOf (cl[dNext d.next r b]?.getD 0)))
  let fin := order.map (fun r => d.fin[r]?.getD false && ! d.acc[r]?.getD false)
  let dead := (List.range order.length).find? (fun i => ! acc[i]?.getD false && ! fin[i]?.getD false &&
    (next[i]?.getD []).all (fun j => j == i))
  { acc := acc, fin := fin, next := next, dead := dead }

/-! ### Encoding limits (R222, Table 5.9) -/

/-- Default of a state: the most frequent next state, the lower-numbered on a tie. -/
def defaultOf (n : Nat) (row : List Nat) : Nat :=
  (List.range n).foldl (fun b x => if row.count b < row.count x then x else b) (row.foldl min n)

/-- Maximal runs of consecutive bytes with one next state other than the default: first byte, last byte, next state (Table 5.9). `b` is
the number of the byte at the front of the list, `cur` the run being read. -/
def runsOf (dflt : Nat) : Nat → Option (Nat × Nat × Nat) → List Nat → List (Nat × Nat × Nat)
  | _, cur, [] => cur.toList
  | b, cur, x :: r =>
    match cur with
    | some (lo, hi, n) =>
      if x = n then runsOf dflt (b + 1) (some (lo, b, n)) r
      else (lo, hi, n) :: runsOf dflt (b + 1) (if x = dflt then none else some (b, b, x)) r
    | none => runsOf dflt (b + 1) (if x = dflt then none else some (b, b, x)) r

/-- A state as Table 5.9 encodes it: default, runs, row. -/
structure EState where
  dflt : Nat
  runs : List (Nat × Nat × Nat)
  row : List Nat
  deriving DecidableEq, Repr

/-- States of an automaton as they are encoded. -/
def encStates (d : Dfa) : List EState :=
  let n := d.acc.length
  d.next.map (fun row => let k := defaultOf n row; ⟨k, runsOf k 0 none row, row⟩)

/-- A state takes a range list; a state takes a full row. -/
def EState.listed (e : EState) : Bool := decide (0 < e.runs.length ∧ e.runs.length ≤ 16)
def EState.full (e : EState) : Bool := decide (16 < e.runs.length)

/-- Round up to a 64-byte boundary. -/
def up64 (o : Nat) : Nat := ceilDiv o 64 * 64

/-- Offsets of the range lists in state order, none crossing a 64-byte boundary, and the offset after them. -/
def listOffsets (o : Nat) : List EState → List Nat × Nat
  | [] => ([], o)
  | e :: r =>
    if e.listed then
      let o' := if o % 64 + 4 * e.runs.length ≤ 64 then o else up64 o
      let (l, z) := listOffsets (o' + 4 * e.runs.length) r
      (o' :: l, z)
    else
      let (l, z) := listOffsets o r
      (0 :: l, z)

/-- Offsets of the full rows in state order, each at a 64-byte boundary. -/
def rowOffsets (o : Nat) : List EState → List Nat
  | [] => []
  | e :: r => if e.full then o :: rowOffsets (o + 512) r else 0 :: rowOffsets o r

/-- Table length in bytes. -/
def tableLength (d : Dfa) : Nat :=
  let es := encStates d
  let z := (listOffsets (up64 (8 * es.length)) es).2
  let full := (es.filter (·.full)).length
  up64 (if full = 0 then z else up64 z + 512 * full)

/-- A state record (Table 5.11). -/
def stateRecord (e : EState) (acc fin : Bool) (off : Nat) : Nat :=
  let mode := if e.full then 2 else if e.listed then 1 else 0
  e.dflt + bit acc 14 + bit fin 15 + 2 ^ 16 * mode + (if e.listed then 2 ^ 18 * (e.runs.length - 1) else 0) + 2 ^ 24 * (off / 4)

/-- The state table of an automaton: state records, range lists, full rows (Tables 5.9, 5.11 and 5.12). -/
def encodeTable (d : Dfa) : List Byte :=
  let es := encStates d
  let (lo, z) := listOffsets (up64 (8 * es.length)) es
  let ro := rowOffsets (up64 z) es
  let offs := List.zipWith (fun a b => a + b) lo ro
  let flags := List.zip d.acc d.fin
  let recs := (List.zip es (List.zip flags offs)).flatMap (fun x => le 8 (stateRecord x.1 x.2.1.1 x.2.1.2 x.2.2))
  let withLists := (List.zip es lo).foldl (fun acc x =>
    if x.1.listed then padTo x.2 acc ++ x.1.runs.flatMap (fun q => le 4 (q.1 + 2 ^ 8 * q.2.1 + 2 ^ 16 * q.2.2)) else acc) recs
  let withRows := (List.zip es ro).foldl (fun acc x =>
    if x.1.full then padTo x.2 acc ++ x.1.row.flatMap (fun q => le 2 q) else acc) withLists
  padTo (tableLength d) withRows

/-- The image of an automaton compiled from a source, as it is registered (Table 5.10). -/
def encodeImage (d : Dfa) (src : List Byte) : List Byte :=
  let tab := encodeTable d
  padTo 32 (le 4 0x41524B56 ++ le 1 1 ++ le 1 0 ++ le 2 0 ++ le 4 0x00E50008 ++ le 2 d.acc.length ++ le 2 (d.dead.getD 0xFFFF) ++ le 4 tab.length
    ++ le 4 (crc32c tab).toNat ++ le 2 0) ++ sha256 src ++ tab

/-- Compile a source: the minimal automaton, or a Pattern Rejected reason. A source longer than 4 096 bytes is no pattern of the subset
(DESIGN CHOICE of the reason, log 138); an empty one is an empty alternative (R217). -/
def compilePat (src : List Byte) : Except Nat Dfa :=
  if 4096 < src.length then .error 2 else
  match parseSource src with
  | .error e => .error e
  | .ok as =>
    let d := minimal (rawDfa as)
    if 16384 < d.acc.length then .error 3
    else if 262144 < tableLength d then .error 4
    else .ok d

/-! ### Automaton images (R223, R225) -/

/-- `n` little-endian bytes at an offset. -/
def getLe (bs : List Byte) (off n : Nat) : Nat := ofLe ((bs.drop off).take n)

/-- State record `i` of a table. -/
def stateRec (tab : List Byte) (i : Nat) : Nat := getLe tab (8 * i) 8

/-- Mode, default and offset in bytes of a state record (Table 5.11). -/
def recMode (r : Nat) : Nat := r / 2 ^ 16 % 4
def recDefault (r : Nat) : Nat := r % 2 ^ 14
def recOff (r : Nat) : Nat := 4 * (r / 2 ^ 24 % 2 ^ 16)
def recRanges (r : Nat) : Nat := r / 2 ^ 18 % 16 + 1

/-- Range entries of a record: low, high, next. -/
def rangesOf (tab : List Byte) (r : Nat) : List (Nat × Nat × Nat) :=
  (List.range (recRanges r)).map (fun i =>
    let e := getLe tab (recOff r + 4 * i) 4
    (e % 256, e / 256 % 256, e / 65536 % 2 ^ 14))

/-- Next state of a byte in a table (R224). -/
def tableNext (tab : List Byte) (i b : Nat) : Nat :=
  let r := stateRec tab i
  match recMode r with
  | 1 => match (rangesOf tab r).find? (fun e => decide (e.1 ≤ b ∧ b ≤ e.2.1)) with
    | some e => e.2.2
    | none => recDefault r
  | 2 => getLe tab (recOff r + 2 * b) 2 % 2 ^ 14
  | _ => recDefault r

/-- Ranges ascend and are disjoint. -/
def rangesOrdered : List (Nat × Nat × Nat) → Bool
  | [] => true
  | [e] => decide (e.1 ≤ e.2.1)
  | e :: f :: r => decide (e.1 ≤ e.2.1 ∧ e.2.1 < f.1) && rangesOrdered (f :: r)

/-- A state record is acceptable: states and offsets in range, a range list within a 64-byte line, a full row at a 64-byte boundary, a
range count only in range-list mode, and an accepting state that sends every byte to itself (R225, Tables 5.9 and 5.11). -/
def recOk (tab : List Byte) (n i : Nat) : Bool :=
  let r := stateRec tab i
  decide (recDefault r < n) && (recMode r == 1 || recRanges r == 1) &&
    (match recMode r with
     | 0 => true
     | 1 => decide (recOff r + 4 * recRanges r ≤ tab.length) && decide (recOff r % 64 + 4 * recRanges r ≤ 64) &&
         rangesOrdered (rangesOf tab r) && (rangesOf tab r).all (fun e => decide (e.2.2 < n))
     | 2 => decide (recOff r + 512 ≤ tab.length) && decide (recOff r % 64 = 0) && (List.range 256).all (fun b => decide (tableNext tab i b < n))
     | _ => false) &&
    (! r.testBit 14 || (List.range 256).all (fun b => tableNext tab i b == i))

/-- Pattern Rejected reason of an image, 0 when it is accepted (R225). A registered image has source length 0; a library entry carries its
source after the table, with its SHA-256 as source digest (R223, Table 5.10). -/
def imageReason (lib : Bool) (img : List Byte) : Nat :=
  let n := getLe img 12 2
  let len := getLe img 16 4
  let dead := getLe img 14 2
  let srcLen := getLe img 24 2
  let rest := img.drop 64
  let tab := rest.take len
  let src := rest.drop len
  if 16384 < n then 3
  else if 262144 < len then 4
  else if img.length < 64 ∨ getLe img 0 4 ≠ 0x41524B56 ∨ getLe img 4 1 ≠ 1 ∨ getLe img 5 1 ≠ 0
      ∨ getLe img 8 4 ≠ 0x00E50008 ∨ n = 0 ∨ len % 64 ≠ 0 ∨ len = 0 ∨ rest.length ≠ len + srcLen ∨ len < 8 * n
      ∨ getLe img 20 4 ≠ (crc32c tab).toNat then 5
  else if (if lib then srcLen = 0 ∨ 4096 < srcLen ∨ (img.drop 32).take 32 ≠ sha256 src else srcLen ≠ 0) then 5
  else if ! (List.range n).all (recOk tab n) then 5
  else if dead ≠ 0xFFFF ∧ (n ≤ dead ∨ stateRec tab dead / 2 ^ 14 % 4 ≠ 0
      ∨ (List.range 256).any (fun b => tableNext tab dead b != dead)) then 5
  else 0

/-- The automaton of an accepted image. -/
def imageDfa (img : List Byte) : Dfa :=
  let n := getLe img 12 2
  let tab := img.drop 64
  { acc := (List.range n).map (fun i => (stateRec tab i).testBit 14)
    fin := (List.range n).map (fun i => (stateRec tab i).testBit 15)
    next := (List.range n).map (fun i => (List.range 256).map (tableNext tab i))
    dead := if getLe img 14 2 = 0xFFFF then none else some (getLe img 14 2) }

/-! ### Running (R219, R224) -/

/-- From state `i` after `k` bytes: where the match is certain, or at the end of input. -/
def runFrom (d : Dfa) : Nat → Nat → List Byte → Option Nat
  | i, k, [] => if d.fin[i]?.getD false then some k else none
  | i, k, b :: r =>
    let j := dNext d.next i b.toNat
    if d.acc[j]?.getD false then some (k + 1)
    else if d.dead = some j then none
    else runFrom d j (k + 1) r

/-- First-match offset from the first byte of the input, none without a match. -/
def runDfa (d : Dfa) (input : List Byte) : Option Nat :=
  if d.acc[0]?.getD false then some 0 else runFrom d 0 0 input

/-- A filter from the body of its descriptor: a source compiled into its image, or an image as it is; else a Pattern Rejected reason
(R130, R221, R225). -/
def automatonOf (image : Bool) (body : List Byte) : Except Nat Automaton :=
  if image then
    match imageReason false body with
    | 0 => .ok { precompiled := true, source := [], image := body }
    | e => .error e
  else match compilePat body with
    | .ok d => .ok { precompiled := false, source := body, image := encodeImage d body }
    | .error e => .error e

/-- A library entry that is accepted when it is loaded: its image, and its source for other pairs (R225, R226). -/
def libraryEntry (bytes : List Byte) : Option Automaton :=
  let len := getLe bytes 16 4
  if imageReason true bytes = 0 then
    some { precompiled := false, source := bytes.drop (64 + len), image := bytes.take (64 + len) }
  else none

/-- First-match offset of an image over an input (R219, R224). -/
def runImage (img input : List Byte) : Option Nat := runDfa (imageDfa img) input

end Sys2Proof.Machine
end

