-- ==== Sys2Proof/Machine/IceRead.lean ====
section
/-! DEFINITION. Reading across the icefield: Locate, Read Requests, decoding, zero extents, filters on Rime engines, SHED at
the entry pair, and the reads of a repair (R72, R125, R126, R134 to R138, R228, R329 to R331, R346). -/

namespace Sys2Proof.Machine

/-! ### Filters and Rime engines (R130, R131, R226, R228) -/

/-- The automaton of a filter handle; handle 0 has none (R127, R130, R131). -/
def filterOf (s : State) (handle : Nat) : Option Automaton :=
  if 0x8000 ≤ handle then (s.boot.library[handle - 0x8000]?).getD none
  else (s.host.filters.find? (fun f => f.handle == handle)).map (·.auto)


/-! ### Reads by number -/

def readBy (s : State) (id : Nat) : Option ERead := s.ice.readsE.find? (fun r => r.id == id)

def onRead (id : Nat) (f : ERead → ERead) (s : State) : State :=
  { s with ice := { s.ice with readsE := updIf (fun r => r.id == id) f s.ice.readsE } }

def dropReadE (id : Nat) (s : State) : State := { s with ice := { s.ice with readsE := s.ice.readsE.filter (fun r => r.id != id) } }

/-- Complete a reading command, or SHED; only value bytes count as data read (Table 3.23). -/
def answerRead (r : ERead) (st : Status) (dw0 dw1 : Nat) (bytes : List Byte) (s : State) : State :=
  let t := complete r.conn r.cid r.ns st dw0 dw1 bytes (dropReadE r.id s)
  let valueBytes := match r.kind with | 2 => bytes.length - 16 | 4 => bytes.length - 16 | 5 => 0 | _ => bytes.length
  { t with host := { t.host with
      reads := t.host.reads + (if r.kind = 7 then 0 else 1)
      writes := t.host.writes + (if r.kind = 7 then 1 else 0)
      bytesRead := t.host.bytesRead + valueBytes
      mediaErrors := t.host.mediaErrors + (if st = stUnrecovered then 1 else 0) } }

/-! ### Ranges and chunks (R59, R116, R125, R126) -/

/-- Stripe record of a chunk that has come in. -/
def recIn (r : ERead) (n : Nat) : Option StripeB := r.recs.find? (fun b => b.chunk == n)

/-- The record describes replicas (R61). -/
def repRec (b : StripeB) : Bool := decide (b.valueLen ≤ 4096 * b.thr)

def widthRec (b : StripeB) : Nat := if repRec b then b.m + 1 else b.k + b.m

/-- Value bytes a read needs, as a half-open range. A Filtered Retrieve that returns the value needs it to its end, as far as
the buffer may take it or the scan goes (log 23). -/
def readRange (r : ERead) (b : StripeB) : Nat × Nat :=
  let end_ := if r.len = 0 then b.valueLen else min b.valueLen (r.off + r.len)
  match r.kind with
  | 0 => (0, min b.valueLen r.buf)
  | 2 => (r.off, min end_ (r.off + (r.buf - 16)))
  | 4 => (r.off, if r.opts.testBit 0 then b.valueLen else end_)
  | 6 => (2 ^ 22 * b.chunk, 2 ^ 22 * b.chunk + chunkLen b.valueLen b.chunk)
  | _ => (0, 0)

/-- Chunks a range covers. -/
def chunksIn (lo hi : Nat) : List Nat :=
  if hi ≤ lo then [] else (List.range ((hi - 1) / 2 ^ 22 - lo / 2 ^ 22 + 1)).map (· + lo / 2 ^ 22)

/-- Data positions of a coded chunk that a range needs (R318). -/
def dataNeeded (b : StripeB) (n lo hi : Nat) : List Nat :=
  let f := fragLen b.k (chunkLen b.valueLen n)
  let a := max lo (2 ^ 22 * n) - 2 ^ 22 * n
  let e := min hi (2 ^ 22 * (n + 1)) - 2 ^ 22 * n
  (List.range b.k).filter (fun j => decide (j * f < e) && decide (a < (j + 1) * f))

/-- Positions of a chunk that may still be asked: they have a holder and were not asked before. -/
def untried (r : ERead) (b : StripeB) : List Nat :=
  (List.range (widthRec b)).filter (fun p => (b.holders[p]?.getD 0xFFFF) != 0xFFFF && ! r.tried.contains (b.chunk, p))

/-- Positions in, and positions asked and not in. -/
def piecesOf (r : ERead) (n : Nat) : List (Nat × List Byte) := (r.got.filter (fun g => g.1 == n)).map (fun g => (g.2.1, g.2.2))
def wantedOf (r : ERead) (n : Nat) : List Nat := (r.want.filter (fun w => w.1 == n)).map (fun w => w.2.1)

/-- One 4 KiB row of a stripe: the data rows as they came in where the range needs no other, else decoded from the pieces that still
hold the row. For a repair only rows that are really held count (R135, R317, R330). -/
def decodeRow (k m : Nat) (strict : Bool) (need : List Nat) (ps : List (Nat × List Byte)) (gone : List (Nat × Nat)) (g : Nat) :
    Option (List (List Byte)) :=
  let row (b : List Byte) : List Byte := (b.drop (4096 * g)).take 4096
  let piece (j : Nat) : Option (List Byte) := (ps.find? (fun p => p.1 == j)).map (fun p => row p.2)
  let ok (j : Nat) : Bool := (piece j).isSome && (! strict || ! gone.contains (j, g))
  if need.all ok then some ((List.range k).map (fun j => (piece j).getD (List.replicate 4096 0#8)))
  else rsDecode k m ((ps.filter (fun p => ! gone.contains (p.1, g))).map (fun p => (p.1, row p.2)))

/-- The data fragments of a stripe from its pieces, row by row. -/
def decodeRows (k m f : Nat) (strict : Bool) (need : List Nat) (ps : List (Nat × List Byte)) (gone : List (Nat × Nat)) : Option (List Byte) :=
  let rows := (List.range (ceilDiv f 4096)).map (decodeRow k m strict need ps gone)
  if rows.all (·.isSome) then some ((List.range k).flatMap (fun j => rows.flatMap (fun r => ((r.getD [])[j]?).getD []))) else none

/-- The bytes of a chunk once enough pieces are in: the replica, the data fragments needed, or the decoded stripe (R317,
R330). -/
def chunkValue (r : ERead) (b : StripeB) (lo hi : Nat) : Option (List Byte) :=
  let n := b.chunk
  let len := chunkLen b.valueLen n
  let ps := piecesOf r n
  if repRec b then (ps.head?).map (fun p => p.2.take len)
  else
    let need := if r.kind = 6 then List.range b.k else dataNeeded b n lo hi
    let gone := (r.gone.filter (fun g => g.1 == n)).map (fun g => (g.2.1, g.2.2))
    (decodeRows b.k b.m (fragLen b.k len) (r.kind == 6) need ps gone).map (fun x => x.take len)

/-- What to ask next for a chunk: the data fragments its range needs, or, once one of them failed, as many others as decoding
takes; of replicas one, the own copy first. None when too few are left (R329, R330). -/
def askNext (s : State) (r : ERead) (b : StripeB) (lo hi : Nat) : Option (List Nat) :=
  let n := b.chunk
  let have_ := (piecesOf r n).map (·.1) ++ wantedOf r n
  let free := untried r b
  if repRec b then
    if ! have_.isEmpty then some []
    else match free.find? (fun p => b.holders[p]? == s.ice.slot) with
      | some p => some [p]
      | none => match free with
        | p :: _ => some [p]
        | [] => none
  else if (chunkValue r b lo hi).isSome then some []
  else
    let missing := (dataNeeded b n lo hi).filter (fun p => ! have_.contains p)
    if ! missing.isEmpty ∧ missing.all (fun p => free.contains p) then some missing
    else if missing.isEmpty ∧ ! (wantedOf r n).isEmpty then some []
    else
      let more := if (wantedOf r n).isEmpty then max 1 (b.k - have_.length) else b.k - have_.length
      if free.length < more then none else some (free.take more)

/-- Zero extents over bytes that start at a value offset (R136). -/
def applyExts (exts : List (Nat × Nat)) (base : Nat) (bytes : List Byte) : List Byte :=
  if exts.isEmpty then bytes
  else (bytes.zipIdx).map (fun x => if exts.any (fun e => decide (e.1 ≤ base + x.2) && decide (base + x.2 < e.2)) then 0#8 else x.1)

/-- The value bytes of a range, once every chunk is in. -/
def valueRange (r : ERead) (lo hi : Nat) : Option (List Byte) :=
  let cs := chunksIn lo hi
  (cs.foldl (fun (acc : Option (List Byte)) n => match acc, recIn r n with
    | some l, some b => (chunkValue r b lo hi).map (fun x => l ++ x)
    | _, _ => none) (some [])).map (fun l => (l.drop (lo - 2 ^ 22 * (cs.headD 0))).take (hi - lo))

/-! ### Repair at the new holder (R346) -/

/-- The repair this read works for. -/
def repairOf (s : State) (r : ERead) : Option Repair :=
  s.ice.repairs.find? (fun x => x.mine && x.rec_.ns == r.ns && x.rec_.key == r.key && x.rec_.chunk == r.expected && x.at_ == r.off && x.pos == r.len)

/-- A repair read keeps what it has and is tried again after 10 s (R346). -/
def repairWaits (id : Nat) (s : State) : State := onRead id (fun r => { r with stage := 2, at_ := s.now }) s

/-- The rebuilt position goes from the Reed-Solomon engine straight to flash, with no Cornice copy (R52), and is committed, the older
committed entry going with it (R154); it reports D3 to the coordinator once it is verified (R346). Without an entry below C or room
on flash the repair waits (R159 to R161). `id` is its read. -/
def buildRepair (id : Nat) (x : Repair) (bytes : List Byte) (s : State) : State :=
  let b := x.rec_
  let rep := repRec b
  let d := if b.tomb then [] else fragmentBytes rep b.k b.m x.pos bytes
  let f : FragB :=
    { ns := b.ns, chunk := b.chunk, key := b.key, pos := x.pos, k := b.k, m := b.m, storeId := 0, version := b.version, len := d.length,
      valueLen := b.valueLen, segOff := 0, verReq := false, replica := rep, tomb := b.tomb, repair := true, domShort := b.domShort,
      dom := b.dom, ack := 2, thr := b.thr, opts := ⟨false, false, false, 0⟩, result := 0, holders := b.holders, data := d }
  let done := dropReadE id { s with ice := { s.ice with repairs := s.ice.repairs.filter (fun y => y != x) } }
  let i0 := { itemFrom f x.pos b.version 1 (coordSlot s b.ns b.key) [] s with zext := b.zeroExt }
  if (s.kw.items.find? (fun i => isOf b.ns b.chunk b.key i && i.st == 2 && decide (b.version ≤ i.version))).isSome then done
  else if ! mayAdmit s b.ns b.chunk b.key b.tomb then repairWaits id (keywayFull s)
  else match (if b.tomb then (some i0, done) else layBytes i0 d done) with
    | (none, _) => repairWaits id s
    | (some i, t) => match enterItem i t with
      | none => repairWaits id (keywayFull s)
      | some u =>
        let v := commitItem i b.version u
        if i.tomb then
          milmo x.holder 7 (.fragmentAck { storeId := 0, chunk := b.chunk, pos := x.pos, level := 3, result := 0, cond := 0, hint := 0xFFFF, version := b.version, ref := 0 }) v
        else v

/-! ### Locate (R329) -/

/-- Send the Locate of a read, or its Durability Query (R128). -/
def sendLocate (r : ERead) (first count : Nat) (s : State) : State :=
  let b : LocB := { ns := r.ns, first := first, count := count, key := r.key, pos := 0, version := if r.kind = 5 then r.expected else 0, off := 0, len := 0 }
  milmo r.coord 7 (if r.kind = 5 then .durabilityQuery b else .locate b) s

/-- While the coordinator carries the suspected mark, the holders of the walk are asked as well (R331). -/
def askHolders (r : ERead) (s : State) : State :=
  if r.kind = 5 ∨ r.kind = 7 ∨ ! suspected s r.coord then s
  else match nsOf s r.ns with
    | some n =>
      let hs := (holdersFor s (homeBin s r.ns r.key) (n.pol.k + n.pol.m) n.pol.dom).filter (· != r.coord)
      milmoAll hs 7 (.recordQuery { ns := r.ns, first := 0, count := 1, key := r.key, pos := 0, version := 0, off := 0, len := 0 })
        (onRead r.id (fun r => { r with asked := hs, replies := [] }) s)
    | none => s

/-- Begin again from the first byte with a fresh Locate (R330); without any placing slot there is none to ask yet. -/
def relocate (id : Nat) (s : State) : State :=
  match readBy s id with
  | none => s
  | some r =>
    let c := coordSlot s r.ns r.key
    let r' : ERead := { r with coord := c, tries := 0, stage := if c = 0xFFFF then 2 else 0, recs := if r.kind = 7 then r.recs else [], want := [], got := [],
                               tried := [], asked := [], replies := [], gone := [] }
    if c = 0xFFFF then onRead id (fun _ => r') s else askHolders r' (sendLocate r' 0 1 (onRead id (fun _ => r') s))

/-- A reading command, or SHED, begins. -/
def beginRead (r : ERead) (s : State) : State :=
  let id := s.ice.nextId
  relocate id { s with ice := { s.ice with nextId := id + 1, readsE := s.ice.readsE ++ [{ r with id := id, at_ := s.now }] } }

/-! ### SHED at the entry pair (R134 to R136) -/

/-- Start and end of the grain of a value byte (R318). -/
def grainStart (b : StripeB) (v : Nat) : Nat :=
  let base := 2 ^ 22 * (v / 2 ^ 22)
  let o := v - base
  if repRec b then 4096 * (v / 4096)
  else let f := max 1 (fragLen b.k (chunkLen b.valueLen (v / 2 ^ 22)))
    base + (o / f) * f + (o % f) / 4096 * 4096

def grainEnd (b : StripeB) (v : Nat) : Nat :=
  let base := 2 ^ 22 * (v / 2 ^ 22)
  let o := v - base
  if repRec b then min b.valueLen (4096 * (v / 4096) + 4096)
  else let f := max 1 (fragLen b.k (chunkLen b.valueLen (v / 2 ^ 22)))
    min b.valueLen (min (base + 2 ^ 22) (base + (o / f) * f + min f ((o % f) / 4096 * 4096 + 4096)))

/-- Bytes of a SHED range outside released grains: what lies before its first whole grain and after its last (R135, R136). -/
def zeroParts (b : StripeB) (off len : Nat) : List (Nat × Nat) :=
  if len = 0 then []
  else
    let e := off + len
    let lo := if grainStart b off = off then off else grainEnd b off
    let hi := if grainEnd b (e - 1) = e then e else grainStart b (e - 1)
    if hi ≤ lo then [(off, e)] else (if off < lo then [(off, lo)] else []) ++ (if hi < e then [(hi, e)] else [])

/-- Zero extents with more added: overlapping and adjacent ones merge (R136). -/
def mergeExts (l : List (Nat × Nat)) : List (Nat × Nat) :=
  (l.insertionSort (fun x y => x.1 ≤ y.1)).foldl (fun acc e => match acc.getLast? with
    | some p => if e.1 ≤ p.2 then acc.dropLast ++ [(p.1, max p.2 e.2)] else acc ++ [e]
    | none => [e]) []

/-- Judge a SHED by the coordinator's record of chunk 0; one that may go on goes to the coordinator as a SHED record, whose version is
the expected one, or 0 for the version that is current there. It completes when the coordinator's own SHED record comes (R134, R136;
log 24). -/
def finishShed (r : ERead) (b : StripeB) (s : State) : State :=
  let lo (v : Nat) : Nat := v % 2 ^ 32
  if b.version = 0 ∨ b.tomb then answerRead r stNoKey (lo b.version) (b.version / 2 ^ 32) [] s
  else if r.opts.testBit 2 ∧ r.expected ≠ b.version then answerRead r stVersionMismatch (lo b.version) (b.version / 2 ^ 32) [] s
  else if b.valueLen < r.off + r.len then answerRead r stRange 0 0 [] s
  else if r.len = 0 then answerRead r stOk (lo b.version) (b.version / 2 ^ 32) [] s
  else if 64 < (mergeExts (b.exts ++ zeroParts b r.off r.len)).length then answerRead r stShedLimit 0 0 [] s
  else
    milmo r.coord 7 (.shedRecord r.ns r.key (if r.opts.testBit 2 then r.expected else 0) r.off r.len)
      (onRead r.id (fun r => { r with recs := [b] }) s)

/-- The coordinator's SHED record has come to the entry pair: the oldest SHED of that range completes with the version it acted on
(R134). -/
def shedDone (ns : Nat) (key : Key) (version off len : Nat) (s : State) : State :=
  match s.ice.readsE.find? (fun r => r.kind == 7 && ! r.recs.isEmpty && r.ns == ns && r.key == key && r.off == off && r.len == len &&
      (! r.opts.testBit 2 || r.expected == version)) with
  | some r => answerRead r stOk (version % 2 ^ 32) (version / 2 ^ 32) [] s
  | none => s

/-! ### Completion -/

/-- Object header (Table 3.12). -/
def objHeader (b : StripeB) : List Byte :=
  le 8 b.version ++ le 4 b.valueLen ++ le 2 (bit (! b.exts.isEmpty) 0 + bit (repRec b) 1) ++ le 1 b.level ++ le 1 0

/-- Every chunk is in: answer the command, or hand the stretch to a Rime engine (R116, R125, R126, R228). -/
def finishRead (r : ERead) (b : StripeB) (value : List Byte) (s : State) : State :=
  let (lo, _) := readRange r b
  let v := applyExts b.exts lo value
  match r.kind with
  | 0 => answerRead r stOk b.valueLen (b.version % 2 ^ 32) v s
  | 2 => answerRead r stOk 0 0 (objHeader b ++ v) s
  | 4 =>
    let stretch := if r.len = 0 then v else v.take (r.len)
    let t := onRead r.id (fun r => { r with stage := 3, got := [(0, 0, v)] }) s
    match r.filter with
    | some a => giveString { owner := .read r.id, image := a.image, input := stretch, off := r.off, at_ := s.now } t
    | none => -- handle 0 matches without an engine (R127, R228)
      let back := r.opts.testBit 0
      answerRead r stOk (1 + bit back 1) 0 (if back then (objHeader b ++ v).take r.buf else []) t
  | _ => s

/-- Too few pieces can be read: the command fails and the object is recorded as lost where this pair coordinates it (R330); a
repair keeps what it has and tries again later (R346). -/
def readFails (r : ERead) (s : State) : State :=
  if r.kind = 6 then repairWaits r.id s
  else
    let t := if coordSlot s r.ns r.key = mySlot s then objectLost r.ns r.key s else s
    answerRead r stUnrecovered 0 0 [] t

/-- Ask for what a read still needs; with everything in, complete it. -/
def planRead (id : Nat) (s : State) : State :=
  match readBy s id with
  | none => s
  | some r =>
    match if r.kind = 6 then r.recs.head? else recIn r 0 with
    | none => s
    | some b0 =>
      let (lo, hi) := readRange r b0
      let cs := chunksIn lo hi
      match cs.find? (fun n => (recIn r n).isNone) with
      | some n => if r.stage = 0 then s else sendLocate r n (min 24 (cs.getLastD n + 1 - n)) (onRead id (fun r => { r with stage := 0 }) s)
      | none =>
        let recs := cs.filterMap (recIn r)
        let asks := recs.map (fun b => (b, askNext s r b lo hi))
        if asks.any (fun a => a.2.isNone) then readFails r s
        else
          let new := asks.flatMap (fun a => (a.2.getD []).map (fun p => (a.1, p)))
          let t := onRead id (fun r => { r with
            stage := 1
            want := r.want ++ new.map (fun x => (x.1.chunk, x.2, x.1.holders[x.2]?.getD 0xFFFF, s.now))
            tried := r.tried ++ new.map (fun x => (x.1.chunk, x.2)) }) s
          if new.isEmpty then
            match valueRange r lo hi with
            | some v =>
              if r.kind = 6 then
                match repairOf s r with
                | some x => buildRepair id x v s
                | none => dropReadE id s
              else finishRead r b0 v t
            | none => t
          else new.foldl (fun t x =>
            milmo (x.1.holders[x.2]?.getD 0xFFFF) 7 (.readRequest
              { ns := r.ns, first := x.1.chunk, count := 1, key := r.key, pos := x.2, version := x.1.version, off := 0
                len := if repRec x.1 then chunkLen x.1.valueLen x.1.chunk else fragLen x.1.k (chunkLen x.1.valueLen x.1.chunk) }) t) t

/-- A stripe record for chunk 0 is in: absent keys, Exist, ranges (R78, R114, R125, R126). -/
def judgeRecord (r : ERead) (b : StripeB) (s : State) : State :=
  if r.kind = 7 then finishShed r b s
  else if b.version = 0 ∨ b.tomb then answerRead r stNoKey 0 0 [] s
  else if r.kind = 1 ∨ r.kind = 3 then answerRead r stOk (b.version % 2 ^ 32) (b.version / 2 ^ 32) [] s
  else if (r.kind = 2 ∨ r.kind = 4) ∧ b.valueLen < r.off then answerRead r stRange 0 0 [] s
  else planRead r.id (onRead r.id (fun r => { r with stage := 1, recs := [b] }) s)

/-- Records of a Locate Reply for a read: chunk 0 begins it, further chunks of the same version go on with it. -/
def takeRecords (r : ERead) (rs : List StripeB) (s : State) : State :=
  match (if r.kind = 7 then none else recIn r 0) with
  | none => match rs.find? (fun b => b.chunk == 0) with
    | some b => judgeRecord r b s
    | none => s
  | some b0 =>
    if rs.any (fun b => b.version != b0.version) then relocate r.id s
    else planRead r.id (onRead r.id (fun r => { r with stage := 1, recs := r.recs ++ rs.filter (fun b => (recIn r b.chunk).isNone) }) s)

/-- The read a Locate Reply or Durability Reply answers: the one of its key, or, where it names none, the oldest that waits for
that slot (log 22). -/
def readFor (s : State) (from_ : Nat) (dur : Bool) (key : Option (Nat × Key)) : Option ERead :=
  s.ice.readsE.find? (fun r => r.stage == 0 && r.coord == from_ && (dur == (r.kind == 5)) &&
    match key with | some k => r.ns == k.1 && r.key == k.2 | none => true)

/-- A slot that is not coordinator names another: the Locate or query goes there, at most 3 times in all (R128, R329). With the tries used up,
or no slot named, the command waits until the view changes (DESIGN CHOICE for a Durability Query, log 142). -/
def followRead (r : ERead) (hint : Nat) (s : State) : State :=
  if 2 ≤ r.tries ∨ hint = 0xFFFF then onRead r.id (fun r => { r with stage := 2 }) s
  else
    let r' := { r with coord := hint, tries := r.tries + 1 }
    sendLocate r' (match recIn r 0 with | some _ => r.recs.length | none => 0) 1 (onRead r.id (fun _ => r') s)

/-- A piece of a read has failed: another takes its place (R330). -/
def pieceFails (id n p : Nat) (s : State) : State :=
  planRead id (onRead id (fun r => { r with want := r.want.filter (fun w => ! (w.1 == n && w.2.1 == p)) }) s)

/-- Read Data for a read of this pair (R330). -/
def takeData (from_ : Nat) (b : FragB) (s : State) : State :=
  match s.ice.readsE.find? (fun r => r.ns == b.ns && r.key == b.key && r.want.any (fun w => w.1 == b.chunk && w.2.1 == b.pos && w.2.2.1 == from_)) with
  | none => s
  | some r =>
    let right : Bool := match recIn r b.chunk with | some x => x.version == b.version | none => false
    if b.result = 3 ∨ (b.result = 0 ∧ ! right) then
      if r.kind = 6 then pieceFails r.id b.chunk b.pos s else relocate r.id s
    else if b.result ≠ 0 then pieceFails r.id b.chunk b.pos s
    else planRead r.id (onRead r.id (fun r => { r with
      want := r.want.filter (fun w => ! (w.1 == b.chunk && w.2.1 == b.pos)), got := r.got ++ [(b.chunk, b.pos, b.data)]
      gone := r.gone ++ b.gone.map (fun g => (b.chunk, b.pos, g)) }) s)

/-- Record Replies to a read under R331: it is answered from the holders once m of them answer, none reports a pending version
and all report the same committed one. -/
def takeReplies (from_ : Nat) (rs : List StripeB) (s : State) : State :=
  match rs.head? with
  | none => s
  | some b =>
    match s.ice.readsE.find? (fun r => r.stage == 0 && r.asked.contains from_ && r.ns == b.ns && r.key == b.key && b.chunk == 0) with
    | none => s
    | some r =>
      let all := r.replies.filter (fun x => x.1 != from_) ++ rs.map (fun x => (from_, x))
      let slots := (all.map (·.1)).dedup
      let top (q : Nat) : Nat := maxL ((all.filter (fun x => x.1 == q && x.2.state == 2)).map (fun x => x.2.version))
      let best := maxL (slots.map top)
      let m := match all.find? (fun x => x.2.version == best && best != 0) with
        | some x => x.2.m
        | none => match nsOf s r.ns with | some n => n.pol.m | none => 8
      let t := onRead r.id (fun r => { r with replies := all }) s
      if slots.length < m ∨ all.any (fun x => x.2.state == 1 && x.2.version != 0) ∨ ! slots.all (fun q => top q == best) then t
      else
        let rec_ : StripeB := match all.find? (fun x => x.2.version == best && best != 0) with
          | some x => { x.2 with holders := (List.range (widthRec x.2)).map (fun p =>
              match all.find? (fun y => y.2.version == best && y.2.holders[p]? == some y.1) with | some y => y.1 | none => x.2.holders[p]?.getD 0xFFFF) }
          | none => b
        judgeRecord { r with replies := all } rec_ t

end Sys2Proof.Machine
end

