-- ==== Sys2Proof/Machine/IceList.lean ====
section
/-! DEFINITION. Listing: the order and contents of a ledger, what a pair returns, and the gather and merge at the answering
pair (R118, R119, R127, R188 to R194, R357). -/

namespace Sys2Proof.Machine

/-! ### Order (R188) -/

/-- Key bytes compared as unsigned bytes, a prefix before what it starts (R188). -/
def keyLe : Key → Key → Bool
  | [], _ => true
  | _ :: _, [] => false
  | a :: r, b :: t => if a = b then keyLe r t else decide (a.toNat < b.toNat)

/-- Listing order of entries. -/
def gLe (a b : GEntry) : Bool :=
  if a.lf ≠ b.lf then decide (a.lf < b.lf) else if a.th ≠ b.th then decide (a.th < b.th) else keyLe a.key b.key

/-- Group of an entry or cursor: lf and th[63:8] (R194). -/
def groupOfEntry (e : GEntry) : Nat × Nat := (e.lf, e.th / 256)

/-- Group and count of a cursor (R194). -/
def cursorGroup (c : List Byte) : Nat × Nat := (ofLe (c.take 8), ofLe ((c.drop 8).take 7))
def cursorCount (c : List Byte) : Nat := ofLe ((c.drop 15).take 1)

/-- A cursor (R194). -/
def cursorOf (g : Nat × Nat) (n : Nat) : List Byte := le 8 g.1 ++ le 7 g.2 ++ le 1 (min n 255)

def groupLt (a b : Nat × Nat) : Bool := decide (a.1 < b.1) || (a.1 == b.1 && decide (a.2 < b.2))

/-! ### What a pair returns (R192, R193) -/

/-- Ledger entries of a namespace, the later ones last (R192). -/
def ledgerAll (s : State) (ns : Nat) : List LEntry :=
  (s.kw.runs.filter (fun r => r.ns == ns)).flatMap (·.entries) ++ s.kw.deltas.filter (fun e => e.ns == ns)

/-- Of each key the entry of the greatest version, of equal versions the latest (R191, R192). -/
def newest (l : List LEntry) : List LEntry :=
  l.foldl (fun acc e =>
    match acc.find? (fun x => x.key == e.key) with
    | some x => if e.version < x.version then acc else acc.filter (fun y => y.key != e.key) ++ [e]
    | none => acc ++ [e]) []

/-- The entries a pair returns where no filter leaves one out: no slot ahead is alive; in listing order. Tombstones go with their mark,
for the merge to drop what they delete (R193, Table 8.16). -/
def returned (s : State) (ns : Nat) : List GEntry :=
  ((newest (ledgerAll s ns)).filter (fun e => ! e.ahead.any (fun x => s.ice.slot != some x && alive (slotState s x)))).map
      (fun e => { lf := e.lf, th := e.th, version := e.version, key := e.key, tomb := e.tomb : GEntry }) |>.insertionSort (fun a b => gLe a b = true)

/-- Entries from a start: after a cursor's count of its group, or from a start key on (R118, R194). -/
def fromStart (s : State) (ns : Nat) (byCursor : Bool) (cursor : List Byte) (startKey : Key) (l : List GEntry) : List GEntry :=
  if byCursor then
    let g := cursorGroup cursor
    let same := l.filter (fun e => groupOfEntry e == g)
    same.drop (cursorCount cursor) ++ l.filter (fun e => groupLt g (groupOfEntry e))
  else match nsOf s ns with
    | some n =>
      let o := orderValue n startKey
      l.filter (fun e => gLe { lf := o.1, th := o.2, version := 0, key := startKey, tomb := false } e)
    | none => []

/-- Size of an entry in a reply (Table 8.16). -/
def gSize (e : GEntry) : Nat := ceilDiv (26 + e.key.length) 4 * 4

/-- The longest prefix that fits a size. -/
def fitting (size : GEntry → Nat) : Nat → List GEntry → List GEntry
  | _, [] => []
  | room, e :: r => if size e ≤ room then e :: fitting size (room - size e) r else []

/-- Body bytes for entries in one datagram (R356, Table 8.16). -/
def gRoom : Nat := 8904 - 48

/-- The cursor after the last of the entries given out, `all` being those of which they are the first: its count is the number of keys of
its group up to it (R194). `start` stands where none is given out. -/
def cursorAfter (start : List Byte) (all out : List GEntry) : List Byte :=
  match out.getLast? with
  | none => start
  | some e => cursorOf (groupOfEntry e) (all.filter (fun x => groupOfEntry x == groupOfEntry e && gLe x e)).length

/-- A zero cursor. -/
def zeroCursor : List Byte := List.replicate 16 0#8

/-- The reply of this pair to a gather request, from the entries its filter leaves (R357). -/
def gatherAnswer (s : State) (b : GatherB) (l : List GEntry) : GatherB :=
  let all := fromStart s b.ns b.byCursor b.cursor b.startKey l
  let out := fitting gSize gRoom all
  { ns := b.ns, gid := b.gid, pattern := b.pattern, byCursor := true, cursor := cursorAfter (if b.byCursor then b.cursor else zeroCursor) l out,
    startKey := [], source := [], more := decide (out.length < all.length), entries := out }

/-! ### Keys on the Rime engines (R193, R218, R226, R228) -/

/-- Entries that a request's start leaves: those of a cursor's group, whose count the filter decides, and all after; or those from a start
key on. -/
def scanned (s : State) (b : GatherB) : List GEntry :=
  let l := returned s b.ns
  if b.byCursor then l.filter (fun e => ! groupLt (groupOfEntry e) (cursorGroup b.cursor))
  else fromStart s b.ns false b.cursor b.startKey l

/-- The automaton of a source that another pair sent: kept by its digest, else compiled and kept (R226). -/
def compiledFor (src : List Byte) (s : State) : Option (List Byte) × State :=
  let h := sha256 src
  match s.rime.compiled.find? (fun p => p.1 == h) with
  | some p => (some p.2, s)
  | none => match compilePat src with
    | .ok d => (some (encodeImage d src), { s with rime := { s.rime with compiled := s.rime.compiled ++ [(h, encodeImage d src)] } })
    | .error _ => (none, s)

/-- A listing request whose keys have all passed the engines is answered with those that matched. -/
def scanDone (x : RScan) (s : State) : State :=
  let l := (List.range x.cands.length).filterMap (fun i => if x.hits.contains i then x.cands[i]? else none)
  milmo x.asker 5 (.gatherReply (gatherAnswer s x.ask l)) { s with rime := { s.rime with scans := s.rime.scans.filter (fun y => y.id != x.id) } }

/-- A key has passed its engine. -/
def keyScanned (id idx : Nat) (hit : Bool) (s : State) : State :=
  match s.rime.scans.find? (fun x => x.id == id) with
  | none => s
  | some x =>
    let y := { x with left := x.left.filter (· != idx), hits := if hit then x.hits ++ [idx] else x.hits }
    let t := { s with rime := { s.rime with scans := updIf (fun z => z.id == id) (fun _ => y) s.rime.scans } }
    if y.left.isEmpty then scanDone y t else t

/-- A listing request: without a filter it is answered from the ledger; with one, each key goes to an engine as one input string, and a
repeat of a request that is under way begins no second scan (R193, R228). -/
def beginScan (asker : Nat) (b : GatherB) (s : State) : State :=
  if b.source.isEmpty then milmo asker 5 (.gatherReply (gatherAnswer s b (returned s b.ns))) s
  else if s.rime.scans.any (fun x => x.asker == asker && x.ask == b) then s
  else
    let (img, t) := compiledFor b.source s
    let cands := if img.isSome then scanned t b else []
    let x : RScan :=
      { id := leastFree (t.rime.scans.map (·.id)) 0 (t.rime.scans.length + 1), asker := asker, ask := b, cands := cands
        left := List.range cands.length, hits := [] }
    if cands.isEmpty then scanDone x t
    else
      ((List.range cands.length).zip cands).foldl (fun u p =>
        giveString { owner := .key x.id p.1, image := img.getD [], input := p.2.key, off := 0, at_ := u.now } u)
        { t with rime := { t.rime with scans := t.rime.scans ++ [x] } }

/-! ### The answering pair (R119, R357) -/

def gatherBy (s : State) (id : Nat) : Option Gather := s.ice.gathers.find? (fun g => g.id == id)

def onGather (id : Nat) (f : Gather → Gather) (s : State) : State :=
  { s with ice := { s.ice with gathers := updIf (fun g => g.id == id) f s.ice.gathers } }

/-- The request of a gather: from a slot's own cursor, or from the start of the command. A host's count is of keys of the merged listing, so
that the merge and not one pair passes over them: the command's first requests ask for its group whole (R194; DEDUCED, log 139). -/
def gatherAsk (g : Gather) (from_ : Option (List Byte)) : GatherB :=
  match from_ with
  | some c => { ns := g.ns, gid := g.id, pattern := g.pattern, byCursor := true, cursor := c, startKey := [], source := g.source, more := false, entries := [] }
  | none =>
    if g.pattern then
      { ns := g.ns, gid := g.id, pattern := true, byCursor := true, cursor := cursorOf (cursorGroup g.cursor) 0, startKey := [], source := g.source,
        more := false, entries := [] }
    else { ns := g.ns, gid := g.id, pattern := false, byCursor := false, cursor := zeroCursor, startKey := g.startKey, source := [], more := false, entries := [] }

/-- Merged keys: the greatest version of each key, without tombstones, in listing order (R119, R193). -/
def listOf (g : Gather) : List GEntry :=
  let best := g.entries.foldl (fun acc e => match acc.find? (fun x => x.key == e.key) with
    | some x => if x.version < e.version then acc.filter (fun y => y.key != e.key) ++ [e] else acc
    | none => acc ++ [e]) ([] : List GEntry)
  (best.filter (fun e => ! e.tomb)).insertionSort (fun a b => gLe a b = true)

/-- Merged keys without those the host's cursor says were returned (R194); a key over 16 bytes is not listed by List (R118). -/
def merged (g : Gather) : List GEntry :=
  let l := listOf g
  if g.pattern then
    let c := cursorGroup g.cursor
    (l.filter (fun e => groupOfEntry e == c)).drop (cursorCount g.cursor) ++ l.filter (fun e => groupOfEntry e != c)
  else l.filter (fun e => decide (e.key.length ≤ 16))

/-- Entries no slot with more keys can still precede. -/
def settled (g : Gather) (l : List GEntry) : List GEntry := l.filter (fun e => g.more.all (fun m => gLe e m.2.1))

/-- Size of a key in the host buffer (R118, Table 3.13). -/
def hostSize (e : GEntry) : Nat := ceilDiv (2 + e.key.length) 4 * 4

/-- A key in the host buffer. -/
def hostKey (e : GEntry) : List Byte := padTo (hostSize e) (le 2 e.key.length ++ e.key)

/-- Complete a listing command, or ask the slots whose keys come next for more (R118, R119, R127, R357). -/
def settleGather (id : Nat) (s : State) : State :=
  match gatherBy s id with
  | none => s
  | some g =>
    if ! g.asked.isEmpty then s
    else
      let all := merged g
      let ok := settled g all
      let out := fitting hostSize (g.buf - (if g.pattern then 32 else 4)) ok
      if out.length = ok.length ∧ ! g.more.isEmpty then
        let next := g.more.filter (fun m => g.more.all (fun x => gLe m.2.1 x.2.1))
        next.foldl (fun t m => milmo m.1 5 (.gatherRequest (gatherAsk g (some m.2.2))) t)
          (onGather id (fun g => { g with
            asked := g.asked ++ next.map (fun m => (m.1, 0, s.now))
            more := g.more.filter (fun m => ! next.contains m) }) s)
      else
        let t := { s with ice := { s.ice with gathers := s.ice.gathers.filter (fun x => x.id != id) } }
        let more := decide (out.length < all.length) || ! g.more.isEmpty
        if g.pattern then
          complete g.conn g.cid g.ns stOk 0 0
            (le 4 out.length ++ le 4 (bit more 0) ++ le 8 0 ++ cursorAfter g.cursor (listOf g) out ++ out.flatMap hostKey) t
        else complete g.conn g.cid g.ns stOk out.length 0 (le 4 out.length ++ out.flatMap hostKey) t

/-- Keys of a slot that come after a first batch are added; it is asked no more until the merge needs it (R357). -/
def takeGather (from_ : Nat) (b : GatherB) (s : State) : State :=
  match gatherBy s b.gid with
  | none => s
  | some g =>
    if g.asked.any (fun a => a.1 == from_) then
      settleGather b.gid (onGather b.gid (fun g => { g with
        asked := g.asked.filter (fun a => a.1 != from_)
        entries := g.entries ++ b.entries
        more := match b.more, b.entries.getLast? with | true, some e => g.more ++ [(from_, e, b.cursor)] | _, _ => g.more }) s)
    else s

/-- Ask every alive slot, this pair by internal call, from the start of the command (R119, R357). -/
def askAll (id : Nat) (s : State) : State :=
  match gatherBy s id with
  | none => s
  | some g =>
    let slots := aliveOthers s ++ (if s.ice.slot.isSome then [mySlot s] else [])
    let t := onGather id (fun g => { g with asked := slots.map (fun x => (x, 0, s.now)), more := [], entries := [] }) s
    settleGather id (slots.foldl (fun t x => milmo x 5 (.gatherRequest (gatherAsk g none)) t) t)

/-- A listing command begins (R119). -/
def beginGather (g : Gather) (s : State) : State :=
  let id := s.ice.nextId
  askAll id { s with ice := { s.ice with nextId := id + 1, gathers := s.ice.gathers ++ [{ g with id := id }] } }

end Sys2Proof.Machine
end

