-- ==== Sys2Proof/Machine/IceMember.lean ====
section
/-! DEFINITION. Membership: updates and their order, what follows when a slot leaves or enters the placing set or is LOST, and
the sending of probes, digests and views (R307 to R309, R332 to R349). -/

namespace Sys2Proof.Machine

/-! ### Updates (R333) -/

/-- The own slot as an update (Table 8.7). -/
def ownUpdate (s : State) : MUpdate := { slot := mySlot s, state := s.ice.own, suspected := false, inc := s.ice.inc, time := s.now }

def updateOf (v : VSlot) : MUpdate := { slot := v.slot, state := v.state, suspected := v.suspected, inc := v.inc, time := v.time }

/-- The updates carried in a probe or ack, at most 16, each one time less (R333). -/
def carry (s : State) : List MUpdate × State :=
  let own := if 0 < s.ice.ownLeft then [ownUpdate s] else []
  let others := (s.ice.view.filter (fun v => decide (0 < v.left) && v.state != .absent)).take (16 - own.length)
  (own ++ others.map updateOf,
    { s with ice := { s.ice with
        ownLeft := s.ice.ownLeft - 1
        view := s.ice.view.map (fun v => if others.any (fun o => o.slot == v.slot) then { v with left := v.left - 1 } else v) } })

/-- The whole view as updates in slot order, ABSENT slots left out (R309, R335). -/
def wholeView (s : State) : List MUpdate :=
  ((ownUpdate s :: (s.ice.view.filter (fun v => v.state != .absent)).map updateOf)).insertionSort (fun a b => a.slot ≤ b.slot)

/-- Digest of the view (Table 8.5). The own entry's time is its last announcement, which this model leaves out of the digest:
it is taken as 0 (log 26). -/
def viewDigestOf (s : State) : Nat :=
  let p := placementKey s
  (sipHash p.1 p.2 ((wholeView s).flatMap (fun u => updateBytes (if s.ice.slot = some u.slot then { u with time := 0 } else u)))).toNat

/-- Whether an update prevails over what the view holds (R333). -/
def prevails (v : Option VSlot) (u : MUpdate) : Bool :=
  if u.state = .absent then false
  else match v with
    | none => true
    | some v =>
      if v.state = .absent then true
      else if u.inc ≠ v.inc then decide (v.inc < u.inc)
      else if v.state = .lost then false
      else if u.state = .lost then true
      else if u.suspected ∧ v.suspected then decide (u.time < v.time)
      else if u.suspected then true
      else if v.suspected then false
      else decide (v.time < u.time)

/-- Put an entry into the view; it is carried on (R333). `marker` is the slot that marked it suspected. -/
def putView (u : MUpdate) (marker : Nat) (s : State) : State :=
  let v : VSlot := { slot := u.slot, state := u.state, suspected := u.suspected, inc := u.inc, time := u.time, marker := marker, left := carryCount s }
  mirror (.milmoState [.view v])
    { s with ice := { s.ice with view := (putIf (fun x => x.slot == u.slot) v s.ice.view).insertionSort (fun a b => a.slot ≤ b.slot) } }

/-- Refute a suspicion of this pair: its incarnation rises and it announces itself alive (R334). -/
def refute (u : MUpdate) (s : State) : State :=
  let n := max s.ice.inc u.inc + 1
  let t := journal [.incarnation n] s
  { t with ice := { t.ice with ownLeft := carryCount t } }

/-- A slot that was LOST offers each chunk-0 item it still holds to its coordinator (R349). -/
def offerItems (s : State) : State :=
  (s.kw.items.filter (fun i => i.chunk == 0 && i.st == 2 && ! s.ice.returned.any (fun x => x.1 == i.ns && x.2.1 == i.key))).foldl (fun t i =>
    sendBulk (coordSlot t i.ns i.key) 1 (.holderReturn { stripeOf i with state := 2 } none)
      { t with ice := { t.ice with returned := t.ice.returned ++ [(i.ns, i.key, t.now)] } }) s

/-- Merge one update, without its consequences for other slots (R333, R334, R349); a slot that was LOST enters as JOINING (R338). -/
def mergeOne (u : MUpdate) (s : State) : State :=
  if s.ice.slot = some u.slot then
    let t := if (u.suspected ∨ u.state = .lost) ∧ s.ice.inc ≤ u.inc then refute u s else s
    if u.state = .lost then offerItems t else t
  else if (rosterEntry s u.slot).isNone then s
  else if prevails (viewOf s u.slot) u then putView (if slotState s u.slot = .lost ∧ alive u.state then { u with state := .joining } else u) 0xFFFF s
  else s

/-! ### What follows a change of the view -/

/-- The first bin at or above `b` for which a test holds, looking at `fuel` bins. -/
def anyBin (p : Nat → Bool) : Nat → Nat → Bool
  | 0, _ => false
  | f + 1, b => p b || anyBin p f (b + 1)

/-- Orphan Notices for the chunk-0 items held in bins a lost slot coordinated, to their successors; the orphan processing of each bin is a
unit of the ladder (R342, Table 8.2). -/
def sendOrphans (x : Nat) (s : State) : State :=
  (s.kw.items.filter (fun i => i.chunk == 0)).foldl (fun t i =>
    let b := homeBin t i.ns i.key
    if (rankOf t b ((x :: placingSet t).dedup)).head? = some x then
      match firstSlot t b with
      | some y => sendBulk y 2 (.orphanNotice { stripeOf i with state := if i.st = 2 then 2 else 1 }) (addBg 14 b 0 (secNs 3600) t)
      | none => t
    else t) s

/-- Event 0x5030: this pair has taken over bins of a slot that left (R342). -/
def noteTaken (x : Nat) (s : State) : State :=
  let mine (b : Nat) : Bool := firstSlot s b == s.ice.slot && (rankOf s b ((x :: placingSet s).dedup)).head? == some x
  if s.ice.own = .placing ∧ anyBin mine (2 ^ 20) 0 then record 0x5030 (pathSlot x) (le 2 x) s else s

/-- Slots a successor waits for drop out; with none left it acts (R340). -/
def dropWaits (x : Nat) (s : State) : State :=
  (s.ice.succs.filter (fun q => q.waits.contains x || q.more.any (fun m => m.2 == x))).foldl (fun t q =>
    let q' := { q with waits := q.waits.filter (· != x), more := q.more.filter (fun m => m.2 != x) }
    succOn q' { t with ice := { t.ice with succs := updIf (fun y => y.ns == q.ns && y.key == q.key) (fun _ => q') t.ice.succs } }) s

/-- A record without the abort acknowledgements due from a slot. -/
def forgetSlot (x : Nat) (r : CoRec) : CoRec :=
  let vs := r.vers.map (fun (v : CoVer) => { v with unacked := v.unacked.filter (· != x) })
  { r with vers := vs }

/-- A lost slot answers no abort and no floor any more (R327, R344). -/
def dropAcks (x : Nat) (s : State) : State :=
  let t := { s with ice := { s.ice with recs := s.ice.recs.map (forgetSlot x) } }
  t.ice.raises.foldl (fun u (q : FloorRaise) => raiseAnswered x q.bin q.floor u) t

/-- A pending D1 version whose entry pair is lost before it answers is aborted (R341). -/
def abortAsked (x : Nat) (s : State) : State :=
  s.ice.succs.foldl (fun t q =>
    match recOf t q.ns q.key with
    | none => t
    | some r =>
      let gone := (r.vers.filter (fun v => q.asks.contains v.version && entryOfStore v.storeId == x)).map (·.version)
      if gone.isEmpty then t
      else
        let u := gone.foldl (fun t n => match recOf t q.ns q.key with
          | some r => match r.vers.find? (fun v => v.version == n) with | some v => abortVersion r v t | none => t
          | none => t) t
        let left := q.asks.filter (fun n => ! gone.contains n)
        if left.isEmpty then
          { u with ice := { u.ice with succs := u.ice.succs.filter (fun y => ! (y.ns == q.ns && y.key == q.key)), mail := u.ice.mail ++ q.held } }
        else { u with ice := { u.ice with succs := updIf (fun y => y.ns == q.ns && y.key == q.key) (fun y => { y with asks := left }) u.ice.succs } }) s

/-- Positions being repaired onto a lost slot are placed again (R347). -/
def replaceRepairs (x : Nat) (s : State) : State :=
  (s.ice.repairs.filter (fun q => ! q.mine && q.holder == x)).foldl (fun t q =>
    let u := { t with ice := { t.ice with repairs := t.ice.repairs.filter (fun y => y != q) } }
    match recOf u q.rec_.ns q.rec_.key with
    | some r => match r.vers.find? (fun v => v.version == q.rec_.version) with
      | some v => orderRepair r v q.rec_.chunk q.pos u
      | none => u
    | none => u) s

/-- A slot is LOST (R336, R339, R342, R345, R357). -/
def slotLost (x : Nat) (s : State) : State :=
  let a := { s with ice := { s.ice with
      leases := s.ice.leases.filter (fun l => l.peer != x), granted := s.ice.granted.filter (fun l => l.peer != x)
      bulk := s.ice.bulk.filter (fun b => b.1 != x) } }
  let b := repairSlot x (replaceRepairs x (sendOrphans x (abortAsked x (dropAcks x (dropWaits x a)))))
  b.ice.gathers.foldl (fun t g =>
    if g.asked.any (fun q => q.1 == x) ∨ g.more.any (fun q => q.1 == x) then askAll g.id t else t) b

/-- A slot left the placing set (R339). -/
def slotLeft (x : Nat) (s : State) : State :=
  let a := { s with ice := { s.ice with
      departed := s.ice.departed.filter (fun d => d.1 != x) ++ [(x, s.now)], entering := s.ice.entering.filter (· != x)
      finals := s.ice.finals.filter (fun f => f.1 != x) } }
  noteTaken x (dropWaits x a)

/-- A slot entered the placing set: the bins it is now first for are under handover, and this pair, where it coordinated
them, sends its records on queue 2 (R343). -/
def slotEntered (x : Nat) (s : State) : State :=
  let a := { s with ice := { s.ice with
      entering := sIns x s.ice.entering, finals := s.ice.finals.filter (fun f => f.1 != x), departed := s.ice.departed.filter (fun d => d.1 != x) } }
  a.ice.recs.foldl (fun t r =>
    if handoverOf t r.bin = some (x, mySlot t) then
      r.vers.foldl (fun t v => sendBulk x 2 (.handoverRecord (recordOf t r v 0) ((aGet r.bin t.ice.floors).getD 0)) t) t
    else t) a

/-- Stores without a version ask the slot that is now first; reads whose coordinator changed locate again (R323, R340). -/
def refreshWaiting (s : State) : State :=
  let a := (s.ice.stores.filter (fun e => e.stage == 1 && e.version == 0)).foldl (fun t e =>
    let q := coordSlot t e.ns e.key
    if q = e.coord ∧ e.tries = 0 then t
    else requestVersion e.id (onStore e.id (fun e => { e with coord := q, tries := 0 }) t)) s
  (a.ice.readsE.filter (fun r => r.kind != 6 && (r.stage == 2 || r.stage == 0))).foldl (fun t r =>
    if r.stage = 2 ∨ coordSlot t r.ns r.key ≠ r.coord then relocate r.id t else t) a

/-- Items remember their coordinator for later reports and queries. -/
def refreshItems (s : State) : State :=
  { s with kw := { s.kw with items := s.kw.items.map (fun i => { i with coord := coordSlot s i.ns i.key }) } }

/-- The pair joins the groups of the bins in which it is among the first 12, the lowest ones where the table of joined groups has no room
for all (R320, R378, R380; log 152). -/
def refreshGroups (s : State) : State :=
  if mcastOn s then setGroups (((List.range (2 ^ 20)).filter (fun b => ((ranked s b).take 12).contains (mySlot s))).take (groupRoom s)) s
  else s

/-- Consequences of a change of the view: the placement follows at once, then what each slot's change brings (R312, R336 to
R345); the Service Address log changes where a slot's being alive does (R149). -/
def afterView (old new : State) : State :=
  let slots := (rosterSlots new).filter (fun x => new.ice.slot != some x)
  let lost := slots.filter (fun x => slotState old x != .lost && slotState new x == .lost)
  let left := slots.filter (fun x => slotState old x == .placing && slotState new x != .placing)
  let entered := slots.filter (fun x => slotState old x != .placing && slotState new x == .placing)
  let marked := slots.filter (fun x => ! suspected old x && suspected new x)
  let life := slots.any (fun x => alive (slotState old x) != alive (slotState new x))
  let a := entered.foldl (fun t x => slotEntered x t) (left.foldl (fun t x => slotLeft x t) new)
  let b := marked.foldl (fun t x => dropWaits x t) (lost.foldl (fun t x => slotLost x t) a)
  let g := if life then raiseAsync 3 0 { b with host := { b.host with generation := b.host.generation + 1 } } else b
  if left.isEmpty ∧ entered.isEmpty ∧ lost.isEmpty then g else refreshGroups (refreshItems (refreshWaiting g))

/-- Change the view with all that follows from it. -/
def changeView (f : State → State) (s : State) : State := afterView s (f s)

/-- Merge updates (R333). -/
def mergeAll (us : List MUpdate) (s : State) : State := changeView (fun s => us.foldl (fun t u => mergeOne u t) s) s

/-- A datagram shows its sender alive: an ABSENT slot, and a LOST one under a raised incarnation, enter the view in the state the
sender reports (R307, R338). -/
def heardFrom (h : Hdr) (st : SlotState) : MUpdate := { slot := h.slot, state := st, suspected := false, inc := h.inc, time := 0 }

/-! ### Probes (R332, R337) -/

/-- Slots that may be probed: PLACING, CLOSED, RETIRING and JOINING ones of the view (R332). -/
def probeable (s : State) (x : Nat) : Bool := s.ice.slot != some x && alive (slotState s x) && (rosterEntry s x).isSome

/-- Probe body of this pair; it carries updates. -/
def probeBody (target requester pid : Nat) (s : State) : ProbeB × State :=
  let (us, t) := carry s
  ({ target := target, requester := requester, pid := pid, senderState := s.ice.own, updates := us }, t)

/-- Probe a slot of this pair's own choice. -/
def probeSlot (x : Nat) (s : State) : State :=
  let pid := (s.ice.probeId + 1) % 2 ^ 32
  let (b, t) := probeBody x 0xFFFF pid s
  milmo x 7 (.probe b) { t with ice := { t.ice with
    probeId := pid, probes := t.ice.probes.filter (fun p => decide (s.now < p.at_ + 1000000000)) ++ [⟨x, pid, s.now, none, 0⟩] } }

/-- Ask helpers to probe a slot that did not answer. -/
def probeBy (x pid : Nat) (helpers : List Nat) (s : State) : State :=
  helpers.foldl (fun t y =>
    let (b, u) := probeBody x (mySlot t) pid t
    milmo y 7 (.probeRequest b) { u with ice := { u.ice with probes := u.ice.probes ++ [⟨x, pid, s.now, some y, 0⟩] } }) s

/-- Put the suspected mark on a slot: event 0x5010 (R332). -/
def suspect (x : Nat) (s : State) : State :=
  match viewOf s x with
  | some v =>
    if ! alive v.state ∨ v.suspected then s
    else changeView (putView { slot := x, state := v.state, suspected := true, inc := v.inc, time := s.now } (mySlot s)) (record 0x5010 (pathSlot x) (le 2 x) s)
  | none => s

end Sys2Proof.Machine
end

