-- ==== Sys2Proof/Machine/IceHandle.lean ====
section
/-! DEFINITION. What each Milmo body does at a pair that accepted it, and the handling of what the pair sends to itself (chapter
8, R67, R128, R300). -/

namespace Sys2Proof.Machine

/-! ### Fragments and version requests (R321, R323, R343) -/

/-- Send a request on as from its first sender (R343). -/
def forwardTo (slot from_ : Nat) (b : Body) (s : State) : State :=
  if s.ice.slot = some slot then { s with ice := { s.ice with mail := s.ice.mail ++ [(from_, b)] } } else emit (.forward slot from_ b) s

/-- Acknowledge again an item that is held already (R322). -/
def ackAgain (b : FragB) (pos : Nat) (i : Item) (version : Nat) (s : State) : State :=
  ackBoth b (ackOf b pos (if i.d3 then 3 else 1) 0 0 0xFFFF version 0) s

/-- Keep a fragment as a plain holder; one that a repair or rebalance sends is of a committed version and is committed at once
(R154). -/
def holdFragment (from_ : Nat) (b : FragB) (pos : Nat) (s : State) : State :=
  match heldItem b pos s with
  | some i => ackAgain b pos i 0 s
  | none =>
    if mustWait b s then waitItem from_ 0 b s
    else
      let t := storeItem from_ b pos b.version (if b.version = 0 then 0 else 1) s
      match (if b.repair ∧ b.version ≠ 0 then heldItem b pos t else none) with
      | some i => commitItem i b.version t
      | none => t

/-- A version request (R68, R77, R309, R323, R343): an assigned version is answered again; before a view is adopted there is no
answer; a slot that is not first names the one that is, forwards, holds or gathers records as R340 and R343 say. -/
def onVersionRequest (from_ : Nat) (b : FragB) (s : State) : State :=
  let e := entryOfStore b.storeId
  match verOfStore s b.storeId with
  | some (_, v) =>
    if v.st = 4 then s
    else match heldItem b 0 s with
      | some i => ackAgain b 0 i v.version s
      | none => milmo e 7 (ackOf b 0 1 0 0 0xFFFF v.version 0) s
  | none =>
    if ! s.ice.viewed then s
    else match refusal b s with
      | some r => refuse e b 0 r s
      | none => match roleFor s (homeBin s b.ns b.key) with
        | .other _ => refuse e b 0 5 s
        | .forwards f => forwardTo f from_ (.fragment b) (if holdsFirst b s then holdFragment e b 0 s else s)
        | .holds => { s with ice := { s.ice with handHeld := s.ice.handHeld ++ [⟨homeBin s b.ns b.key, from_, .fragment b⟩] } }
        | .coordinates => if mustGather s b.ns b.key then gatherFor b.ns b.key from_ (.fragment b) s else assign b s

/-- A Fragment at this pair (R321). -/
def onFragment (from_ : Nat) (b : FragB) (s : State) : State :=
  match myPos b s with
  | none => dropGram 7 s
  | some pos =>
    if b.verReq ∧ pos = 0 ∧ b.chunk = 0 then onVersionRequest from_ { b with pos := 0 } s
    else match heldItem b pos s with
      | some i => ackAgain b pos i 0 s
      | none => match refusal b s with
        | some r => refuse (entryOfStore b.storeId) b pos r s
        | none => holdFragment (entryOfStore b.storeId) { b with pos := pos } pos s

/-! ### Acknowledgements at the coordinator (R322, R346) -/

/-- A new holder reports its position at D3 (R346). -/
def repairAck (from_ : Nat) (a : AckB) (s : State) : State :=
  match s.ice.repairs.find? (fun x => ! x.mine && x.rec_.chunk == a.chunk && x.rec_.version == a.version && x.pos == a.pos && x.holder == from_) with
  | none => s
  | some x =>
    let t := match recOf s x.rec_.ns x.rec_.key with
      | some r => setRec (onVer a.version (noteHolder a.chunk a.pos from_ 3) r) s
      | none => s
    repairDone x.rec_.ns a.chunk x.rec_.key a.version a.pos from_ t

/-- A Fragment Ack at this pair: as entry pair and as coordinator (R321, R329). -/
def onFragmentAck (from_ : Nat) (a : AckB) (s : State) : State :=
  if a.storeId = 0 then repairAck from_ a s
  else
    let t := entryAck from_ a s
    if a.result ≠ 0 ∨ a.cond ≠ 0 then t
    else match verOfStore t a.storeId with
      | some (r, v) =>
        let v' := noteHolder a.chunk a.pos from_ a.level v
        let r' := onVer v.version (fun _ => v') r
        let u := setRec r' t
        if v.st = 2 then settleLaid r' v' u else u
      | none =>
        if entryOfStore a.storeId = mySlot t ∨ a.level = 0 then t
        else { t with ice := { t.ice with early := t.ice.early ++ [(from_, a)] } }

/-! ### Store control (R324 to R328) -/

/-- Abort what a Status Query or Commit Request names as unknown. -/
def unknownStore (b : CtlB) : CtlB := { b with result := 0, pos := 0xFFFF, commitTime := 0, key := [] }

/-- The version a Commit Request or Status Query means: by Store ID, else by key and version (R340). -/
def versionFor (s : State) (b : CtlB) : Option (CoRec × CoVer) :=
  match verOfStore s b.storeId with
  | some x => some x
  | none => match recOf s b.ns b.key with
    | some r => (r.vers.find? (fun v => v.version == b.version && b.version != 0)).map (fun v => (r, v))
    | none => none

/-- A Commit Request (R324, R327): committed once; answered again; result 3 below the level; refused after an abort once every
acknowledgement of it is in; result 2 for a Store no holder knows (R325). -/
def onCommitRequest (from_ : Nat) (b : CtlB) (s : State) : State :=
  if ! knownNs s b.ns then refuseNs b.ns s
  else if s.ice.isolated then s
  else match versionFor s b with
    | some (r, v) =>
      match v.st with
      | 1 =>
        if b.level < v.ack then milmo from_ 7 (.commitConfirm { ctlOf r v 3 0xFFFF with storeId := b.storeId }) s
        else commitVersion from_ r { v with storeId := b.storeId } s
      | 4 => if v.unacked.isEmpty then milmo from_ 7 (.commitConfirm { ctlOf r v 1 0xFFFF with storeId := b.storeId }) s else s
      | _ => milmo from_ 7 (.commitConfirm { ctlOf r v 0 0xFFFF with storeId := b.storeId }) s
    | none => match roleFor s (homeBin s b.ns b.key) with
      | .other _ => s
      | .forwards f => forwardTo f from_ (.commitRequest b) s
      | _ =>
        if mustGather s b.ns b.key then gatherFor b.ns b.key from_ (.commitRequest b) s
        else milmo from_ 7 (.commitConfirm { b with result := 2, pos := 0xFFFF, commitTime := 0, key := [] }) s

/-- The entry pair's answer about a D1 version a successor asked for (R341); with the last one the held requests go on. An isolated pair commits nothing and asks
again later (R337). -/
def answerAsked (version : Nat) (yes : Bool) (x : Succ) (s : State) : State :=
  if s.ice.isolated then s else
  let t := match recOf s x.ns x.key with
    | some r => match r.vers.find? (fun (v : CoVer) => v.version == version) with
      | some v => if v.st = 1 then decide_ r v yes s else s
      | none => s
    | none => s
  let left := x.asks.filter (· != version)
  if left.isEmpty then
    { t with ice := { t.ice with succs := t.ice.succs.filter (fun y => ! (y.ns == x.ns && y.key == x.key)), mail := t.ice.mail ++ x.held } }
  else { t with ice := { t.ice with succs := updIf (fun y => y.ns == x.ns && y.key == x.key) (fun y => { y with asks := left }) t.ice.succs } }

/-- The gathering that waits for an answer about a version. -/
def askedOf (s : State) (b : CtlB) : Option Succ := s.ice.succs.find? (fun x => x.ns == b.ns && x.asks.contains b.version)

/-- A Commit Intent: a holder marks its pending items and acknowledges, a successor takes it as the entry pair's answer (R324,
R341). -/
def onCommitIntent (from_ : Nat) (b : CtlB) (s : State) : State :=
  inNs b.ns (fun s => match askedOf s b with
  | some x => answerAsked b.version true x s
  | none =>
    if (itemsOfStore s b.storeId).isEmpty then s
    else milmo from_ 7 (.intentAck { b with result := 0, pos := 0xFFFF, key := [] }) (applyIntent b.storeId b.version s)) s

/-- An Intent Ack: of an intent at the entry pair, of an abort at the coordinator (R325, R327). -/
def onIntentAck (from_ : Nat) (b : CtlB) (s : State) : State :=
  if b.result = 4 then
    match verOfStore s b.storeId with
    | some (r, v) => setRec (onVer v.version (fun v => { v with unacked := v.unacked.filter (· != from_) }) r) s
    | none => s
  else entryIntent from_ b.storeId s

/-- An Abort Notice: a holder discards and acknowledges, a successor takes it as the entry pair's answer (R322, R327, R341). -/
def onAbortNotice (from_ : Nat) (b : CtlB) (s : State) : State :=
  inNs b.ns (fun s => match (if b.result = 2 then askedOf s b else none) with
  | some x => answerAsked b.version false x s
  | none => milmo from_ 7 (.intentAck { b with result := 4, key := [] }) (applyAbort b.storeId b.pos s)) s

/-- A version request of a Store is in progress here (R328). -/
def requestRuns (s : State) (id : Nat) : Bool :=
  let inBody (b : Body) : Bool := match b with | .fragment f => f.storeId == id | _ => false
  s.ice.handHeld.any (fun h => inBody h.body) || s.ice.succs.any (fun x => x.held.any (fun h => inBody h.2)) ||
    s.kw.waits.any (fun w => w.frag.storeId == id && w.frag.verReq) || (storeBy s id).isSome

/-- A Status Query (R325, R328). -/
def onStatusQuery (from_ : Nat) (b : CtlB) (s : State) : State :=
  if ! knownNs s b.ns then refuseNs b.ns s
  else match versionFor s b with
    | some (r, v) =>
      match v.st with
      | 1 => s
      | 4 => milmo from_ 7 (.abortNotice { ctlOf r v 0 0xFFFF with storeId := b.storeId }) s
      | _ => milmo from_ 7 (.commitNotice { ctlOf r v 0 0xFFFF with storeId := b.storeId }) s
    | none => match roleFor s (homeBin s b.ns b.key) with
      | .other _ => if entryOfStore b.storeId = mySlot s then entryStatus from_ b s else s
      | .forwards f => if entryOfStore b.storeId = mySlot s then entryStatus from_ b s else forwardTo f from_ (.statusQuery b) s
      | _ =>
        if mustGather s b.ns b.key then gatherFor b.ns b.key from_ (.statusQuery b) s
        else if requestRuns s b.storeId then s
        else milmo from_ 7 (.abortNotice (unknownStore b)) s

/-! ### Reads at the coordinator and the holder (R128, R329, R330) -/

/-- The record of a key without a version (log 22). -/
def noRecord (ns : Nat) (key : Key) (greatest : Nat) : StripeB :=
  { ns := ns, chunk := 0, key := key, state := 2, intent := false, tomb := false, domShort := false, zeroExt := false, final := false,
    holders := [], version := 0, greatest := greatest, valueLen := 0, k := 1, m := 0, dom := .rack, thr := 0, d3 := [] }

/-- Stripe records in one datagram: (8 904 − 8) / 360 (Table 8.5, Table 8.9). -/
def recordsPerReply : Nat := 24

/-- The records a Locate asks for, of the current version (R329). -/
def locateRecords (s : State) (b : LocB) : List StripeB :=
  let r := recOf s b.ns b.key
  match r, currentVer r with
  | some q, some v =>
    let ns := ((List.range (min b.count 1024)).map (· + b.first)).filter (fun n => decide (n < v.nChunks))
    (ns.take recordsPerReply).map (fun n => recordOf s q v n)
  | some q, none => [noRecord b.ns b.key q.greatest]
  | none, _ => [noRecord b.ns b.key 0]

/-- A Locate (R329, R337, R340, R343). -/
def onLocate (from_ : Nat) (b : LocB) (s : State) : State :=
  if ! knownNs s b.ns then refuseNs b.ns s
  else if s.ice.isolated then milmo from_ 7 (.locateReply 4 0xFFFF []) s
  else match roleFor s (homeBin s b.ns b.key) with
    | .other h => milmo from_ 7 (.locateReply 5 h []) s
    | .forwards f => forwardTo f from_ (.locate b) s
    | _ =>
      if mustGather s b.ns b.key then gatherFor b.ns b.key from_ (.locate b) s
      else milmo from_ 7 (.locateReply 0 0xFFFF (locateRecords s b)) s

/-- A Locate Reply at the asker (R329). -/
def onLocateReply (from_ result hint : Nat) (rs : List StripeB) (s : State) : State :=
  match readFor s from_ false ((rs.head?).map (fun b => (b.ns, b.key))) with
  | none => s
  | some r => match result with
    | 0 => takeRecords r rs s
    | 5 => followRead r hint s
    | _ => onRead r.id (fun r => { r with stage := 2 }) s

/-- Durability record of a version, or of the current one (Table 3.14). -/
def durRecord (s : State) (ns : Nat) (key : Key) (asked : Nat) : DurRec :=
  let r := recOf s ns key
  let g := match r with | some q => max q.greatest (maxL (q.vers.map (·.version))) | none => 0
  let v : Option CoVer := match r with
    | some q => if asked = 0 then currentVer r else q.vers.find? (fun v => v.version == asked)
    | none => none
  match v with
  | none => { version := asked, greatest := g, state := 0, level := 0, holders := 0, atD1 := 0, atD3 := 0, tomb := false, successor := tookBin s (homeBin s ns key), commitTime := 0 }
  | some v =>
    let count (f : CoChunk → List Nat) : Nat := minL (v.chunks.map (fun x => (f x).length))
    { version := v.version, greatest := g, state := v.st, level := if v.st = 4 then 0 else levelOf s v, holders := stripeWidth v, atD1 := count (·.d1),
      atD3 := count (·.d3), tomb := v.tomb, successor := tookBin s (homeBin s ns key), commitTime := v.commitTime }

/-- A Durability Query datagram (R128). -/
def onDurQuery (from_ : Nat) (b : LocB) (s : State) : State :=
  let zero : DurRec := { version := 0, greatest := 0, state := 0, level := 0, holders := 0, atD1 := 0, atD3 := 0, tomb := false, successor := false, commitTime := 0 }
  if ! knownNs s b.ns then refuseNs b.ns s
  else if s.ice.isolated then milmo from_ 7 (.durabilityReply 4 0xFFFF zero) s
  else match roleFor s (homeBin s b.ns b.key) with
    | .other h => milmo from_ 7 (.durabilityReply 5 h zero) s
    | .forwards f => forwardTo f from_ (.durabilityQuery b) s
    | _ =>
      if mustGather s b.ns b.key then gatherFor b.ns b.key from_ (.durabilityQuery b) s
      else milmo from_ 7 (.durabilityReply 0 0xFFFF (durRecord s b.ns b.key b.version)) s

/-- Bytes of a durability record in the host buffer (Table 3.14). -/
def durBytes (r : DurRec) : List Byte :=
  le 8 r.version ++ le 8 r.greatest ++ le 1 r.state ++ le 1 r.level ++ le 1 r.holders ++ le 1 r.atD1 ++ le 1 r.atD3 ++
    le 1 (bit r.tomb 0 + bit r.successor 1) ++ le 2 0 ++ le 8 r.commitTime

/-- A Durability Reply at the asker (R128). -/
def onDurReply (from_ result hint : Nat) (r : DurRec) (s : State) : State :=
  match readFor s from_ true none with
  | none => s
  | some q => match result with
    | 0 => answerRead q stOk 0 0 (durBytes r) s
    | 5 => followRead q hint s
    | _ => onRead q.id (fun q => { q with stage := 2 }) s

/-- A holder reports an item it cannot serve (R330, Table 8.8). -/
def readNothing (b : LocB) (result version : Nat) : FragB :=
  { ns := b.ns, chunk := b.first, key := b.key, pos := b.pos, k := 1, m := 0, storeId := 0, version := version, len := 0, valueLen := 0, segOff := b.off,
    verReq := false, replica := false, tomb := false, repair := false, domShort := false, dom := .rack, ack := 0, thr := 0,
    opts := ⟨false, false, false, 0⟩, result := result, holders := [], data := [] }

/-- The grains of an item on flash that a byte range needs, the key grain left out (R246, R301). -/
def grainsOf (s : State) (i : Item) (off len : Nat) : List Nat :=
  i.flash.filter (fun a => match aGet a s.media.flash with
    | some g => g.kind != 1 && decide (4096 * g.index < off + len) && decide (off < 4096 * g.index + 4096)
    | none => false)

/-- Serve bytes of an item: from the Cornice at once, from flash when its grains have been read (R256, R329). -/
def serveItem (from_ : Nat) (i : Item) (off len : Nat) (s : State) : State :=
  let gs := if i.grains.isEmpty then grainsOf s i off len else []
  if gs.isEmpty then milmo from_ 5 (.readData (readDataOf s i off (((payloadOf s i).drop off).take len) 0)) s
  else
    let id := s.media.readId
    let v : Serve := { id := id, slot := from_, queue := 5, ns := i.ns, chunk := i.chunk, key := i.key, version := i.version, pos := i.pos, off := off,
                       len := len, left := gs, failed := false }
    gs.foldl (fun t a => startRead a 0 id 1 2 t) { s with media := { s.media with readId := id + 1, serves := s.media.serves ++ [v] } }

/-- A bucket that may hold an item's entry, its primary, its alternate or its stash bucket, lies in an incomplete granule (R166,
R186). -/
def inIncomplete (s : State) (ns chunk : Nat) (key : Key) : Bool :=
  let bk := buckets s.kw.dram
  let h := itemHash (kwSecret s) ns chunk key
  [bucket1 bk h, altOf bk (fpOf h) (bucket1 bk h), stashOf bk (fpOf h)].any (fun b => s.kw.incomplete.contains (b / 32768))

/-- An item whose bytes may be read: one that a repair laid and that is not verified yet has neither a Cornice copy nor a grain to
rely on (R256). -/
def readable (i : Item) : Bool := i.tomb || i.d3 || ! i.grains.isEmpty

/-- A Read Request at a holder (R67, R166 to R169, R186, R195, R329, R330): the committed item of the version asked, or a pending one
of it; a greater committed version is superseded, anything else missing, but a miss in an incomplete granule is a local media
failure. An entry whose version disagrees with its header is an event (R168). -/
def onReadRequest (from_ : Nat) (b : LocB) (s : State) : State :=
  if ! knownNs s b.ns then milmo from_ 5 (.readData (readNothing b 1 0)) (refuseNs b.ns s)
  else if purgePending s b.ns then milmo from_ 5 (.readData (readNothing b 1 0)) s
  else
    let f := lookup (buckets s.kw.dram) (kwSecret s) s.kw b.ns b.first b.key
    let t := f.stale.foldl (fun t _ => recordRule 168 (Config.eventSeverity 168).val (pathNs b.ns) t) { s with kw := { s.kw with
      collisions := s.kw.collisions + f.collisions
      verify := s.kw.verify ++ (f.stale.map (fun i => (i.ns, i.chunk, i.key))).filter (fun x => ! s.kw.verify.contains x) } }
    let pend := (pendingOf t b.ns b.first b.key).find? (fun i => i.version == b.version)
    match f.item.filter readable, pend with
    | some i, p =>
      if i.version = b.version then serveItem from_ i b.off b.len t
      else match p with
        | some j => serveItem from_ j b.off b.len t
        | none => milmo from_ 5 (.readData (if b.version < i.version then readNothing b 3 i.version else readNothing b 1 0)) t
    | none, some j => serveItem from_ j b.off b.len t
    | none, none =>
      if inIncomplete s b.ns b.first b.key then
        let u := milmo from_ 5 (.readData (readNothing b 2 0)) t
        milmo (coordSlot u b.ns b.key) 7 (.mediaFailure { noRecord b.ns b.key 0 with chunk := b.first, version := b.version } b.pos) u
      else milmo from_ 5 (.readData (readNothing b 1 0)) t

/-! ### Succession, handover, floors (R340 to R344) -/

/-- A Record Query (R340). -/
def onRecordQuery (from_ : Nat) (b : LocB) (s : State) : State :=
  if ! knownNs s b.ns then refuseNs b.ns s
  else milmo from_ 7 (.recordReply (ownRecords s b.ns b.first b.key) ((aGet (homeBin s b.ns b.key) s.ice.floors).getD 0)) s

/-- A version as a stripe record gives it, with every holder it lists (R342, R343). -/
def verFromRecord (s : State) (b : StripeB) : CoVer :=
  let hs := ((List.range b.holders.length).zip b.holders).filter (fun h => h.2 != 0xFFFF)
  let f := ownFacts s b.ns b.key b.version
  { version := b.version, storeId := f.1, st := b.state, intent := b.intent, tomb := b.tomb, k := b.k, m := b.m, thr := b.thr, ack := f.2, dom := b.dom,
    domShort := b.domShort, valueLen := b.valueLen, nChunks := if b.tomb then 1 else chunkCount b.valueLen
    chunks := [{ chunk := b.chunk, holders := hs, d1 := hs.map (·.1), d3 := b.d3, lost := [] }]
    assignedAt := s.now, commitTime := s.now, zext := b.exts, unacked := [], sentAt := 0 }

/-- Add a record's version to the coordinating record of its key; of several committed ones the greatest is current. -/
def mergeRecord (b : StripeB) (s : State) : State :=
  let r : CoRec := match recOf s b.ns b.key with
    | some r => r
    | none => { ns := b.ns, key := b.key, bin := homeBin s b.ns b.key, greatest := 0, vers := [] }
  if b.version = 0 then s
  else if r.vers.any (fun v => v.version == b.version) then
    setRec (onVer b.version (fun (v : CoVer) =>
      if v.chunks.any (fun x => x.chunk == b.chunk) then v
      else { v with chunks := v.chunks ++ (verFromRecord s b).chunks }) { r with greatest := max r.greatest b.greatest }) s
  else
    let v := verFromRecord s b
    let top := maxL (((v :: r.vers).filter (fun (x : CoVer) => x.st == 2)).map (fun (x : CoVer) => x.version))
    let vs := (r.vers ++ [v]).map (fun (x : CoVer) => if x.st = 2 ∧ x.version ≠ top then { x with st := 3 } else x)
    let t := setRec { r with greatest := max (max r.greatest b.greatest) b.version, vers := vs } s
    if 1 < v.nChunks ∧ b.chunk = 0 then queryChunks b.ns b.key v t else t

/-- Positions of a record whose holder is LOST are repaired (R345). -/
def repairRecord (b : StripeB) (s : State) : State :=
  ((List.range b.holders.length).zip b.holders).foldl (fun t h =>
    if h.2 ≠ 0xFFFF ∧ slotState t h.2 = .lost then
      match recOf t b.ns b.key with
      | some r => match r.vers.find? (fun v => v.version == b.version && v.st == 2) with
        | some v => if v.chunks.any (fun x => x.chunk == b.chunk && aGet h.1 x.holders == some h.2 && ! x.lost.contains h.1) then orderRepair r v b.chunk h.1 t else t
        | none => t
      | none => t
    else t) s

/-- A late or further record of a version this pair knows, or a pending one it has to resolve (R340, R341). -/
def lateRecord (from_ : Nat) (b : StripeB) (s : State) : State :=
  match recOf s b.ns b.key with
  | none => s
  | some r =>
    if b.version = 0 then s
    else match r.vers.find? (fun v => v.version == b.version) with
      | some _ =>
        let p := b.holders.idxOf from_
        if p < b.holders.length then setRec (onVer b.version (noteHolder b.chunk p from_ (if b.d3.contains p then 3 else 1)) r) s else s
      | none =>
        if b.chunk ≠ 0 ∨ ! tookBin s r.bin ∨ s.ice.isolated then s
        else match gathered [(from_, b)] b.version with
          | none => s
          | some v0 =>
            let f := ownFacts s b.ns b.key b.version
            let v := { v0 with storeId := f.1, ack := f.2 }
            let r' := { r with greatest := max r.greatest (max b.greatest b.version), vers := r.vers ++ [v] }
            if v.st = 1 then (if verdict s v = .commit then commitVersion (entryOfStore v.storeId) r' v s else abortVersion r' v s)
            else setRec r' s

/-- A Record Reply: for a gathering, for a read under R331, or late (R331, R340, R341). -/
def onRecordReply (from_ : Nat) (rs : List StripeB) (floor : Nat) (s : State) : State :=
  let t := takeReplies from_ rs s
  match rs.head? with
  | none => t
  | some b =>
    match t.ice.succs.find? (fun x => x.ns == b.ns && x.key == b.key && ((x.waits.contains from_ && b.chunk == 0) || x.more.contains (b.chunk, from_))) with
    | some x =>
      let x' := { x with waits := if b.chunk = 0 then x.waits.filter (· != from_) else x.waits
                         more := x.more.filter (· != (b.chunk, from_))
                         got := x.got ++ rs.map (fun r => (from_, r)), floors := floor :: x.floors }
      succOn x' { t with ice := { t.ice with succs := updIf (fun y => y.ns == x.ns && y.key == x.key) (fun _ => x') t.ice.succs } }
    | none => rs.foldl (fun t r => lateRecord from_ r t) t

/-- A Floor Notice (R344). -/
def onFloorNotice (from_ bin floor : Nat) (s : State) : State :=
  let t := journal [.floor bin floor] s
  milmo from_ 7 (.floorAck bin ((aGet bin t.ice.floors).getD 0)) t

/-- An Orphan Notice at the successor (R342): a committed version is recorded and its lost positions are repaired; for a
pending one the records are gathered (R340). -/
def onOrphan (from_ : Nat) (b : StripeB) (s : State) : State :=
  if ! knownNs s b.ns then refuseNs b.ns s
  else if firstSlot s (homeBin s b.ns b.key) ≠ s.ice.slot then s
  else if b.state = 1 then
    (if (recOf s b.ns b.key).isSome then lateRecord from_ b s
      else gatherFor b.ns b.key from_ (.orphanNotice b) (addBg 14 (homeBin s b.ns b.key) 0 (secNs 3600) s))
  else repairRecord b (mergeRecord b s)

/-- A Handover Record at the new first; the final one, which names its bin in the value length (log 25), brings the floor, and
this pair coordinates the bin: event 0x5031 (R343, R344). -/
def onHandover (b : StripeB) (floor : Nat) (s : State) : State :=
  if b.final then
    if s.ice.finals.contains (mySlot s, b.valueLen) then s
    else record 0x5031 pathPkg (le 4 b.valueLen) (journal [.floor b.valueLen floor]
      (mirror (.milmoState [.final (mySlot s) b.valueLen]) { s with ice := { s.ice with finals := s.ice.finals ++ [(mySlot s, b.valueLen)] } }))
  else inNs b.ns (mergeRecord b) s

/-- A holder takes a new holder list for an item and writes a replacing ledger delta; an entry pair that still discharges a Store of
that version learns where its positions stand (R85, R191; log 131). -/
def takeHolders (b : StripeB) (s : State) : State :=
  let t := (s.kw.items.filter (fun i => i.ns == b.ns && i.chunk == b.chunk && i.key == b.key && i.version == b.version && i.st == 2 && i.holders != b.holders)).foldl (fun t i =>
    let j := { i with holders := b.holders }
    journal (.item j :: ledgerOf t j) t) s
  (t.ice.stores.filter (fun e => e.stage == 4 && e.ns == b.ns && e.key == b.key && e.version == b.version)).foldl (fun t e =>
    freeDone e.id (onStore e.id (onChunk b.chunk (fun x => { x with poss := x.poss.map (fun p => match b.holders[p.pos]? with
      | some h => if h = 0xFFFF then p else { p with slot := h, unplaced := false, level := if b.d3.contains p.pos then 3 else max 1 p.level }
      | none => p) })) t)) t

/-- A Holder Return: the coordinator's answer is keep where its record still names this holder for the current version (R349);
a keep carries the holder list as it stands; a release removes the items. Of a namespace absent from the configuration nothing is
answered and nothing released (R67). -/
def onHolderReturn (from_ : Nat) (b : StripeB) (keep : Option Bool) (s : State) : State :=
  inNs b.ns (fun s => match keep with
  | none =>
    let r := recOf s b.ns b.key
    let p := b.holders.idxOf from_
    let yes : Bool := match currentVer r with
      | some v => v.version == b.version && v.chunks.any (fun x => x.chunk == b.chunk && aGet p x.holders == some from_)
      | none => false
    let t := match r with
      | some q => if yes then setRec (onVer b.version (noteHolder b.chunk p from_ (if b.d3.contains p then 3 else 1)) q) s else s
      | none => s
    sendBulk from_ 1 (.holderReturn b (some yes)) t
  | some true => takeHolders b { s with ice := { s.ice with returned := s.ice.returned.filter (fun x => ! (x.1 == b.ns && x.2.1 == b.key)) } }
  | some false =>
    let whole := s.ice.returned.any (fun x => x.1 == b.ns && x.2.1 == b.key)
    let t := { s with ice := { s.ice with returned := s.ice.returned.filter (fun x => ! (x.1 == b.ns && x.2.1 == b.key)) } }
    (t.kw.items.filter (fun i => i.ns == b.ns && i.key == b.key && i.version == b.version && i.st == 2 && (whole || i.chunk == b.chunk))).foldl
      (fun t i => removeItem 6 i t) t) s

/-! ### Repair (R345, R346) -/

/-- A Repair Order: the new holder reads the surviving positions and rebuilds its own (R346), and waits where background work is
withheld (R24). -/
def onRepairOrder (from_ : Nat) (b : StripeB) (pos : Nat) (s : State) : State :=
  inNs b.ns (fun s => match s.kw.items.find? (fun i => i.ns == b.ns && i.chunk == b.chunk && i.key == b.key && i.version == b.version && i.pos == pos) with
  | some i =>
    if i.d3 then
      milmo from_ 7 (.fragmentAck { storeId := 0, chunk := b.chunk, pos := pos, level := 3, result := 0, cond := 0, hint := 0xFFFF, version := b.version, ref := 0 }) s
    else s
  | none =>
    if s.ice.repairs.any (fun x => x.mine && x.rec_.ns == b.ns && x.rec_.key == b.key && x.rec_.chunk == b.chunk && x.pos == pos && x.rec_.version == b.version) then s
    else
      let x : Repair := { rec_ := b, pos := pos, holder := from_, mine := true, at_ := s.now, rebalance := false, old := 0 }
      let id := s.ice.nextId
      let r : ERead := { id := id, conn := 0xFFFFFFFF, cid := 0, kind := 6, ns := b.ns, key := b.key, off := s.now, len := pos, buf := 0, handle := 0, filter := none, opts := 0,
                         expected := b.chunk, coord := from_, tries := 0, stage := if classGranted s 0 then 1 else 2, at_ := s.now, recs := [b],
                         want := [], got := [], tried := [(b.chunk, pos)], asked := [], replies := [] }
      let t := { s with ice := { s.ice with repairs := s.ice.repairs ++ [x], readsE := s.ice.readsE ++ [r], nextId := id + 1 } }
      if classGranted s 0 then planRead id t else t) s

/-- A holder's report of a local media failure (R345). -/
def onMediaFailure (b : StripeB) (pos : Nat) (s : State) : State :=
  inNs b.ns (fun s => match recOf s b.ns b.key with
  | some r => match r.vers.find? (fun v => v.version == b.version && v.st == 2) with
    | some v => orderRepair r v b.chunk pos s
    | none => s
  | none => s) s

/-! ### SHED (R136, R300) -/

/-- A SHED at its coordinator: it acts on the version named, or with 0 on the current one, if the range and the number of extents
allow it: the zero extents are journaled and mirrored, then every holder and the entry pair get the coordinator's SHED record. A
SHED that cannot act is answered with the record it was judged by (R134, R136, R138, R300; log 24). -/
def shedAtCoordinator (from_ ns : Nat) (key : Key) (version off len : Nat) (s : State) : State :=
  let again := milmo from_ 7 (.locateReply 0 0xFFFF (locateRecords s { ns := ns, first := 0, count := 1, key := key, pos := 0, version := 0, off := 0, len := 0 })) s
  match recOf s ns key, currentVer (recOf s ns key) with
  | some r, some v =>
    let zs := mergeExts (v.zext ++ zeroParts (recordOf s r v 0) off len)
    if v.tomb ∨ (version ≠ 0 ∧ version ≠ v.version) ∨ v.valueLen < off + len ∨ 64 < zs.length then again
    else
      let t := setRec (onVer v.version (fun v => { v with zext := zs }) r) s
      let u := milmoAll (((slotsOf v ++ [from_]).dedup).filter (· != mySlot s)) 7 (.shedRecord ns key v.version off len) t
      let w := shedAtHolder ns key v.version off len u
      if from_ = mySlot s then shedDone ns key v.version off len w else w
  | _, _ => again

/-- A SHED record: the entry pair's at the coordinator of its key, or the coordinator's at a holder and at the entry pair (R67, R136,
R300, R340, R343; log 24). -/
def onShedRecord (from_ ns : Nat) (key : Key) (version off len : Nat) (s : State) : State :=
  if ! knownNs s ns then refuseNs ns s
  else match roleFor s (homeBin s ns key) with
    | .other _ => shedDone ns key version off len (shedAtHolder ns key version off len s)
    | .forwards f => if from_ = f then shedDone ns key version off len (shedAtHolder ns key version off len s)
      else forwardTo f from_ (.shedRecord ns key version off len) s
    | _ =>
      if s.ice.isolated then s
      else if mustGather s ns key then gatherFor ns key from_ (.shedRecord ns key version off len) s
      else shedAtCoordinator from_ ns key version off len s

/-! ### Bulk leases (R351, R352, R355, R696) -/

/-- Max-min fair shares of a budget among demands, smallest demand first (R352). -/
def fairShares : Nat → List (Nat × Nat) → List (Nat × Nat)
  | _, [] => []
  | budget, (id, d) :: r =>
    let x := min d (budget / (r.length + 1))
    (id, x) :: fairShares (budget - x) r

/-- Rates of the leases of one queue out of a budget, by place in the list. -/
def queueRates (ls : List Lease) (q budget : Nat) : List (Nat × Nat) :=
  fairShares budget (((ls.zipIdx.filter (fun l => l.1.queue == q)).map (fun l => (l.2, l.1.asked))).insertionSort (fun a b => a.2 ≤ b.2))

/-- Rates of every lease granted: queue 3 first, then 2, then 1; none while the Cornice takes no payload (R352, R696). -/
def allRates (s : State) : List Lease :=
  let budget := match rosterOf s with | some r => r.inBulk | none => 0
  let ls := s.ice.granted
  if ! corniceTakes 1 s then ls.map (fun l => { l with rate := 0 })
  else
    let a := queueRates ls 3 budget
    let b := queueRates ls 2 (budget - sumL (a.map (·.2)))
    let d := queueRates ls 1 (budget - sumL (a.map (·.2)) - sumL (b.map (·.2)))
    let rates := a ++ b ++ d
    (ls.zipIdx).map (fun l => { l.1 with rate := ((rates.find? (fun r => r.1 == l.2)).map (·.2)).getD 0 })

/-- Send a Permit for a lease (R351). -/
def sendPermit (l : Lease) (s : State) : State :=
  milmo l.peer 7 (.permit { id := l.id, queue := l.queue, locked := s.ptp.locked, calendar := calendarOn s, rate := l.rate, bytes := 0 }) s

/-- A Lease Request: granted within the budget, at most 1 024 leases (R351, R352). -/
def onLeaseRequest (from_ : Nat) (b : LeaseB) (s : State) : State :=
  let l : Lease := { id := b.id, peer := from_, queue := b.queue, asked := b.rate, rate := 0, locked := b.locked, last := s.now }
  let others := s.ice.granted.filter (fun x => ! (x.peer == from_ && x.queue == b.queue))
  if 1024 ≤ others.length then sendPermit l s
  else
    let t := { s with ice := { s.ice with granted := others ++ [l] } }
    let ls := allRates t
    let u := mirror (.milmoState [.lease false l]) { t with ice := { t.ice with granted := ls } }
    match ls.getLast? with | some x => sendPermit x u | none => u

/-- The calendar fall-back: a lease with an unlocked end while the calendar is in force; event 0x5060 when it begins (R355). -/
def checkFallback (s : State) : State :=
  let f := calendarOn s && s.ice.leases.any (fun l => decide (0 < l.rate) && (! l.locked || ! s.ptp.locked))
  let t := { s with ice := { s.ice with fallback := f } }
  if f ∧ ! s.ice.fallback then record 0x5060 pathPkg [] t else t

/-- A Permit at the sender: its rate, or the end of the lease (R351). -/
def onPermit (from_ : Nat) (b : LeaseB) (s : State) : State :=
  match s.ice.leases.find? (fun l => l.peer == from_ && l.id == b.id) with
  | none => s
  | some l =>
    if b.rate = 0 then
      mirror (.milmoState [.leaseEnd true l.id from_]) { s with ice := { s.ice with leases := s.ice.leases.filter (fun x => x != l) } }
    else
      let l' := { l with rate := b.rate, locked := b.locked, last := s.now }
      let t := mirror (.milmoState [.lease true l'])
        (checkFallback { s with ice := { s.ice with leases := updIf (fun x => x == l) (fun _ => l') s.ice.leases } })
      if followsCalendar t l' then t else flushBulk from_ l.queue t

/-! ### Listing (R357) -/

/-- A Listing Gather request (R193, R357). -/
def onGatherRequest (from_ : Nat) (b : GatherB) (s : State) : State :=
  if ! knownNs s b.ns then refuseNs b.ns s else beginScan from_ b s

/-! ### Membership datagrams (R309, R332 to R335) -/

/-- A Probe: its updates are merged and its sender is heard; the slot probed answers with a Probe Ack (R332, R333). -/
def onProbe (h : Hdr) (b : ProbeB) (s : State) : State :=
  let t := mergeAll (heardFrom h b.senderState :: b.updates) s
  if s.ice.slot = some b.target then
    let (a, u) := probeBody b.target b.requester b.pid t
    milmo h.slot 7 (.probeAck a) u
  else t

/-- A gathering goes on after isolation: entry pairs are asked again, or what has come is decided (R341, Table 8.14). -/
def resumeSucc (x : Succ) (s : State) : State :=
  if x.asks.isEmpty then succOn x s
  else match recOf s x.ns x.key with
    | some r => (r.vers.filter (fun v => x.asks.contains v.version)).foldl (fun t v =>
        milmo (entryOfStore v.storeId) 7 (.statusQuery { ctlOf r v 0 0xFFFF with key := x.key }) t) s
    | none => s

/-- Mark the probes that `f` names answered, and judge the pair's own isolation again (R332, R333). -/
def probeAnswered (f : Probing → Bool) (s : State) : State :=
  let t := judgeIsolation { s with ice := { s.ice with probes := updIf f (fun p => { p with result := 1 }) s.ice.probes } }
  if s.ice.isolated ∧ ! t.ice.isolated then t.ice.succs.foldl (fun t x => resumeSucc x t) t else t

/-- A Probe Ack: an answer to a probe of this pair, direct or relayed, or one to relay to the slot that asked (R332, R337). -/
def onProbeAck (h : Hdr) (b : ProbeB) (s : State) : State :=
  let t := mergeAll (heardFrom h b.senderState :: b.updates) s
  if b.requester = 0xFFFF then
    probeAnswered (fun p => p.pid == b.pid && p.helper.isNone && p.result == 0 && decide (s.now ≤ p.at_ + 1000000)) t
  else if s.ice.slot = some b.requester then
    probeAnswered (fun p => p.pid == b.pid && p.helper == some h.slot && p.result == 0 && decide (s.now ≤ p.at_ + 3000000)) t
  else
    let (a, u) := probeBody b.target b.requester b.pid t
    milmo b.requester 7 (.probeAck a) u

/-- A Probe Request: a helper probes the target for the slot that asked (R332). -/
def onProbeRequest (h : Hdr) (b : ProbeB) (s : State) : State :=
  let t := mergeAll (heardFrom h b.senderState :: b.updates) s
  let (a, u) := probeBody b.target h.slot b.pid t
  milmo b.target 7 (.probe a) u

/-- A View Digest that differs is answered with the whole view (R335). -/
def onViewDigest (from_ d : Nat) (s : State) : State :=
  if d = viewDigestOf s then s else milmo from_ 7 (.viewSync (wholeView s)) s

/-- A View Sync: count 0 asks for the whole view; the first one a starting pair receives becomes its view, later ones are
merged (R309, R335). -/
def onViewSync (from_ : Nat) (us : List MUpdate) (s : State) : State :=
  if us.isEmpty then milmo from_ 7 (.viewSync (wholeView s)) s
  else mergeAll us { s with ice := { s.ice with viewed := true } }

/-! ### All bodies, and what the pair sends to itself -/

/-- A body handed to this pair by itself or held for later. Membership bodies and update forwarding never are. -/
def handleBody (from_ : Nat) (b : Body) (s : State) : State :=
  match b with
  | .probe _ | .probeAck _ | .probeRequest _ | .viewDigest _ | .viewSync _ | .updateForward _ _ => s
  | .fragment b => onFragment from_ b s
  | .fragmentAck a => onFragmentAck from_ a s
  | .commitRequest b => onCommitRequest from_ b s
  | .commitIntent b => onCommitIntent from_ b s
  | .commitConfirm b => entryConfirm b s
  | .commitNotice b => onCommitNotice b s
  | .abortNotice b => onAbortNotice from_ b s
  | .statusQuery b => onStatusQuery from_ b s
  | .intentAck b => onIntentAck from_ b s
  | .locate b => onLocate from_ b s
  | .locateReply r h rs => onLocateReply from_ r h rs s
  | .readRequest b => onReadRequest from_ b s
  | .readData b => takeData from_ b s
  | .recordQuery b => onRecordQuery from_ b s
  | .recordReply rs f => onRecordReply from_ rs f s
  | .floorNotice bin f => onFloorNotice from_ bin f s
  | .floorAck bin f => raiseAnswered from_ bin f s
  | .durabilityQuery b => onDurQuery from_ b s
  | .durabilityReply r h d => onDurReply from_ r h d s
  | .orphanNotice b => onOrphan from_ b s
  | .handoverRecord b f => onHandover b f s
  | .holderReturn b k => onHolderReturn from_ b k s
  | .repairOrder b p => onRepairOrder from_ b p s
  | .leaseRequest b => onLeaseRequest from_ b s
  | .permit b => onPermit from_ b s
  | .gatherRequest b => onGatherRequest from_ b s
  | .gatherReply b => takeGather from_ b s
  | .shedRecord ns key v off len => onShedRecord from_ ns key v off len s
  | .mediaFailure b p => onMediaFailure b p s

/-- Handle what the pair sent to itself, oldest first. -/
def drainMail : Nat → State → State
  | 0, s => s
  | n + 1, s =>
    match s.ice.mail with
    | [] => s
    | (f, b) :: r => drainMail n (handleBody f b { s with ice := { s.ice with mail := r } })

/-- Bodies handled within one command at most: a Store of 1 024 chunks of 32 positions takes fewer. -/
def mailRounds : Nat := 1048576

/-- Orphan processing of a bin is over when no Orphan Notice of it waits to be sent and no gathering of its keys runs (R342, Table 8.2). -/
def endOrphans (s : State) : State :=
  let runs (u : BgUnit) : Bool := s.ice.succs.any (fun x => homeBin s x.ns x.key == u.id) ||
    s.ice.bulk.any (fun x => match x.2.2 with | .orphanNotice b => homeBin s b.ns b.key == u.id | _ => false)
  { s with media := { s.media with bg := s.media.bg.filter (fun u => u.kind != 14 || runs u) } }

/-- End of a command that touches the icefield: own datagrams are handled, and a closing cause that arose closes the pair
(R308). -/
def settle (s : State) : State := endOrphans (checkCauses (drainMail mailRounds s))

/-- A meaning after whose effect what the pair sent to itself is handled. -/
def andSettle (r : Result) : Result :=
  match r with
  | .next s => .next (settle s)
  | x => x

/-- A datagram from another slot: accepted or dropped (R360), then its effect. -/
def gram (h : Hdr) (b : Body) (f : State → State) (s : State) : Result := onlyIf (receives s) (onGram h b (fun t => settle (f t))) s

end Sys2Proof.Machine
end

