-- ==== Sys2Proof/Machine/HostOps.lean ====
section
/-! DEFINITION. What every I/O command shares: acceptance, the fused Key Carrier, the order of failures of Table 3.7, and
the end of connections and associations (R99, R109 to R114, R123, R142, R143). -/

namespace Sys2Proof.Machine

/-! ### Connections -/

/-- A connection index that names none: commands of a lost connection carry it (R143). -/
def noConn : Nat := 0xFFFFFFFF

def connBy (s : State) (idx : Nat) : Option Conn := s.host.conns.find? (fun c => c.idx == idx)

/-- Change a connection. -/
def onConn (idx : Nat) (f : Conn → Conn) (s : State) : State :=
  { s with host := { s.host with conns := updIf (fun c => c.idx == idx) f s.host.conns } }

/-- Commands outstanding on the I/O queues (Table 3.1). -/
def outstanding (s : State) : Nat :=
  (s.ice.stores.filter (fun e => ! e.posted)).length + s.ice.readsE.length + s.ice.gathers.length + s.ward.waits.length

/-- The pair answers at its service addresses: its cores run, it holds the pair, has taken the service address, and has not
stopped service (R28, R94, R428, R442). -/
def serves (s : State) : Bool :=
  takesFrames s && holdsPair s && s.start.service && ! s.start.stoppedServing && ! s.mem.stopped && ! s.twin.closedDoor

/-- Commands outstanding on one connection. -/
def outstandingOn (s : State) (conn : Nat) : Nat :=
  (s.ice.stores.filter (fun e => ! e.posted && e.conn == conn)).length + (s.ice.readsE.filter (fun r => r.conn == conn)).length
    + (s.ice.gathers.filter (fun g => g.conn == conn)).length + (s.ward.waits.filter (fun w => w.q.conn == conn)).length

/-- At the limit of outstanding commands, no capsule is read on the connections that have the most outstanding: it stays at its sender,
held back by the TCP window or by receive credits, and is read later (R101). -/
def capsuleHeld (s : State) (conn : Nat) : Bool :=
  decide (262144 ≤ outstanding s) && s.host.conns.all (fun c => decide (outstandingOn s c.idx ≤ outstandingOn s conn))

/-- A capsule on an I/O queue is read: its connection is an I/O queue of a controller, and is not held back (R101). -/
def ioAccepts (q : Sqe) (s : State) : Bool :=
  serves s && ! capsuleHeld s q.conn &&
  match connBy s q.conn with
  | some c => decide (c.qid ≠ 0) && decide (c.cntl ≠ 0) && ! c.mgmt
  | none => false

/-! ### Taking a capsule (R103, R421) -/

/-- A capsule is mirrored, whole or, where the compact form can say it, in that form with its context, before its transport
acknowledgement leaves; it counts as a sign of life of its controller (Table 10.7, R103). -/
def takeCapsule (x : Cap) (compact : Bool) (s : State) : State :=
  let q := x.q
  let a := onCtrl q.conn (fun c => { c with seenAt := s.now }) s
  let fits : Bool := compact && q.fuse == 0 && q.version == 0 && q.handle == 0 && q.shedVersion == 0
  let e : List TEntry := if fits then [.context q.nsid q.dw10 q.opts, .compact q.cid x.opc q.opts x.key] else [.capsule x]
  ackPayload q.conn 72 (mirror (.transport (.select q.conn :: e)) a)

/-- Complete an I/O command. -/
def answer (q : Sqe) (st : Status) (dw0 dw1 : Nat) (s : State) : State := complete q.conn q.cid q.nsid st dw0 dw1 [] s

/-! ### Fused pairs (R123, R124) -/

/-- What a command's fuse value gives it: the key of the Key Carrier before it, the key of its own entry, or a status. A Key
Carrier whose pair is broken completes with Missing Fused Command, one whose block is invalid with Invalid Key Size, and
one whose pair is taken with success. `second` is whether the command can be the second of a pair at all. -/
def fuse (q : Sqe) (second : Bool) (s : State) : State × Option Key × Option Status :=
  let own : Option Key × Option Status := if q.fuse = 2 then (none, some stMissingFused) else (some q.key, none)
  match (connBy s q.conn).bind (·.carrier) with
  | none => (s, if second then own else (some q.key, none))
  | some (cid, ns, key, ok) =>
    let t := onConn q.conn (fun c => { c with carrier := none }) s
    if second ∧ q.fuse = 2 ∧ q.keyLen = 0 ∧ q.nsid = ns then
      if ok then (complete q.conn cid ns stOk 0 0 [] t, some key, none)
      else (complete q.conn cid ns stKeySize 0 0 [] t, none, some stFailedFused)
    else (complete q.conn cid ns stMissingFused 0 0 [] t, if second then own else (some q.key, none))

/-! ### Order of failures (R111, Table 3.7) -/

/-- The status of the earliest row that applies. -/
def firstFail (l : List (Bool × Status)) : Option Status := (l.find? (fun x => x.1)).map (·.2)

/-- A namespace exists and its host list names the controller's host (R63, R99). -/
def visible (s : State) (conn ns : Nat) : Bool :=
  match nsOf s ns, ctrlOf s conn with
  | some n, some c => n.hosts.contains c.nqn
  | _, _ => false

/-- Key of 1 to the namespace's maximum, at most 255 bytes (R55, R56). -/
def keySizeOk (s : State) (ns : Nat) (key : Key) : Bool :=
  decide (1 ≤ key.length) && match nsOf s ns with | some n => decide (key.length ≤ n.maxKey) | none => true

/-- Row 1 of every command: transport, SGL and digest (R102, Tables 3.1, 3.2, 3.7). -/
def row1 (q : Sqe) (s : State) : List (Bool × Status) :=
  let rdma : Bool := match connBy s q.conn with | some c => c.rdma | none => false
  [(! q.transportOk || ! sglKnown rdma q, stTransferError), (! inCapsuleOk q, stSglLength)]

/-- Rows 2 and 4: the fused pair, and the namespace. -/
def rows24 (q : Sqe) (f : Option Status) (s : State) : List (Bool × Status) :=
  [(f.isSome, f.getD stOk), (! visible s q.conn q.nsid, stInvalidNs)]

/-- Row 5 common to all: fields that must be 0, and reserved fuse values; a Key Value command takes none (R114, R120). -/
def row5 (q : Sqe) (vendor : Bool) : List (Bool × Status) :=
  [(vendor && ! fixedFields q, stInvalidField), (if vendor then q.fuse != 0 && q.fuse != 2 else q.fuse != 0, stInvalidField)]

/-- Row 5 for a key: in the entry at most 16 bytes, and within the namespace's limit (R55, R56, R110). -/
def row5Key (q : Sqe) (key : Key) (s : State) : List (Bool × Status) :=
  [(decide (16 < q.keyLen) || ! keySizeOk s q.nsid key, stKeySize)]

/-- Rows 6 and 7 of a changing command: gauge, view and purge; read-only (R89, R309, R465, R509). -/
def rows67 (q : Sqe) (s : State) : List (Bool × Status) :=
  [(! s.gauge.passed || (s.ice.slot.isSome && ! s.ice.viewed) || purgePending s q.nsid, stNotReady), (s.gauge.readOnly, stReadOnly)]

/-- Row 8 of a reading command: another pair coordinates the key and the namespace redirects; without any placing slot there is no
coordinator to name (R72, R139, R141). -/
def row8 (q : Sqe) (key : Key) (s : State) : List (Bool × Status) :=
  [(match nsOf s q.nsid with
    | some n => n.redirect && s.ice.slot.isSome && coordSlot s q.nsid key != mySlot s && coordSlot s q.nsid key != 0xFFFF
    | none => false, stRedirect)]

/-- Row 9 of any command that goes to the icefield: no slot, or isolated (R305, R337). -/
def row9 (s : State) : List (Bool × Status) := [(s.ice.slot.isNone || s.ice.isolated, stPlacement)]

/-- Dwords 0 and 1 of a completion that a check of Table 3.7 ends: a Redirect names the coordinator's slot and the
generation of the Service Address log (R141). -/
def failDwords (q : Sqe) (key : Key) (st : Status) (s : State) : Nat × Nat :=
  if st = stRedirect then (coordSlot s q.nsid key, s.host.generation) else (0, 0)

/-- A command as it runs: its entry, its key, what its fused pair made of it, its effective policy (R65), and the filter its handle named
when it was accepted (R133). -/
structure Cmd where
  q : Sqe
  key : Key
  fused : Option Status
  pol : Option Policy
  filter : Option Automaton
  deriving DecidableEq, Repr

/-- What can fail in a command, and how it begins. -/
structure CmdRule where
  opc : Nat
  fails : Cmd → State → List (Bool × Status)
  begin_ : Cmd → State → State

/-- Command class of Table 5.1 for an opcode: 0 changing, 1 reading, 2 listing; none for one that is no key command. -/
def cmdClass (opc : Nat) : Option Nat :=
  if [0x01, 0x10, 0x81, 0x84, 0x90].contains opc then some 0
  else if [0x02, 0x14, 0x82, 0x86, 0x88, 0x8E].contains opc then some 1
  else if [0x06, 0x8A].contains opc then some 2
  else none

/-- A key command is classified before any other step: none where its search waits for a shadow word (R65, R198, R212). -/
def classifyCmd (opc : Nat) (c : Cmd) (s : State) : Option Cmd × State :=
  match cmdClass opc, nsOf s c.q.nsid with
  | some cls, some n =>
    match search n cls c.key s with
    | (.action a, t) => (some { c with pol := some (applyAction n.pol a) }, t)
    | (.waits, t) => (none, t)
  | _, _ => (some c, s)

/-- A command that a check of Table 3.7 ends is a reading or changing command completed (Table 3.23). -/
def countEnded (opc : Nat) (s : State) : State :=
  match cmdClass opc with
  | some 0 => { s with host := { s.host with writes := s.host.writes + 1 } }
  | some 1 => { s with host := { s.host with reads := s.host.reads + 1 } }
  | _ => s

/-- A command runs: it is classified; the earliest failing row ends it, else it begins. The first service of a namespace draws its salt
(R65, R111, R503). A command whose search waits is kept as its capsule. -/
def runIo (r : CmdRule) (c0 : Cmd) (s : State) : State :=
  match classifyCmd r.opc c0 s with
  | (none, b) => { b with ward := { b.ward with waits := b.ward.waits ++ [{ opc := r.opc, q := c0.q, key := c0.key, filter := c0.filter }] } }
  | (some c, b) =>
    match firstFail (r.fails c b) with
    | some st => countEnded r.opc (answer c.q st (failDwords c.q c.key st b).1 (failDwords c.q c.key st b).2 b)
    | none => match withSalt c.q.nsid b with
      | some t => r.begin_ c t
      | none => answer c.q stInternal 0 0 b

/-- The filter a command's handle names now, for the commands that take one. -/
def namedFilter (opc : Nat) (q : Sqe) (s : State) : Option Automaton := if opc = 0x86 ∨ opc = 0x8A then filterOf s q.handle else none

/-- The skeleton of an I/O command: a command that reaches a device in shutdown completes with Namespace Not Ready (Table
15.6); its fused pair is resolved, its capsule is taken, and it runs. `second` is whether it can end a fused pair. -/
def ioCommand (r : CmdRule) (q : Sqe) (second compact : Bool) (s : State) : State :=
  if inShutdown s then answer q stNotReady 0 0 s
  else
    let (a, k, f) := fuse q second s
    let key := if r.opc = 0x8A then [] else k.getD []
    let x := namedFilter r.opc q a
    runIo r { q := q, key := key, fused := f, pol := none, filter := x } (takeCapsule { opc := r.opc, q := q, key := key, filter := x } compact a)

/-- An I/O command's meaning: nothing while its capsule is not read (R12). -/
def io (q : Sqe) (f : State → State) (s : State) : Result := onlyIf (ioAccepts q s) (fun s => settle (f s)) s

/-! ### Losing connections and associations (R143) -/

/-- Commands of a connection: reading and listing commands are abandoned, changing ones run on without a completion (R143); one whose
search still waits has not begun and ends without effect. -/
def orphanCommands (idx : Nat) (s : State) : State :=
  { s with
    ward := { s.ward with waits := s.ward.waits.filter (fun w => w.q.conn != idx) }
    ice := { s.ice with
      readsE := (s.ice.readsE.filter (fun r => r.conn != idx || r.kind == 7)).map (fun r => if r.conn = idx then { r with conn := noConn } else r)
      gathers := s.ice.gathers.filter (fun g => g.conn != idx)
      stores := s.ice.stores.map (fun e => if e.conn = idx then { e with conn := noConn } else e) } }

/-- A connection is gone: its commands, what it staged and did not commit (R575, R609), and the connection itself; the
twin is told (Table 10.7). -/
def dropConn (idx : Nat) (s : State) : State :=
  let a := orphanCommands idx s
  let keep : Bool := match a.boot.incoming with | some i => i.source != 0 || i.from_ != idx | none => true
  let own : Bool := match connBy s idx with | some c => c.mgmt | none => true
  let m (t : State) : State := if own then t else mirror (.transport [.select idx, .close]) t
  m { a with
        host := { a.host with conns := a.host.conns.filter (fun c => c.idx != idx) }
        boot := { a.boot with incoming := if keep then a.boot.incoming else none } }

/-- An association ends: its controller and every connection of it; the connections still up are reset. -/
def endAssociation (cntl : Nat) (s : State) : State :=
  let cs := s.host.conns.filter (fun c => c.cntl == cntl)
  cs.foldl (fun t c => dropConn c.idx (emit (.connReset c.idx) t))
    { s with host := { s.host with ctrls := s.host.ctrls.filter (fun c => c.id != cntl) } }

/-- A connection is lost: an admin queue takes its association with it (R143). -/
def loseConn (idx : Nat) (s : State) : State :=
  match connBy s idx with
  | none => s
  | some c =>
    let t := dropConn idx s
    if c.qid = 0 ∧ c.cntl ≠ 0 then endAssociation c.cntl t else t

end Sys2Proof.Machine
end

