-- ==== Sys2Proof/Machine/LogOps.lean ====
section
/-! DEFINITION. Contents of log pages and Identify structures (Tables 3.22 to 3.25, 9.7, 11.7, 17.10 to 17.13). Where the
spec names an NVMe structure without laying it out, its layout is the NVMe specification's (PRESUMED, log 27). -/

namespace Sys2Proof.Machine

/-- Fields placed at byte offsets of a zero-filled structure, in ascending order. -/
def place (size : Nat) (fs : List (Nat × List Byte)) : List Byte :=
  padTo size (fs.foldl (fun acc f => padTo f.1 acc ++ f.2) [])

/-- Bytes of a structure from an offset: zeros beyond its end (R147). -/
def slice (off len : Nat) (bs : List Byte) : List Byte := padTo len (bs.drop off)

/-! ### Moraine (R661 to R665) -/

/-- A record as 64 bytes (Tables 17.1 and 17.2). -/
def recBytes (r : EvRec) : List Byte :=
  le 8 r.seq ++ le 8 r.time ++ le 2 r.code ++ le 1 r.sev ++ le 1 (bit r.ptp 0 + bit r.carried 1 + bit r.summary 2 + bit r.sat 3 + bit r.first 4)
    ++ le 4 r.path ++ le 4 r.suppressed ++ le 4 0 ++ padTo 32 r.payload

/-- Records a read can return, by sequence: ring and buffer together (R656, R663). -/
def available (s : State) : List EvRec := s.mor.ring ++ s.mor.buffer

def oldestSeq (s : State) : Nat := match available s with | r :: _ => r.seq | [] => 0
def newestSeq (s : State) : Nat := maxL ((available s).map (·.seq))

/-- Consecutive records from the front. -/
def consecutive : Nat → List EvRec → List EvRec
  | _, [] => []
  | n, r :: rs => if r.seq = n then r :: consecutive (n + 1) rs else []

/-- Log 0xC0: header and a run of records from sequence `off / 64` (R662, Table 17.11). -/
def moraineRead (s : State) (off len : Nat) : List Byte :=
  let n := off / 64
  let old := oldestSeq s
  let rest := (available s).dropWhile (fun r => decide (r.seq < n))
  let run := match rest with
    | r :: _ => (consecutive r.seq rest).take (min 65536 ((len - 64) / 64))
    | [] => []
  let first := match run with | r :: _ => r.seq | [] => 0
  let passed := decide (n ≠ 0) && decide (n < old)
  let skipped := ! passed && decide (n ≠ 0) && decide (n < first)
  let atEnd := match run.getLast? with | some r => r.seq == newestSeq s | none => false
  padTo len (padTo (min len 64) (le 8 n ++ le 8 first ++ le 4 run.length ++ le 4 (bit passed 0 + bit skipped 1 + bit atEnd 2)
      ++ le 8 old ++ le 8 (newestSeq s) ++ le 8 s.serial ++ le 8 s.now ++ le 8 0)
    ++ run.flatMap recBytes)

/-- Log 0xC1 (Table 17.12). -/
def firstLog (s : State) : List Byte :=
  let n := s.mor.first.length
  padTo 262208 (padTo 64 (le 4 n ++ le 4 (bit (decide (firstSize ≤ n)) 0) ++ le 8 s.serial) ++ s.mor.first.flatMap recBytes)

/-- Log 0xC2 (Table 17.13). -/
def moraineStatus (s : State) : List Byte :=
  le 8 (oldestSeq s) ++ le 8 (newestSeq s) ++ le 8 s.mor.next ++ le 8 s.serial ++ le 4 s.mor.buffer.length ++ le 4 s.mor.first.length
    ++ le 4 s.mor.lost ++ le 4 s.mor.supp.length ++ le 8 s.mor.writes ++ le 4 s.mor.skipped
    ++ le 2 (bit s.ptp.locked 0 + bit s.mor.through 1 + bit (decide (firstSize ≤ s.mor.first.length)) 2) ++ le 2 0

/-! ### SMART / Health (Table 3.23) -/

/-- Critical warning bits. -/
def criticalWarning (s : State) : Nat :=
  bit (decide (freeF s < threshold s (mediaOf s).floor)) 0 + bit (decide (1150 ≤ s.power.hottest)) 1
    + bit (! s.mem.qRegions.isEmpty || (twinConfigured s && ! s.twin.healthy)) 2 + bit s.gauge.readOnly 3 + bit (! s.gauge.passed) 4

/-- Hours with the cores released. -/
def powerOnHours (s : State) : Nat :=
  (s.start.onNs + (if running s then s.now - s.keeper.releasedAt else 0)) / (3600 * 1000000000)

/-- Percentage used: the mean of the P/E counts of every block of the accepted dies as a percentage of rated endurance, which the spec
gives no value (log 28). -/
def percentUsed (s : State) : Nat :=
  let blocks := s.media.accepted * (geoOf s).blocks
  let sum := sumL (s.media.pe.map (·.2.2))
  min 255 (100 * sum / (blocks * Config.ratedEndurance.toNat))

/-- Log 0x02, 512 bytes. -/
def smartLog (s : State) : List Byte :=
  place 512
    [(0, le 1 (criticalWarning s)), (1, le 2 ((s.power.hottest / 10 + 273).toNat)), (3, le 1 (availableSpare s)), (4, le 1 (mediaOf s).spareThr),
     (5, le 1 (percentUsed s)), (32, le 16 (s.host.bytesRead / 512000)), (48, le 16 (s.host.bytesWritten / 512000)),
     (64, le 16 s.host.reads), (80, le 16 s.host.writes), (112, le 16 s.start.powerCycles), (128, le 16 (powerOnHours s)),
     (144, le 16 s.start.unsafeShutdowns), (160, le 16 s.host.mediaErrors)]

/-! ### Firmware slots (R612) and errors -/

/-- ASCII of a revision number's eight characters. -/
def revBytes (b : Bank) : List Byte :=
  if b.state = 0 ∨ b.state = 4 then List.replicate 8 0x20#8
  else match b.content with | some p => le 8 p.revision | none => List.replicate 8 0x20#8

/-- NVMe slot of a bank: 1 A, 2 B. -/
def nextSlot (b : Boot) : Nat :=
  if b.bankA.state = 1 then 1 else if b.bankB.state = 1 then 2 else b.active + 1

/-- Log 0x03. -/
def slotLog (s : State) : List Byte :=
  place 512 [(0, le 1 ((s.boot.bank + 1) + 16 * nextSlot s.boot)), (8, revBytes s.boot.bankA), (16, revBytes s.boot.bankB)]

/-- Log 0x01 of a controller: 64 entries of 64 bytes. -/
def errorLog (c : Ctrl) : List Byte :=
  padTo 4096 (c.errors.flatMap (fun e => place 64 [(0, le 8 e.count), (8, le 2 e.qid), (10, le 2 e.cid),
    (12, le 2 (2 * (e.st.sc + 256 * e.st.sct) + bit e.st.dnr 15)), (24, le 4 e.ns)]))

/-- Log 0x04 of a controller. -/
def changedLog (c : Ctrl) : List Byte := padTo 4096 (c.changed.flatMap (le 4))

/-- Opcodes of Tables 3.3 and 3.17, and of Tables 3.8 and 3.10. -/
def adminOpcodes : List Nat := [0x02, 0x06, 0x08, 0x09, 0x0A, 0x0C, 0x10, 0x11, 0x18, 0x7F, 0x80, 0xC1, 0xC4, 0xC8]
def ioOpcodes : List Nat := [0x00, 0x01, 0x02, 0x06, 0x10, 0x14, 0x81, 0x82, 0x84, 0x86, 0x88, 0x8A, 0x8D, 0x8E, 0x90]

/-- Log 0x05: a doubleword for each opcode, bit 0 supported. -/
def effectsLog : List Byte :=
  (List.range 256).flatMap (fun o => le 4 (if adminOpcodes.contains o then 1 else 0))
    ++ padTo 3072 ((List.range 256).flatMap (fun o => le 4 (if ioOpcodes.contains o then 1 else 0)))

/-! ### Device Identity and Service Address (Tables 3.24 and 3.25) -/

/-- Log 0xD0; an unconfigured device reports YIELDED (R552). -/
def identityLog (s : State) : List Byte :=
  let role := if s.start.unconfigured then 3 else roleCode s.twin.roleState
  let twinRole := match s.twin.status with | some b => if s.twin.session then roleCode b.role else 0xFF | none => 0xFF
  let slot := if s.start.unconfigured then 0xFFFF else mySlot s
  place 96
    [(0, le 4 0x00E50008), (4, le 1 0xA1), (5, le 1 (role + bit s.boot.trial 7)), (6, le 2 slot), (8, le 8 s.serial),
     (16, le 8 (match s.cfg with | some c => c.pair | none => 0)), (24, le 1 s.keeper.role), (25, le 1 twinRole),
     (28, le 4 (match s.cfg with | some c => c.seq | none => 0)), (32, le 8 (match s.twin.twinHello with | some h => h.serial | none => 0)),
     (40, le 4 s.boot.fwVer), (44, le 1 s.boot.bank), (45, le 1 s.boot.slotUse), (46, le 1 (toMask s.mem.qRegions)),
     (48, le 4 (toMask s.mem.qClusters)), (52, le 4 s.media.accepted), (56, le 8 s.kw.dram), (64, le 8 (2 ^ 31))]

/-- Log 0xD1. The port and the transports are those of the Network record. -/
def serviceLog (s : State) : List Byte :=
  let rs := match rosterOf s with | some r => r.slots | none => []
  let n := netOf s
  let port := match n with | some n => n.port | none => 4420
  let tcp := match n with | some n => n.tcp | none => false
  let rdma := match n with | some n => n.rdma | none => false
  padTo 32 (le 4 s.host.generation ++ le 2 rs.length ++ le 2 (mySlot s))
    ++ rs.flatMap (fun e => place 32
      [(0, le 2 e.slot), (2, le 2 (bit (alive (slotState s e.slot)) 0 + bit e.a6.isSome 1 + bit e.a4.isSome 2 + bit tcp 3 + bit rdma 4)),
       (4, le 2 port), (6, le 2 port), (8, be 16 (e.a6.getD 0)), (24, be 4 (e.a4.getD 0))])

/-! ### Network Statistics and Energy Accounting (Tables 9.7 and 11.7) -/

/-- A MAC's block: totals with what its counters hold besides. -/
def macBlock (s : State) (k : Nat) : List Byte :=
  match macOf s k with
  | some m =>
    let ptp : Bool := match s.ptp.parent with | some p => p.1 == k | none => false
    place 800 [(0, le 1 k), (1, le 1 m.mode), (2, le 1 (bit m.up 0)),
      (3, le 1 (bit ptp 0 + bit (acceptingPort s == some k) 1 + bit m.sat 2 + bit m.laneRetired 3)),
      (32, (List.range 96).flatMap (fun i => le 8 ((aGet i m.totals).getD 0 + (aGet i m.counts).getD 0)))]
  | none => place 800 [(0, le 1 k)]

/-- Log 0xD2. -/
def networkLog (s : State) : List Byte :=
  padTo 32 (le 8 s.now ++ le 2 17 ++ le 2 800 ++ le 4 0 ++ le 8 s.net.startAt) ++ (List.range 17).flatMap (macBlock s)

/-- An energy interval record (Table 11.9). -/
def intervalBytes (i : Interval) : List Byte :=
  le 8 i.seq ++ le 8 i.start ++ le 8 i.end_ ++ le 2 i.flags ++ le 1 i.ps0 ++ le 1 i.ps1 ++ le 4 i.device ++ le 4 i.byTokens
    ++ le 4 i.measured ++ le 4 i.peak ++ le 4 i.throttle ++ le 4 i.thaw ++ le 4 i.eUse ++ le 4 i.admission ++ le 4 0

/-- Log 0xD3. -/
def energyLog (s : State) : List Byte :=
  padTo 32 (le 4 s.power.ring.length ++ le 4 64 ++ le 8 (maxL (s.power.ring.map (·.seq)))) ++ s.power.ring.flatMap intervalBytes

/-! ### Discovery (R100) -/

/-- The subsystem NQN of the pair. -/
def hexDigit (n : Nat) : Char := if n < 10 then Char.ofNat (48 + n) else Char.ofNat (55 + n)
def hex16 (v : Nat) : String := String.ofList ((List.range 16).map (fun i => hexDigit (v / 16 ^ (15 - i) % 16)))
def strBytes (t : String) : List Byte := t.toList.map (fun c => BitVec.ofNat 8 c.toNat)
def pairNqn (s : State) : String :=
  "nqn.2019-04.com.esiosum:virrik:pair:" ++ hex16 (match s.cfg with | some c => c.pair | none => 0)

/-- One entry for each transport and address family configured: transport type 1 RDMA, 3 TCP; family 1 IPv4, 2 IPv6. The address and
the port stand in it in binary, the address in network order (PRESUMED, log 27). -/
def discoveryLog (s : State) : List Byte :=
  match netOf s with
  | some n =>
    let ts := (if n.tcp then [3] else []) ++ (if n.rdma then [1] else [])
    let fs := (if n.v6 then [2] else []) ++ (if n.v4 then [1] else [])
    let es := ts.flatMap (fun t => fs.map (fun f => (t, f)))
    place 1024 [(8, le 8 es.length)]
      ++ es.flatMap (fun e => place 1024 [(0, le 1 e.1), (1, le 1 e.2), (2, le 1 2), (6, le 2 0xFFFF), (8, le 2 64), (32, le 2 n.port),
        (256, strBytes (pairNqn s)), (512, if e.2 = 1 then be 4 n.svc4 else be 16 n.svc6)])
  | none => place 1024 []

/-! ### Get Log Page -/

/-- Content of a log page at an offset, none for an identifier the device does not honour (R147, R661). -/
def logPage (s : State) (c : Ctrl) (lid off len : Nat) : Option (List Byte) :=
  if c.disc then (if lid = 0x70 then some (slice off len (discoveryLog s)) else none)
  else match lid with
  | 0x01 => some (slice off len (errorLog c))
  | 0x02 => some (slice off len (smartLog s))
  | 0x03 => some (slice off len (slotLog s))
  | 0x04 => some (slice off len (changedLog c))
  | 0x05 => some (slice off len effectsLog)
  | 0xC0 => some (moraineRead s off len)
  | 0xC1 => some (slice off len (firstLog s))
  | 0xC2 => some (slice off len (moraineStatus s))
  | 0xD0 => some (slice off len (identityLog s))
  | 0xD1 => some (slice off len (serviceLog s))
  | 0xD2 => some (slice off len (networkLog s))
  | 0xD3 => some (slice off len (energyLog s))
  | n => if 0xC3 ≤ n ∧ n ≤ 0xCF then some (List.replicate len 0#8) else none

/-- The event kind whose report a read of a log page allows again (R150). -/
def kindOfLog (lid : Nat) : Option Nat :=
  match lid with | 0x02 => some 0 | 0x04 => some 1 | 0xC0 => some 2 | 0xD1 => some 3 | _ => none

/-! ### Identify (R104) -/

/-- A field of ASCII padded with spaces. -/
def ascii (n : Nat) (t : String) : List Byte := (strBytes t ++ List.replicate n 0x20#8).take n

/-- A power state descriptor: maximum power in 0.01 W, entry and exit latency in µs (Table 3.6). -/
def psd (mp : Nat) : List Byte := place 32 [(0, le 2 mp), (4, le 4 1000), (8, le 4 1000)]

/-- Identify Controller: serial number, model, firmware revision, MDTS 0, RTD3 entry latency (R596), 4 outstanding
asynchronous event requests, 4 power states, 1 024 namespaces. -/
def identifyController (s : State) (c : Ctrl) : List Byte :=
  place 4096
    [(4, ascii 20 (hex16 (match s.cfg with | some c => c.pair | none => 0))), (24, ascii 40 "Esiosum Virrik VK8"),
     (64, match s.boot.runs with | some p => le 8 p.revision | none => ascii 8 ""), (77, le 1 0), (78, le 2 c.id), (88, le 4 15000000),
     (259, le 1 3), (263, le 1 3), (516, le 4 1024), (768, padTo 256 (strBytes (pairNqn s))),
     (2048, psd 16500 ++ psd 15000 ++ psd 13500 ++ psd 11500)]

/-- Key Value specific namespace structure: keys of 16 bytes, values of 0xFFFF_FFFF bytes, number of keys not reported. -/
def identifyKv : List Byte := place 4096 [(72, le 2 16), (76, le 4 0xFFFFFFFF), (80, le 4 0)]

/-- Namespaces a controller sees: those whose host list names its host (R99). NVMe-MI, controller 0, which is of no host, reads every
one (log 29). -/
def seenNs (s : State) (c : Ctrl) : List Nat :=
  match s.cfg with
  | some cf => (cf.nss.filter (fun n => c.id == 0 || n.hosts.contains c.nqn)).map (·.id)
  | none => []

/-- An Identify structure by CNS value; an error is a status. -/
def identifyData (s : State) (c : Ctrl) (cns nsid csi : Nat) : Except Status (List Byte) :=
  let has := (seenNs s c).contains nsid
  match cns with
  | 0x00 => if has then .ok (place 4096 []) else .error stInvalidNs
  | 0x01 => .ok (identifyController s c)
  | 0x02 => .ok (padTo 4096 (((seenNs s c).filter (fun n => decide (nsid < n))).flatMap (le 4)))
  | 0x03 => if has then .ok (place 4096 [(0, le 1 4 ++ le 1 1 ++ le 2 0 ++ le 1 1)]) else .error stInvalidNs
  | 0x05 => if csi ≠ 1 then .error stInvalidField else if has then .ok identifyKv else .error stInvalidNs
  | 0x06 => if csi ≠ 1 then .error stInvalidField else .ok (place 4096 [(0, le 8 2)])
  | 0x07 => if csi ≠ 1 then .error stInvalidField else .ok (padTo 4096 (((seenNs s c).filter (fun n => decide (nsid < n))).flatMap (le 4)))
  | _ => .error stInvalidField

end Sys2Proof.Machine
end

