-- ==== Sys2Proof/Machine/ConnFamily.lean ====
section
/-! DEFINITION. Connections, controllers and their ends (R94 to R102, R143; Tables 3.1, 3.2 and 3.4). -/

namespace Sys2Proof.Machine

/-! ### Setting up (R95, R98, R101, R102) -/

/-- TCP connections take indexes 0 to 16 383, RoCEv2 queue pairs 16 384 to 24 575 (Table 10.7); those of the management port, which the
twins do not share (R97), indexes from 32 768 on. -/
def freeConn (s : State) (rdma mgmt : Bool) : Nat :=
  leastFree (s.host.conns.map (·.idx)) (if mgmt then 32768 else if rdma then 16384 else 0) (s.host.conns.length + 1)

/-- A fresh connection. -/
def openConn (rdma mgmt disc : Bool) (mac : Nat) (v6 : Bool) (mss : Nat) (s : State) : State :=
  let idx := freeConn s rdma mgmt
  let c : Conn :=
    { idx := idx, rdma := rdma, mgmt := mgmt, disc := disc, cntl := 0, qid := 0, qsize := 0, inited := rdma, hdgst := false, ddgst := false,
      align := 0, carrier := none, sndAck := 0, sndNxt := 0, rcvNxt := 0, wnd := 0, mac := mac, v6 := v6, mss := mss }
  emit (.connAccept idx) (mirrorConn idx { s with host := { s.host with conns := s.host.conns ++ [c] } })

/-- The device answers on its management port: its cores run. -/
def mgmtUp (s : State) : Bool := takesFrames s

/-- New connections are refused in a shutdown (Table 15.6). -/
def refusing (s : State) : Bool := inShutdown s

/-- TCP_CONNECTION_ATTEMPT with the host's address family and maximum segment size (R94, R95, R97, R101, Table 9.8). A configured device's management port listens on the NVMe/TCP port of its Network
record (DESIGN CHOICE, log 136); an unconfigured one's on 4420 (R552). -/
def execTcpConnectionAttempt (mgmt : Bool) (port : Nat) (peer : TcpPeer) (s : State) : Result :=
  let n := netOf s
  let listens : Bool :=
    if mgmt then mgmtUp s && decide (port = match n with | some x => x.port | none => 4420)
    else serves s && isUp s peer.mac && match n with | some x => x.tcp && (decide (port = x.port) || decide (port = 8009)) | none => false
  onlyIf listens (fun s =>
    if refusing s ∨ (! mgmt ∧ 16384 ≤ (s.host.conns.filter (fun c => ! c.rdma && ! c.mgmt)).length) then emit (.connReset noConn) s
    else openConn false mgmt (! mgmt && decide (port = 8009)) peer.mac peer.v6 peer.mss s) s

/-- UDP port of RDMA connection management (R95). -/
def cmPort : Nat := 4791

/-- ROCE_CONNECTION_REQUEST at a UDP port for a service port, with the path MTU it asks for (R95, R101, Table 9.8). -/
def execRoceConnectionRequest (r : CmRequest) (s : State) : Result :=
  onlyIf (serves s && isUp s r.mac && decide (r.udp = cmPort) && match netOf s with | some n => n.rdma && decide (r.port = n.port) | none => false) (fun s =>
    if refusing s ∨ 8192 ≤ (s.host.conns.filter (·.rdma)).length then emit (.connReject false) s
    else openConn true false false r.mac r.v6 (min r.mtu 4096) s) s

/-- A TCP connection before its initialize-connection exchange. -/
def fresh (s : State) (conn : Nat) : Bool :=
  takesFrames s && match connBy s conn with | some c => ! c.rdma && ! c.inited | none => false

/-- TLS_HANDSHAKE (R98, Table 3.4): the connection is reset before any PDU. -/
def execTlsHandshake (conn : Nat) (s : State) : Result :=
  onlyIf (fresh s conn) (fun s => emit (.connReset conn) (dropConn conn s)) s

/-- INITIALIZE_CONNECTION (R102, Table 3.4): digests and alignment as asked; options beyond Table 3.2 end the connection. -/
def execInitializeConnection (conn : Nat) (hdgst ddgst : Bool) (align : Nat) (other : Bool) (s : State) : Result :=
  onlyIf (fresh s conn) (fun s =>
    if other then dropConn conn (emit (.c2hTerm conn 5) s)
    else
      emit (.icResp conn 0 hdgst ddgst 0 262144)
        (mirrorConn conn (onConn conn (fun c => { c with inited := true, hdgst := hdgst, ddgst := ddgst, align := align }) s))) s

/-! ### Connect and Disconnect (R97, R99, R101) -/

/-- I/O queue pairs of the pair. -/
def ioQueues (s : State) : Nat := (s.host.conns.filter (fun c => decide (c.cntl ≠ 0) && decide (c.qid ≠ 0))).length

/-- Why an admin-queue Connect fails, if it does: parameters out of range, controller limits, unknown host (R99). A device that runs
without a configuration has no host list and asks for none, so that it can be reached (R97, R552; log 29). -/
def adminConnectFail (s : State) (c : Conn) (nqn : String) (subnqnOk : Bool) (cntl qsize kato : Nat) : Option Status :=
  let limit := if c.mgmt then decide (16 ≤ (s.host.ctrls.filter (·.mgmt)).length)
    else decide (1024 ≤ (s.host.ctrls.filter (fun x => ! x.mgmt)).length)
  let known : Bool := match s.cfg with | some g => g.nss.any (fun n => n.hosts.contains nqn) | none => c.mgmt
  firstFail
    [(! subnqnOk || cntl != 0xFFFF || decide (qsize < 2) || decide (64 < qsize) || (kato != 0 && (decide (kato < 1000) || decide (600000 < kato)))
        || limit, stConnectParam),
     (! known, stConnectHost)]

/-- Why an I/O-queue Connect fails, if it does. -/
def ioConnectFail (s : State) (c : Conn) (nqn : String) (subnqnOk : Bool) (cntl qid qsize : Nat) : Option Status :=
  match s.host.ctrls.find? (fun x => x.id == cntl) with
  | none => some stConnectParam
  | some x =>
    firstFail
      [(! subnqnOk || c.mgmt || c.disc || x.mgmt || x.disc || x.nqn != nqn || decide (x.queues < qid) || decide (qsize < 2) || decide (1024 < qsize)
          || decide (4096 ≤ ioQueues s) || s.host.conns.any (fun y => y.cntl == cntl && y.qid == qid), stConnectParam)]

/-- A controller number that is free: from 1, and from 1 025 at the management port, beyond the pair's 1 024 (Table 3.1). -/
def freeCtrl (s : State) (mgmt : Bool) : Nat := leastFree (s.host.ctrls.map (·.id)) (if mgmt then 1025 else 1) (s.host.ctrls.length + 1)

/-- Namespaces whose visibility to a host changed at the last start (Table 3.22). -/
def changedNs (s : State) (nqn : String) : List Nat :=
  let now : List (Nat × List String) := match s.cfg with | some g => g.nss.map (fun n => (n.id, n.hosts)) | none => []
  let sees (l : List (Nat × List String)) (id : Nat) : Bool := l.any (fun p => p.1 == id && p.2.contains nqn)
  ((now ++ s.host.lastNs).foldl (fun l p => sIns p.1 l) []).filter (fun id => sees now id != sees s.host.lastNs id)

/-- CONNECT (R99, R101): a controller with its admin queue, or an I/O queue; Dword 0 of its completion is the controller. -/
def execConnect (a : Adm) (nqn : String) (subnqnOk : Bool) (cntl qid qsize kato : Nat) (s : State) : Result :=
  match connBy s a.conn with
  | none => .next s
  | some c =>
    onlyIf (takesFrames s && c.inited && decide (c.cntl = 0) && (c.mgmt || serves s)) (fun s =>
      if qid = 0 then
        match adminConnectFail s c nqn subnqnOk cntl qsize kato with
        | some st => done a st s
        | none =>
          let id := freeCtrl s c.mgmt
          let x : Ctrl :=
            { id := id, mgmt := c.mgmt, disc := c.disc, nqn := nqn, kato := kato, seenAt := s.now, queues := 64, aec := 0, aers := [],
              masked := [], waiting := [], sat := 30000, cc := 0, shst := 0, props := [], errors := [], errCount := 0,
              changed := changedNs s nqn }
          complete a.conn a.cid 0 stOk id 0 []
            (mirrorConn a.conn (onConn a.conn (fun y => { y with cntl := id, qid := 0, qsize := qsize })
              { s with host := { s.host with ctrls := s.host.ctrls ++ [x] } }))
      else
        match ioConnectFail s c nqn subnqnOk cntl qid qsize with
        | some st => done a st s
        | none =>
          complete a.conn a.cid 0 stOk cntl 0 []
            (mirrorConn a.conn (onConn a.conn (fun y => { y with cntl := cntl, qid := qid, qsize := qsize }) s))) s

/-- A connected queue on which a fabrics or admin command arrives: of the management port, or while the pair serves. -/
def connected (s : State) (a : Adm) : Bool :=
  takesFrames s && match connBy s a.conn with
  | some c => decide (c.cntl ≠ 0) && (c.mgmt || serves s)
  | none => false

/-- Commands of a queue that ends complete with SQ Deletion; changing ones run on without a further completion (R143,
Table 3.19). -/
def endQueue (idx : Nat) (s : State) : State :=
  let rs := s.ice.readsE.filter (fun r => r.conn == idx)
  let gs := s.ice.gathers.filter (fun g => g.conn == idx)
  let es := s.ice.stores.filter (fun e => e.conn == idx && ! e.posted)
  let a := rs.foldl (fun t r => complete idx r.cid r.ns stSqDeleted 0 0 [] t) s
  let b := gs.foldl (fun t g => complete idx g.cid g.ns stSqDeleted 0 0 [] t) a
  orphanCommands idx (es.foldl (fun t e => complete idx e.cid e.ns stSqDeleted 0 0 [] t) b)

/-- DISCONNECT: an I/O queue ends, or with the admin queue the association. -/
def execDisconnect (a : Adm) (s : State) : Result :=
  onlyIf (connected s a) (fun s =>
    match connBy s a.conn with
    | some c =>
      if c.qid = 0 then
        let qs := (s.host.conns.filter (fun x => x.cntl == c.cntl && x.qid != 0)).map (·.idx)
        endAssociation c.cntl (done a stOk (qs.foldl (fun t q => endQueue q t) s))
      else dropConn a.conn (done a stOk (endQueue a.conn s))
    | none => s) s

/-- AUTHENTICATION_SEND fails (R98, Table 3.4). -/
def execAuthenticationSend (a : Adm) (s : State) : Result := onlyIf (connected s a) (done a stInvalidField) s

/-- AUTHENTICATION_RECEIVE fails (R98, Table 3.4). -/
def execAuthenticationReceive (a : Adm) (s : State) : Result := onlyIf (connected s a) (done a stInvalidField) s

/-- A Key Carrier that waits on a queue for its second command fails: the entry after it is none (R123). -/
def breakCarrier (conn : Nat) (s : State) : State :=
  match (connBy s conn).bind (·.carrier) with
  | some (cid, ns, _, _) => complete conn cid ns stMissingFused 0 0 [] (onConn conn (fun c => { c with carrier := none }) s)
  | none => s

/-- UNSUPPORTED_OPCODE (R98, R104, R109, R120). -/
def execUnsupportedOpcode (a : Adm) (opcode : Nat) (s : State) : Result :=
  let honoured : Bool := match connBy s a.conn with
    | some c => if c.qid = 0 then adminOpcodes.contains opcode else ioOpcodes.contains opcode || opcode == 0x7F
    | none => true
  onlyIf (connected s a && ! honoured) (fun s => done a stInvalidOpcode (breakCarrier a.conn s)) s

/-- KEEP_ALIVE_TIMEOUT (R101): a controller without a command for its timeout loses its association. -/
def execKeepAliveTimeout (cntl : Nat) (s : State) : Result :=
  match s.host.ctrls.find? (fun c => c.id == cntl) with
  | some c => onlyIf (running s && decide (c.kato ≠ 0) && decide (c.seenAt + 1000000 * c.kato ≤ s.now)) (endAssociation cntl) s
  | none => .next s

end Sys2Proof.Machine
end

