-- ==== Sys2Proof/Machine/HostFamily.lean ====
section
/-! DEFINITION. I/O commands of the host and what happens to them (Tables 3.8 and 3.10, R91, R102, R106, R110 to R143). -/

namespace Sys2Proof.Machine

/-! ### Beginning a command -/

/-- The effective policy of a changing command with its level as it must be reached now (R65, R84). -/
def storePolicy (c : Cmd) (s : State) : Option Policy := c.pol.map (fun p => { p with ack := raisedAck s p.ack })

/-- A changing command begins to wait for Cornice space (R65, R71, R84, R91). -/
def startStore (c : Cmd) (tomb : Bool) (opts : StoreOpts) (valueLen : Nat) (data : List Byte) (s : State) : State :=
  match storePolicy c s, ctrlOf s c.q.conn with
  | some pol, some x =>
    beginStore c.q.conn c.q.cid c.q.nsid c.key tomb pol opts valueLen (if data.length = valueLen then data else []) x.sat s
  | _, _ => s

/-- A command that reads through the coordinator (R72, R329), or SHED. -/
def startRead_ (c : Cmd) (kind off len buf expected : Nat) (s : State) : State :=
  beginRead
    { id := 0, conn := c.q.conn, cid := c.q.cid, kind := kind, ns := c.q.nsid, key := c.key, off := off, len := len, buf := buf, handle := c.q.handle,
      filter := c.filter, opts := c.q.opts, expected := expected, coord := 0, tries := 0, stage := 0, at_ := s.now, recs := [], want := [], got := [],
      tried := [], asked := [], replies := [] } s

/-- A listing command gathers from every alive pair (R119, R357). -/
def startList (c : Cmd) (pattern : Bool) (source cursor : List Byte) (startKey : Key) (s : State) : State :=
  beginGather
    { id := 0, conn := c.q.conn, cid := c.q.cid, ns := c.q.nsid, pattern := pattern, source := source, cursor := cursor, startKey := startKey,
      buf := c.q.dw10, asked := [], more := [], entries := [] } s

/-- Conditions of a command's option bits (Tables 3.8 and 3.10). -/
def optsOf (q : Sqe) : StoreOpts :=
  { ifExists := q.opts.testBit 0, ifAbsent := q.opts.testBit 1, ifVersion := q.opts.testBit 2, expected := if q.opts.testBit 2 then q.version else 0 }

/-- Option bits set, of bits 0 to 2. -/
def optCount (q : Sqe) : Nat := bit (q.opts.testBit 0) 0 + bit (q.opts.testBit 1) 0 + bit (q.opts.testBit 2) 0

/-- Placement for the effective policy of a changing command (R112). -/
def placeFail (c : Cmd) (tomb : Bool) (valueLen : Nat) (s : State) : List (Bool × Status) :=
  match storePolicy c s with
  | some pol => [(! placementOk s pol (tomb || decide (valueLen ≤ 4096 * pol.thr)) (homeBin s c.q.nsid c.key), stPlacement)]
  | none => []

/-- Failing rows of a changing command; `r1` and `r5` are its own rows 1 and 5. -/
def changing (vendor tomb : Bool) (valueLen : Nat) (r1 r5 : List (Bool × Status)) (c : Cmd) (s : State) : List (Bool × Status) :=
  row1 c.q s ++ r1 ++ rows24 c.q c.fused s ++ row5 c.q vendor ++ r5 ++ row5Key c.q c.key s ++ rows67 c.q s ++ row9 s ++ placeFail c tomb valueLen s

/-- Failing rows of a reading command. -/
def reading (vendor : Bool) (r5 : List (Bool × Status)) (c : Cmd) (s : State) : List (Bool × Status) :=
  row1 c.q s ++ rows24 c.q c.fused s ++ row5 c.q vendor ++ r5 ++ row5Key c.q c.key s ++ row8 c.q c.key s ++ row9 s

/-! ### Key Value commands (Table 3.8) -/

/-- FLUSH (R114): success at once. -/
def ruleFlush : CmdRule :=
  { opc := 0x00, fails := fun c s => row1 c.q s ++ rows24 c.q c.fused s ++ row5 c.q false, begin_ := fun c s => answer c.q stOk 0 0 s }

/-- STORE (R71, R114, R115): Dword 10 is the value size; option bit 0 overwrite only, bit 1 no overwrite. `data` came in its capsule. -/
def ruleStore (data : List Byte) : CmdRule :=
  { opc := 0x01
    fails := fun c => changing false false c.q.dw10 []
      [(decide (4 ≤ c.q.opts) || decide (2 ≤ optCount c.q), stInvalidField), (c.q.sgl != c.q.dw10, stValueSize)] c
    begin_ := fun c => startStore c false (optsOf c.q) c.q.dw10 data }

/-- RETRIEVE (R116, R329). -/
def ruleRetrieve : CmdRule :=
  { opc := 0x02, fails := fun c => reading false [(c.q.opts != 0, stInvalidField)] c, begin_ := fun c => startRead_ c 0 0 0 c.q.dw10 0 }

/-- LIST (R118). -/
def ruleList : CmdRule :=
  { opc := 0x06
    fails := fun c s => row1 c.q s ++ rows24 c.q c.fused s ++ row5 c.q false ++ [(decide (c.q.dw10 < 4), stInvalidField)] ++ row5Key c.q c.key s ++ row9 s
    begin_ := fun c => startList c false [] zeroCursor c.key }

/-- DELETE (R78): a tombstone, created only where the key exists. -/
def ruleDelete : CmdRule :=
  { opc := 0x10
    fails := fun c => changing false true 0 [] [(c.q.opts != 0, stInvalidField)] c
    begin_ := fun c => startStore c true { ifExists := false, ifAbsent := false, ifVersion := false, expected := 0 } 0 [] }

/-- EXIST (R114). -/
def ruleExist : CmdRule :=
  { opc := 0x14, fails := fun c => reading false [(c.q.opts != 0, stInvalidField)] c, begin_ := fun c => startRead_ c 1 0 0 0 0 }

/-! ### Vendor commands (Table 3.10) -/

/-- Row 5 of a vendor command's option bits: only those of `mask` may be set, at most one of them, and only-if-version needs
an expected version (R120, R121). -/
def optFail (q : Sqe) (mask : Nat) : List (Bool × Status) :=
  [(q.opts &&& mask != q.opts || decide (2 ≤ optCount q) || (q.opts.testBit 2 && q.version == 0), stInvalidField)]

/-- LONG_STORE (R121, R122). -/
def ruleLongStore (data : List Byte) : CmdRule :=
  { opc := 0x81
    fails := fun c => changing true false c.q.dw10 [(c.q.sgl != c.q.dw10, stSglLength)] (optFail c.q 7) c
    begin_ := fun c => startStore c false (optsOf c.q) c.q.dw10 data }

/-- LONG_RETRIEVE (R125). -/
def ruleLongRetrieve : CmdRule :=
  { opc := 0x82
    fails := fun c => reading true [(c.q.opts != 0 || decide (c.q.dw10 < 16), stInvalidField)] c
    begin_ := fun c => startRead_ c 2 c.q.dw12 c.q.dw13 c.q.dw10 0 }

/-- LONG_DELETE (R121, R122, R129). -/
def ruleLongDelete : CmdRule :=
  { opc := 0x84, fails := fun c => changing true true 0 [] (optFail c.q 4) c, begin_ := fun c => startStore c true (optsOf c.q) 0 [] }

/-- LONG_EXIST (R129). -/
def ruleLongExist : CmdRule :=
  { opc := 0x88, fails := fun c => reading true [(c.q.opts != 0, stInvalidField)] c, begin_ := fun c => startRead_ c 3 0 0 0 0 }

/-- A handle names a filter: 0, or one that stood when the command was accepted (R127, R131, R133); `image` is whether a type 1 filter
serves (R132). -/
def handleOk (c : Cmd) (image : Bool) : Bool :=
  c.q.handle == 0 || match c.filter with | some a => image || ! a.precompiled | none => false

/-- FILTERED_RETRIEVE (R126). Only a command that may return the value needs room for the object header. -/
def ruleFilteredRetrieve : CmdRule :=
  { opc := 0x86
    fails := fun c => reading true [(decide (2 ≤ c.q.opts) || (c.q.opts.testBit 0 && decide (c.q.dw10 < 16)), stInvalidField),
      (! handleOk c true, stBadHandle)] c
    begin_ := fun c => startRead_ c 4 c.q.dw12 c.q.dw13 c.q.dw10 0 }

/-- A cursor is acceptable: all zeros, or with a count in its group (R127, R194). -/
def cursorOk (c : List Byte) : Bool := c == zeroCursor || cursorCount c != 0

/-- PATTERN_LIST (R127, R132): handle 0 lists every key; it takes no key, so a key length is an invalid field, and it never ends a fused
pair. -/
def rulePatternList : CmdRule :=
  { opc := 0x8A
    fails := fun c s => row1 c.q s ++ rows24 c.q (if c.q.fuse = 2 then some stMissingFused else c.fused) s ++ row5 c.q true
      ++ [(c.q.opts != 0 || c.q.keyLen != 0 || decide (c.q.dw10 < 4096) || ! cursorOk c.q.keyField, stInvalidField), (! handleOk c false, stBadHandle)]
      ++ row9 s
    begin_ := fun c => startList c true (match c.filter with | some a => a.source | none => []) c.q.keyField [] }

/-- KEY_CARRIER (R123, R124): the key block waits for the second command of its pair. DESIGN CHOICE: one that another row of Table 3.7
ends leaves no key, and the command after it stands alone (log 135). -/
def ruleKeyCarrier (block : List Byte) : CmdRule :=
  { opc := 0x8D
    fails := fun c s => row1 c.q s ++ rows24 c.q (if c.q.fuse = 2 then some stMissingFused else c.fused) s
      ++ [(! fixedFields c.q || c.q.opts != 0 || c.q.fuse != 1 || c.q.dw10 != 264, stInvalidField)]
    begin_ := fun c s =>
      let b := blockKey block
      onConn c.q.conn (fun x => { x with carrier := some (c.q.cid, c.q.nsid, b.1, b.2 && keySizeOk s c.q.nsid b.1) }) s }

/-- DURABILITY_QUERY (R128). -/
def ruleDurabilityQuery : CmdRule :=
  { opc := 0x8E
    fails := fun c => reading true [(c.q.opts != 0 || c.q.dw10 != 32, stInvalidField)] c
    begin_ := fun c => startRead_ c 5 0 0 32 c.q.version }

/-- SHED (R134 to R136): Dword 10 is the offset, Dword 12 the length. -/
def ruleShed : CmdRule :=
  { opc := 0x90
    fails := fun c s => row1 c.q s ++ rows24 c.q c.fused s ++ row5 c.q true ++ [(c.q.opts &&& 4 != c.q.opts, stInvalidField)] ++ row5Key c.q c.key s
      ++ rows67 c.q s ++ row9 s ++ placeFail c true 0 s
    begin_ := fun c => startRead_ c 7 c.q.dw10 c.q.dw12 0 (if c.q.opts.testBit 2 then c.q.shedVersion else 0) }

def execFlush (q : Sqe) (s : State) : Result := io q (ioCommand ruleFlush q false false) s
def execStore (q : Sqe) (valueLen : Nat) (data : List Byte) (s : State) : Result :=
  io (q.withDw 10 valueLen) (ioCommand (ruleStore data) (q.withDw 10 valueLen) false false) s
def execRetrieve (q : Sqe) (s : State) : Result := io q (ioCommand ruleRetrieve q false true) s
def execList (q : Sqe) (s : State) : Result := io q (ioCommand ruleList q false false) s
def execDelete (q : Sqe) (s : State) : Result := io q (ioCommand ruleDelete q false false) s
def execExist (q : Sqe) (s : State) : Result := io q (ioCommand ruleExist q false true) s
def execLongStore (q : Sqe) (valueLen : Nat) (data : List Byte) (s : State) : Result :=
  io (q.withDw 10 valueLen) (ioCommand (ruleLongStore data) (q.withDw 10 valueLen) true false) s
def execLongRetrieve (q : Sqe) (s : State) : Result := io q (ioCommand ruleLongRetrieve q true true) s
def execLongDelete (q : Sqe) (s : State) : Result := io q (ioCommand ruleLongDelete q true false) s
def execLongExist (q : Sqe) (s : State) : Result := io q (ioCommand ruleLongExist q true true) s
def execFilteredRetrieve (q : Sqe) (s : State) : Result := io q (ioCommand ruleFilteredRetrieve q true true) s
def execPatternList (q : Sqe) (cursor : List Byte) (s : State) : Result :=
  io (q.withKeyField cursor) (ioCommand rulePatternList (q.withKeyField cursor) false false) s
def execKeyCarrier (k : Carrier) (s : State) : Result := io k.q (ioCommand (ruleKeyCarrier k.block) k.q false false) s
def execDurabilityQuery (q : Sqe) (s : State) : Result := io q (ioCommand ruleDurabilityQuery q true true) s
def execShed (q : Sqe) (off len : Nat) (s : State) : Result :=
  io ((q.withDw 10 off).withDw 12 len) (ioCommand ruleShed ((q.withDw 10 off).withDw 12 len) true false) s

/-- The rule of an I/O opcode; `key` is the key of a mirrored Key Carrier, whose block it stands for. -/
def ruleOf (opc : Nat) (key : Key) : Option CmdRule :=
  match opc with
  | 0x00 => some ruleFlush
  | 0x01 => some (ruleStore [])
  | 0x02 => some ruleRetrieve
  | 0x06 => some ruleList
  | 0x10 => some ruleDelete
  | 0x14 => some ruleExist
  | 0x81 => some (ruleLongStore [])
  | 0x82 => some ruleLongRetrieve
  | 0x84 => some ruleLongDelete
  | 0x86 => some ruleFilteredRetrieve
  | 0x88 => some ruleLongExist
  | 0x8A => some rulePatternList
  | 0x8D => some (ruleKeyCarrier (le 1 key.length ++ le 7 0 ++ padTo 256 key))
  | 0x8E => some ruleDurabilityQuery
  | 0x90 => some ruleShed
  | _ => none

/-- A capsule that was taken runs, with the key and the filter it was taken with (R133, R230, R435). -/
def runCap (s : State) (x : Cap) : State :=
  match ruleOf x.opc x.key with
  | some r => runIo r { q := x.q, key := x.key, fused := none, pol := none, filter := x.filter } s
  | none => answer x.q stInvalidOpcode 0 0 s

/-! ### Admission and payload (R91, R102, R106) -/

/-- CORNICE_ADMISSION_GRANT (R91). -/
def execCorniceAdmissionGrant (s : State) : Result :=
  onlyIf (serves s) (fun s => settle (grantWaiting (grantRounds s) s)) s

/-- A Store by its host command. -/
def storeOf (s : State) (conn cid : Nat) : Option EStore := s.ice.stores.find? (fun e => e.conn == conn && e.cid == cid && ! e.posted)

/-- ADMISSION_TIMEOUT (R106). -/
def execAdmissionTimeout (conn cid : Nat) (s : State) : Result :=
  onlyIf (takesFrames s && holdsPair s && match storeOf s conn cid with
      | some e => wantsSpace e && decide (e.at_ + 1000000 * e.timeout ≤ s.now)
      | none => false) (fun s =>
    match storeOf s conn cid with
    | some e => settle (failStore e stAdmissionTimeout 0 (abortAt e (sentTo e) e.version 0xFFFF s))
    | none => s) s

/-- HOST_TO_CONTROLLER_DATA (R83, R102, R103): the next payload bytes of a granted chunk; a digest error fails the command. -/
def execHostToControllerData (conn cid off : Nat) (bytes : List Byte) (digestOk : Bool) (s : State) : Result :=
  onlyIf (serves s && match storeOf s conn cid with
      | some e => decide (off = e.got) && ! bytes.isEmpty && decide (bytes.length ≤ 262144) &&
          decide (e.got + bytes.length ≤ sumL (e.chunks.map (·.len)))
      | none => false) (fun s =>
    match storeOf s conn cid with
    | some e => settle (if digestOk then takePayload e bytes s
        else failStore e stTransferError 0 (abortAt e (sentTo e) e.version 0xFFFF s))
    | none => s) s

/-! ### Abort and lost connections (R142, R143) -/

/-- ABORT (R142): Dword 0 bit 0 of its completion is set when the command was not aborted. A SHED can be aborted while no coordinator has
taken its request; a command whose search waits has not begun. -/
def abortCommand (a : Adm) (sqid cid : Nat) (s : State) : State :=
  let target : Option Conn := match connBy s a.conn with
    | some c => s.host.conns.find? (fun x => x.cntl == c.cntl && x.qid == sqid)
    | none => none
  let not_ (t : State) : State := complete a.conn a.cid 0 stOk 1 0 [] t
  let yes (t : State) : State := complete a.conn a.cid 0 stOk 0 0 [] t
  match target with
  | none => not_ s
  | some c =>
    if s.ward.waits.any (fun w => w.q.conn == c.idx && w.q.cid == cid) then
      yes (complete c.idx cid 0 stAborted 0 0 [] { s with ward := { s.ward with waits := s.ward.waits.filter (fun w => ! (w.q.conn == c.idx && w.q.cid == cid)) } })
    else match s.ice.readsE.find? (fun r => r.conn == c.idx && r.cid == cid && (r.kind != 7 || r.recs.isEmpty)),
          s.ice.gathers.find? (fun g => g.conn == c.idx && g.cid == cid), storeOf s c.idx cid with
    | some r, _, _ => yes (complete c.idx cid r.ns stAborted 0 0 [] (dropReadE r.id s))
    | none, some g, _ => yes (complete c.idx cid g.ns stAborted 0 0 [] { s with ice := { s.ice with gathers := s.ice.gathers.filter (fun x => x.id != g.id) } })
    | none, none, some e => if e.chunks.all (fun x => x.poss.isEmpty) then yes (failStore e stAborted 0 s) else not_ s
    | none, none, none => not_ s

/-- CONNECTION_LOST (R143). -/
def execConnectionLost (conn : Nat) (s : State) : Result :=
  onlyIf (running s && (connBy s conn).isSome) (fun s => settle (loseConn conn s)) s

end Sys2Proof.Machine
end

