-- ==== Sys2Proof/Machine/AdminFamily.lean ====
section
/-! DEFINITION. Admin commands, features, filters and NVMe-MI (Tables 3.3, 3.5, 3.15 to 3.17, R104 to R108, R130 to R133,
R142, R147 to R151, R509). -/

namespace Sys2Proof.Machine

/-- An admin command arrives on a connected admin queue (R104). -/
def admAccepts (a : Adm) (s : State) : Bool :=
  connected s a && match connBy s a.conn with | some c => decide (c.qid = 0) | none => false

/-- An admin submission queue entry: opcode, command, namespace, dwords 10 to 15 (Table 3.3). -/
def admSqe (a : Adm) (opc nsid : Nat) (dws : List Nat) : Sqe :=
  { conn := a.conn, dws := [opc + 2 ^ 16 * a.cid, nsid, 0, 0, 0, 0, 0, 0, 0, 0] ++ (dws ++ List.replicate 6 0).take 6, transportOk := true }

/-- Taking an admin capsule: a sign of life of its controller, mirrored whole where it came to a service address (Tables 10.6 and 10.7). -/
def takeAdmin (a : Adm) (opc nsid : Nat) (dws : List Nat) (data : List Byte) (s : State) : State :=
  let t := onCtrl a.conn (fun c => { c with seenAt := s.now }) s
  match connBy s a.conn with
  | some c => if c.mgmt then t else
      mirror (.transport [.select a.conn, .capsule { opc := opc, q := admSqe a opc nsid dws, key := [], filter := none, data := data }]) t
  | none => t

/-- An admin command's meaning; what it left its controller is mirrored with its connection (R96). -/
def adm (a : Adm) (opc nsid : Nat) (dws : List Nat) (f : State → State) (s : State) : Result :=
  onlyIf (admAccepts a s) (fun s => mirrorConn a.conn (f (takeAdmin a opc nsid dws [] s))) s

/-- Complete an admin command with data. -/
def reply (a : Adm) (bytes : List Byte) (s : State) : State := complete a.conn a.cid 0 stOk 0 0 bytes s

/-! ### Log pages and Identify -/

/-- GET_LOG_PAGE (R147, R150): `off` and `len` in bytes; `rae` retains the event of the page. -/
def execGetLogPage (a : Adm) (lid off len : Nat) (rae : Bool) (lsp lsi : Nat) (s : State) : Result :=
  let numd := len / 4 - 1
  adm a 0x02 0 [lid + 2 ^ 8 * lsp + bit rae 15 + 2 ^ 16 * (numd % 65536), numd / 65536 + 2 ^ 16 * lsi, off % 2 ^ 32, off / 2 ^ 32] (fun s =>
    match ctrlOf s a.conn with
    | none => s
    | some c =>
      match logPage s c lid off len with
      | none => done a stInvalidField s
      | some bs =>
        let u := match kindOfLog lid with
          | some k => if rae then s else onCtrl a.conn (fun c => { c with masked := c.masked.filter (· != k), changed := if lid = 0x04 then [] else c.changed }) s
          | none => s
        reply a bs u) s

/-- IDENTIFY (R104). -/
def execIdentify (a : Adm) (cns nsid cntid csi : Nat) (s : State) : Result :=
  adm a 0x06 nsid [cns + 2 ^ 16 * cntid, 2 ^ 24 * csi] (fun s =>
    match ctrlOf s a.conn with
    | none => s
    | some c => match identifyData s c cns nsid csi with
      | .ok bs => reply a bs s
      | .error st => done a st s) s

/-- ABORT (R142). -/
def execAbort (a : Adm) (sqid cid : Nat) (s : State) : Result := adm a 0x08 0 [sqid + 2 ^ 16 * cid] (fun s => settle (abortCommand a sqid cid s)) s

/-! ### Features (R105 to R108, Tables 3.5 and 3.6) -/

/-- Features of the controllers, as Settings frames carry them: controller, feature, value. -/
def featureList (s : State) : List (Nat × Nat × Nat) :=
  (s.host.ctrls.filter (fun c => ! c.mgmt)).flatMap (fun c => [(c.id, 0x07, c.queues), (c.id, 0x0B, c.aec), (c.id, 0x0F, c.kato), (c.id, 0xC0, c.sat)])

/-- Power state asked last, or in force. -/
def wantedState (s : State) : Nat := match s.power.asked with | some (p, _) => p | none => s.power.pstate

/-- Mirror filters, power state and features (Table 10.6). -/
def mirrorSettings (s : State) : State := mirror (.settings s.host.filters (wantedState s) (featureList s)) s

/-- Complete an admin command after the settings it changed are mirrored. -/
def doneSettings (a : Adm) (dw0 : Nat) (s : State) : State := complete a.conn a.cid 0 stOk dw0 0 [] (mirrorSettings s)

/-- A feature's value; `dflt` its default. -/
def featureValue (s : State) (c : Ctrl) (fid : Nat) (dflt : Bool) : Option Nat :=
  match fid with
  | 0x02 => some (if dflt then 0 else wantedState s)
  | 0x07 => let n := if dflt then 64 else c.queues; some ((n - 1) + 65536 * (n - 1))
  | 0x0B => some (if dflt then 0 else c.aec)
  | 0x0F => some (if dflt then 0 else c.kato)
  | 0xC0 => some (if dflt then 30000 else c.sat)
  | _ => none

/-- GET_FEATURES (Table 3.3): current, default or saved, saved being current. -/
def execGetFeatures (a : Adm) (fid sel : Nat) (s : State) : Result :=
  adm a 0x0A 0 [fid + 2 ^ 8 * sel] (fun s =>
    match ctrlOf s a.conn with
    | none => s
    | some c => match featureValue s c fid (sel == 1) with
      | some v => if 2 < sel then done a stInvalidField s else complete a.conn a.cid 0 stOk v 0 [] s
      | none => done a stInvalidField s) s

/-- The pair's power state is asked for. A device that does not hold the pair asks its twin, which orders such requests, by a Settings frame
(R107; DESIGN CHOICE of the frame, log 141). -/
def askPower (a : Adm) (p : Nat) (s : State) : State :=
  if ! holdsPair s ∧ s.twin.session then done a stOk (sendFrame (.settings [] p []) s)
  else doneSettings a 0 { s with power := { s.power with asked := some (p, s.now) } }

/-- SET_POWER_MANAGEMENT (R107, R108): the pair's power state; the limits are adopted within 1 ms. -/
def execSetPowerManagement (a : Adm) (dw11 : Nat) (s : State) : Result :=
  adm a 0x09 0 [0x02, dw11] (fun s => if 3 < dw11 % 32 then done a stInvalidField s else askPower a (dw11 % 32) s) s

/-- SET_NUMBER_OF_QUEUES (R101): at most the queues still available; with none left the reported grant is a free value, its
field being 0-based (log 30). -/
def execSetNumberOfQueues (a : Adm) (dw11 : Nat) (s : State) : Result :=
  adm a 0x09 0 [0x07, dw11] (fun s =>
    let sq := dw11 % 65536
    let cq := dw11 / 65536 % 65536
    if sq = 65535 ∨ cq = 65535 then done a stInvalidField s
    else
      let n := min (min sq cq + 1) (min 64 (4096 - ioQueues s))
      let t := onCtrl a.conn (fun c => { c with queues := n }) s
      if n = 0 then doneSettings a ((Config.freeValue t.free).toNat % 2 ^ 32) { t with free := t.free + 1 }
      else doneSettings a ((n - 1) + 65536 * (n - 1)) t) s

/-- A controller whose Changed Namespace List is not empty has a Notice to report (R150). The list changes only at a start, which ends
every association, so that the Notice is due once its reports are enabled (log 29). -/
def notice (conn : Nat) (s : State) : State :=
  match ctrlOf s conn with
  | some c => if c.changed.isEmpty then s else raiseAt 1 0 c.id s
  | none => s

/-- SET_ASYNC_EVENT_CONFIGURATION (R150). -/
def execSetAsyncEventConfiguration (a : Adm) (dw11 : Nat) (s : State) : Result :=
  adm a 0x09 0 [0x0B, dw11] (fun s => notice a.conn (doneSettings a 0 (onCtrl a.conn (fun c => { c with aec := dw11 }) s))) s

/-- SET_KEEP_ALIVE_TIMER (R101): 0, or 1 s to 600 s. -/
def execSetKeepAliveTimer (a : Adm) (dw11 : Nat) (s : State) : Result :=
  adm a 0x09 0 [0x0F, dw11] (fun s =>
    if dw11 = 0 ∨ (1000 ≤ dw11 ∧ dw11 ≤ 600000) then doneSettings a 0 (onCtrl a.conn (fun c => { c with kato := dw11 }) s)
    else done a stInvalidField s) s

/-- SET_STORE_ADMISSION_TIMEOUT (R105, R106). -/
def execSetStoreAdmissionTimeout (a : Adm) (dw11 : Nat) (s : State) : Result :=
  adm a 0x09 0 [0xC0, dw11] (fun s =>
    if 100 ≤ dw11 ∧ dw11 ≤ 600000 then doneSettings a 0 (onCtrl a.conn (fun c => { c with sat := dw11 }) s)
    else done a stInvalidField s) s

/-- Features of Table 3.5. -/
def featureIds : List Nat := [0x02, 0x07, 0x0B, 0x0F, 0xC0]

/-- SET_FEATURES_INVALID (R105): the save bit, or a feature of no table; with both, the save bit decides (DESIGN CHOICE, log 137). -/
def execSetFeaturesInvalid (a : Adm) (fid : Nat) (save : Bool) (s : State) : Result :=
  onlyIf (save || ! featureIds.contains fid) (fun s => stateOf s (adm a 0x09 0 [fid + bit save 31] (done a (if save then stNotSaveable else stInvalidField)) s)) s

/-! ### Asynchronous events and keep-alive (R150) -/

/-- ASYNCHRONOUS_EVENT_REQUEST: an event that waits completes it at once; a fifth outstanding one is refused. -/
def execAsynchronousEventRequest (a : Adm) (s : State) : Result :=
  adm a 0x0C 0 [] (fun s =>
    match ctrlOf s a.conn with
    | none => s
    | some c => match c.waiting with
      | (k, dw) :: ws => complete a.conn a.cid 0 stOk dw 0 [] (onCtrl a.conn (fun c => { c with waiting := ws, masked := sIns k c.masked }) s)
      | [] => if 4 ≤ c.aers.length then done a stInvalidField s else onCtrl a.conn (fun c => { c with aers := c.aers ++ [a.cid] }) s) s

/-- KEEP_ALIVE. -/
def execKeepAlive (a : Adm) (s : State) : Result := adm a 0x18 0 [] (done a stOk) s

/-! ### Properties (Table 3.3) -/

/-- Controller properties with a behaviour: configuration CC and status CSTS. -/
def offCc : Nat := 0x14
def offCsts : Nat := 0x1C

/-- SHN field of a CC value (R593). -/
def shnOf (cc : Nat) : Nat := cc / 2 ^ 14 % 4

/-- A device that reported shutdown complete and still has its rails restarts when a controller is enabled again at its management
address (R598). -/
def enabledAgain (conn : Nat) (s : State) : State :=
  match connBy s conn, s.start.shutdown with
  | some c, some x => if c.mgmt ∧ x.step = 7 then dueWarm .controllerReenable { s with start := { s.start with shutdown := none } } else s
  | _, _ => s

/-- PROPERTY_SET of a value without a behaviour of its own: CC without a shutdown notification, or another property. -/
def execPropertySet (a : Adm) (off val : Nat) (s : State) : Result :=
  onlyIf (! (off == offCc && shnOf val != 0)) (fun s => stateOf s (adm a 0x7F 0 [0, off, val % 2 ^ 32, val / 2 ^ 32] (fun s =>
    let t := done a stOk (onCtrl a.conn (fun c => if off = offCc then { c with cc := val } else { c with props := aSet off val c.props }) s)
    if off = offCc ∧ val % 2 = 1 then enabledAgain a.conn t else t) s)) s

/-- CC with a shutdown notification. -/
def withShn (n : Nat) (c : Ctrl) : Ctrl := { c with cc := c.cc % 2 ^ 14 + 2 ^ 14 * n }

/-- A controller is told to shut down: its notification completes, and its shutdown is in progress (R593). -/
def endController (a : Adm) (s : State) : State := done a stOk (onCtrl a.conn (fun c => { withShn 1 c with shst := 1 }) s)

/-- CSTS: ready as CC enables it, and the shutdown status: the device's own at a management address (R593). -/
def cstsOf (s : State) (c : Ctrl) : Nat := c.cc % 2 + 4 * (if c.mgmt then s.start.shst else c.shst)

/-- PROPERTY_GET; a property that the spec gives no value and nobody wrote reads as a free value (log 31). -/
def execPropertyGet (a : Adm) (off : Nat) (wide : Bool) (s : State) : Result :=
  adm a 0x7F 4 [bit wide 0, off] (fun s =>
    match ctrlOf s a.conn with
    | none => s
    | some c =>
      let known : Option Nat := if off = offCc then some c.cc else if off = offCsts then some (cstsOf s c) else aGet off c.props
      let v := match known with | some v => v | none => (Config.freeValue s.free).toNat
      complete a.conn a.cid 0 stOk (v % 2 ^ 32) (if wide then v / 2 ^ 32 else 0) []
        { s with free := if known.isNone then s.free + 1 else s.free }) s

/-! ### Format NVM (R195, R509 to R512) -/

/-- Stores of a namespace end: they are left to abort, their commands complete with Store Aborted (R509 step 1). -/
def abandonStores (ns : Nat) (s : State) : State :=
  (s.ice.stores.filter (fun e => e.ns == ns && decide (e.stage < 3))).foldl (fun t e =>
    dropStore e (if e.posted then t else answerStore e stStoreAborted 0 t)) s

/-- Items of a namespace that are not laid are discarded from the Cornice, their entries with them, by purge records (R195, R509
step 2). -/
def discardUnlaid (ns : Nat) (s : State) : State :=
  let is := s.kw.items.filter (fun i => i.ns == ns && i.flash.isEmpty)
  let ws := is.flatMap (clearSlot (kwSecret s) s.kw)
  corniceFree (is.flatMap (·.grains)) (journal (kwRecs s 7 ws ++ is.map (fun i => .itemDel i.ns i.chunk i.key i.storeId i.pos)) s)

/-- FORMAT_NVM (R509): steps 1 to 3; the purge pass then runs. -/
def execFormatNvm (a : Adm) (nsid dw10 : Nat) (s : State) : Result :=
  adm a 0x80 nsid [dw10] (fun s =>
    let permitted : Bool := match s.cfg with | some c => c.sec.erase | none => false
    let seen : Bool := match ctrlOf s a.conn with | some c => (seenNs s c).contains nsid | none => false
    if dw10 ≠ 2 * 2 ^ 9 ∨ ! permitted then done a stInvalidField s
    else if ! seen then done a stInvalidNs s
    else match drawSalt nsid s with
      | none => done a stInternal s
      | some _ =>
        let b := discardUnlaid nsid (abandonStores nsid s)
        match drawSalt nsid b with
        | none => done a stInternal s
        | some c =>
          let d := journal [.purge nsid true] c
          settle (record 0x7040 (pathNs nsid) (le 2 nsid)
            { d with kw := { d.kw with purging := (d.kw.purging.filter (fun p => p.1 != nsid)) ++ [(nsid, a.conn, a.cid)] } })) s

/-- Metadata that holds a ledger run of a namespace. -/
def runOf (ns : Nat) (o : MetaOf) : Bool := match o with | .run n _ => n == ns | _ => false

/-- PURGE_PASS_COMPLETE (R195, R509): every entry of the namespace is gone, with its ledger; pending is cleared, 0x7041 is
recorded and the command completes. -/
def execPurgePassComplete (ns : Nat) (s : State) : Result :=
  match s.kw.purging.find? (fun p => p.1 == ns) with
  | none => .next s
  | some (_, conn, cid) =>
    onlyIf (running s) (fun s =>
      let is := s.kw.items.filter (fun i => i.ns == ns)
      let ws := is.flatMap (clearSlot (kwSecret s) s.kw)
      let a := deadGrains (is.flatMap (·.flash)) (corniceFree (is.flatMap (·.grains)) s)
      let t := journal (kwRecs a 7 ws ++ is.map (fun i => .itemDel i.ns i.chunk i.key i.storeId i.pos) ++ [.ledgerPurge ns, .purge ns false]) a
      let hours := match t.cfg with | some c => c.sec.windowH | none => 24
      let t := deadMeta (runOf ns) t
      settle (complete conn cid ns stOk 0 0 [] (record 0x7041 (pathNs ns) (le 2 ns)
        { t with sec := { t.sec with windows := aSet ns (t.now + hours * 3600 * 1000000000) t.sec.windows } }))) s

/-! ### Filters (R130 to R133) -/

/-- FILTER_REGISTER (R130): `dw10` is the descriptor length. Reserved bytes of the descriptor are not read (R17). A descriptor whose
lengths do not agree or whose type is neither 0 nor 1 fails with Invalid Field (DESIGN CHOICE, log 138); a source of no accepted length is
a fault of the pattern (R217). -/
def execFilterRegister (a : Adm) (dw10 : Nat) (bytes : List Byte) (s : State) : Result :=
  onlyIf (admAccepts a s) (fun s0 =>
    let s := takeAdmin a 0xC1 0 [dw10] bytes s0
    let type := ofLe (bytes.take 1)
    let n := ofLe ((bytes.drop 8).take 4)
    let body := bytes.drop 16
    mirrorConn a.conn <|
      if bytes.length ≠ dw10 ∨ dw10 ≠ 16 + n ∨ 1 < type then done a stInvalidField s
      else
        match automatonOf (type == 1) body with
        | .error r => complete a.conn a.cid 0 stPatternRejected r 0 [] s
        | .ok x =>
          if 1023 ≤ s.host.filters.length then complete a.conn a.cid 0 stPatternRejected 6 0 [] s
          else
            let h := leastFree (s.host.filters.map (·.handle)) 1 (s.host.filters.length + 1)
            doneSettings a h { s with host := { s.host with filters := s.host.filters ++ [⟨h, x⟩] } }) s

/-- FILTER_RELEASE (R133). -/
def execFilterRelease (a : Adm) (handle : Nat) (s : State) : Result :=
  adm a 0xC4 0 [handle] (fun s =>
    if s.host.filters.any (fun f => f.handle == handle) then
      doneSettings a 0 { s with host := { s.host with filters := s.host.filters.filter (fun f => f.handle != handle) } }
    else done a stBadHandle s) s

/-! ### Planned takeover (R442) -/

/-- PLANNED_TAKEOVER (R442): only an ACTIVE with a healthy STANDBY hands over. -/
def execPlannedTakeover (a : Adm) (s : State) : Result :=
  adm a 0xC8 0 [] (fun s => if hasStandby s ∧ s.twin.planned.isNone then beginPlanned a.conn a.cid s else done a stInvalidField s) s

/-! ### NVMe-MI (R151) -/

/-- SMART critical warnings as the Basic Management Command shows them, inverted bit by bit (PRESUMED, log 27); after three
sequencing failures the fault, event code 0x6040, and the step stand in the bytes that are 0 otherwise (R447). -/
def miBlock (s : State) : List Byte :=
  if s.keeper.phase = .failed then [6#8] ++ le 1 0 ++ le 1 255 ++ le 2 0 ++ le 2 0x6040 ++ le 1 s.keeper.failStep else
  [6#8] ++ le 1 (bit (running s) 6) ++ le 1 (255 - criticalWarning s) ++ le 1 ((s.power.hottest / 10).toNat)
    ++ le 1 (percentUsed s) ++ le 2 0 ++ le 1 0
    ++ [22#8] ++ le 2 ((Config.freeValue s.free).toNat) ++ ascii 20 (hex16 s.serial) ++ le 1 0

/-- NVME_MI_BASIC_MANAGEMENT: answered while the cores run, in RECOVERY, in DORMANT, and after three sequencing failures, unless step 1
failed (R151, R447, R624). The vendor identifier, which the spec does not give, is a free value. -/
def execNvmeMiBasicManagement (cmd len : Nat) (s : State) : Result :=
  onlyIf (running s || s.keeper.phase == .recovery || s.keeper.phase == .dormant || (s.keeper.phase == .failed && decide (s.keeper.failStep ≠ 1))) (fun s =>
    emit (.smbus (((miBlock s).drop cmd).take len)) { s with free := s.free + 1 }) s

/-- The controller as which NVMe-MI reads: one of the device's own (R151). -/
def miCtrl : Ctrl :=
  { id := 0, mgmt := true, disc := false, nqn := "", kato := 0, seenAt := 0, queues := 0, aec := 0, aers := [], masked := [], waiting := [],
    sat := 30000, cc := 0, shst := 0, props := [], errors := [], errCount := 0, changed := [] }

/-- Response of an NVMe-MI command: status (0 success, 3 invalid opcode, 4 invalid parameter; PRESUMED, log 27), its bytes, and
the SMBus frequency afterwards. Read NVMe-MI Data Structure answers eight free bytes whatever structure it names, the spec giving neither
its content nor its length (DESIGN CHOICE, log 140). -/
def miAnswer (s : State) (opcode : Nat) (args : List Nat) : Nat × List Byte × Nat :=
  let k := s.host.smbusKhz
  match opcode, args with
  | 0x00, _ => (0, le 8 (Config.freeValue s.free).toNat, k)
  | 0x01, _ => (0, le 1 (bit (running s) 5) ++ le 1 (255 - criticalWarning s) ++ le 1 ((s.power.hottest / 10).toNat) ++ le 1 0, k)
  | 0x02, _ => (0, le 2 0 ++ le 2 (cstsOf s miCtrl) ++ le 2 ((s.power.hottest / 10 + 273).toNat) ++ le 1 0 ++ le 1 (availableSpare s)
      ++ le 1 (criticalWarning s), k)
  | 0x03, [1, 1] => (0, [], 100)
  | 0x03, [1, 2] => (0, [], 400)
  | 0x04, [1] => (0, le 1 (if k = 100 then 1 else 2), k)
  | 0x03, _ => (4, [], k)
  | 0x04, _ => (4, [], k)
  | _, _ => (3, [], k)

/-- NVME_MI_COMMAND: `msg` 0 an NVMe-MI command, 1 a tunnelled Identify (CNS, namespace, command set) or Get Log Page
(identifier, offset, length). -/
def execNvmeMiCommand (msg opcode : Nat) (args : List Nat) (s : State) : Result :=
  onlyIf (running s && decide (msg ≤ 1)) (fun s =>
    let t := { s with free := s.free + 1 }
    if msg = 0 then
      let r := miAnswer s opcode args
      emit (.mctp r.1 r.2.1) { t with host := { t.host with smbusKhz := r.2.2 } }
    else match opcode, args with
      | 0x06, [cns, nsid, csi] => match identifyData s miCtrl cns nsid csi with
        | .ok bs => emit (.mctp 0 bs) t
        | .error st => emit (.mctp (st.sc + 256 * st.sct) []) t
      | 0x02, [lid, off, len] => match logPage s miCtrl lid off len with
        | some bs => emit (.mctp 0 bs) t
        | none => emit (.mctp 2 []) t
      | _, _ => emit (.mctp 3 []) t) s

end Sys2Proof.Machine
end

