-- ==== Sys2Proof/Machine/StoreFamily.lean ====
section
/-! DEFINITION. Meanings of the commands of a Store across the icefield: its datagrams and its timers (R153, R319 to R328, R361). -/

namespace Sys2Proof.Machine

/-- Span after which a datagram without an answer is sent again (R319, R322, R327, R344, R361). -/
def resendNs : Nat := 200000

/-- Something was sent, and that long ago. -/
def longAgo (sent : Option Nat) (now : Nat) : Bool := match sent with | some t => decide (t + resendNs ≤ now) | none => false

/-! ### Datagrams -/

/-- FRAGMENT (R321, R323). -/
def execFragment (h : Hdr) (b : FragB) (s : State) : Result := gram h (.fragment b) (onFragment h.slot b) s

/-- FRAGMENT_ACK (R82, R321, R322). -/
def execFragmentAck (h : Hdr) (b : AckB) (s : State) : Result := gram h (.fragmentAck b) (onFragmentAck h.slot b) s

/-- COMMIT_REQUEST (R324, R327). -/
def execCommitRequest (h : Hdr) (b : CtlB) (s : State) : Result := gram h (.commitRequest b) (onCommitRequest h.slot b) s

/-- COMMIT_INTENT (R324, R341). -/
def execCommitIntent (h : Hdr) (b : CtlB) (s : State) : Result := gram h (.commitIntent b) (onCommitIntent h.slot b) s

/-- INTENT_ACK (R325, R327). -/
def execIntentAck (h : Hdr) (b : CtlB) (s : State) : Result := gram h (.intentAck b) (onIntentAck h.slot b) s

/-- COMMIT_CONFIRM (R324, R325). -/
def execCommitConfirm (h : Hdr) (b : CtlB) (s : State) : Result := gram h (.commitConfirm b) (entryConfirm b) s

/-- COMMIT_NOTICE (R154, R191, R326). -/
def execCommitNotice (h : Hdr) (b : CtlB) (s : State) : Result := gram h (.commitNotice b) (onCommitNotice b) s

/-- ABORT_NOTICE (R154, R322, R327). -/
def execAbortNotice (h : Hdr) (b : CtlB) (s : State) : Result := gram h (.abortNotice b) (onAbortNotice h.slot b) s

/-- STATUS_QUERY (R325, R328). -/
def execStatusQuery (h : Hdr) (b : CtlB) (s : State) : Result := gram h (.statusQuery b) (onStatusQuery h.slot b) s

/-! ### Timers of the entry pair -/

/-- Positions of a chunk beyond those sent at once (R319). -/
def laterPositions (e : EStore) (x : EChunk) : List Nat :=
  (x.poss.filter (fun p => decide ((if repStore e then 1 else e.pol.k) < p.pos) && ! p.unplaced && p.level == 0)).map (·.pos)

/-- The dispatched chunk of a Store that has not reached D2 within 200 µs and whose later positions still ride as bulk. -/
def lateChunk (s : State) (id n : Nat) : Option (EStore × EChunk) :=
  match storeBy s id with
  | none => none
  | some e => match chunkBy e n with
    | none => none
    | some x => if ! x.poss.isEmpty ∧ ! x.allSent ∧ x.sentAt + resendNs ≤ s.now ∧ chunkLevel s e x < 2 then some (e, x) else none

/-- D2_DISPATCH_TIMEOUT (R319): the remaining positions go on queue 4 as well. -/
def execD2DispatchTimeout (storeId chunk : Nat) (s : State) : Result :=
  match lateChunk s storeId chunk with
  | none => .next s
  | some (e, x) =>
    onlyIf (receives s) (fun s =>
      settle ((laterPositions e x).foldl (fun t p => sendPos false storeId chunk p (dropBulk storeId chunk p t))
        (onStore storeId (onChunk chunk (fun y => { y with allSent := true })) s))) s

/-- The position of a Store without an acknowledgement for 200 µs. -/
def silentPos (s : State) (id n p : Nat) : Option (EStore × EPos) :=
  match storeBy s id with
  | none => none
  | some e => match chunkBy e n with
    | none => none
    | some x => match posBy x p with
      | none => none
      | some y =>
        if y.level = 0 ∧ ! y.unplaced ∧ ! waitsBulk s id n p ∧ longAgo y.sentAt s.now then some (e, y)
        else none

/-- FRAGMENT_RESEND (R322, R323): sent again by unicast; after 3 resends the position moves on. The version request goes to the
coordinator again while no version has come, also where position 0 is not at the coordinator. -/
def execFragmentResend (storeId chunk pos : Nat) (s : State) : Result :=
  match silentPos s storeId chunk pos with
  | none => .next s
  | some (e, y) =>
    onlyIf (receives s) (fun s =>
      let t := if y.resends < 3 then sendPos false storeId chunk pos (onStore storeId (onChunk chunk (onPos pos (fun q => { q with resends := q.resends + 1 }))) s)
        else movePos storeId chunk pos s
      let u := if chunk = 0 ∧ pos = 0 ∧ e.version = 0 ∧ ! carriesRequest e 0 y then requestVersion storeId t else t
      settle (advance storeId u)) s

/-- STORE_LEVEL_TIMEOUT (R327): 2 s after the version came the level is not reached: Store Aborted, without a Commit Request. -/
def execStoreLevelTimeout (storeId : Nat) (s : State) : Result :=
  match storeBy s storeId with
  | none => .next s
  | some e => onlyIf (receives s && e.stage == 1 && e.version != 0 && decide (e.versionAt + secNs 2 ≤ s.now)) (fun s => settle (failStore e stStoreAborted 0 s)) s

/-- COMMIT_REQUEST_RESEND (R361, R88): the Commit Request goes again after 200 µs, to the successor once the coordinator is LOST. -/
def execCommitRequestResend (storeId : Nat) (s : State) : Result :=
  match storeBy s storeId with
  | none => .next s
  | some e =>
    onlyIf (receives s && e.stage == 2 && decide (e.commitAt + resendNs ≤ s.now)) (fun s =>
      let c := if slotState s e.coord = .lost then coordSlot s e.ns e.key else e.coord
      settle (milmo c 7 (.commitRequest (entryCtl e (valueLevel s e) 0xFFFF true)) (onStore storeId (fun x => { x with commitAt := s.now, coord := c }) s))) s

/-! ### Timers of the coordinator -/

/-- A version of a key at this coordinator. -/
def verAt (s : State) (ns : Nat) (key : Key) (version : Nat) : Option (CoRec × CoVer) :=
  match recOf s ns key with
  | none => none
  | some r => (r.vers.find? (fun v => v.version == version)).map (fun v => (r, v))

/-- VERSION_ABORT_TIMER (R327): 2 s after assignment without a commit the version is aborted. -/
def execVersionAbortTimer (ns : Nat) (key : Key) (version : Nat) (s : State) : Result :=
  match verAt s ns key version with
  | none => .next s
  | some (r, v) => onlyIf (receives s && v.st == 1 && decide (v.assignedAt + secNs 2 ≤ s.now)) (fun s => settle (abortVersion r v s)) s

/-- ABORT_NOTICE_RESEND (R327): every 200 µs to each holder that has not acknowledged. -/
def execAbortNoticeResend (ns : Nat) (key : Key) (version : Nat) (s : State) : Result :=
  match verAt s ns key version with
  | none => .next s
  | some (r, v) =>
    onlyIf (receives s && v.st == 4 && ! v.unacked.isEmpty && decide (v.sentAt + resendNs ≤ s.now)) (fun s =>
      settle (milmoAll v.unacked 7 (.abortNotice (ctlOf r { v with commitTime := 0 } 0 0xFFFF))
        (setRec (onVer version (fun (x : CoVer) => { x with sentAt := s.now }) r) s))) s

/-! ### Timers of the holder -/

/-- The item of a Store and chunk that no notice has settled. -/
def unsettled (s : State) (storeId chunk : Nat) : Option Item := (itemsOfStore s storeId).find? (fun i => i.chunk == chunk && i.st != 2)

/-- HOLDER_STATUS_QUERY (R328): 2.5 s after the first acknowledgement the coordinator is asked, then every 1 s. -/
def execHolderStatusQuery (storeId chunk : Nat) (s : State) : Result :=
  match unsettled s storeId chunk with
  | none => .next s
  | some i =>
    onlyIf (receives s && decide (i.ackAt + 2500000000 ≤ s.now) && decide (i.queryAt + 1000000000 ≤ s.now)) (fun s =>
      settle (milmo (coordSlot s i.ns i.key) 7 (.statusQuery
          { storeId := storeId, version := i.version, ns := i.ns, chunks := chunkCount i.valueLen, level := i.ack, result := 0, pos := 0xFFFF,
            commitTime := 0, key := i.key })
        { s with kw := { s.kw with items := updIf (fun x => isItem i x) (fun x => { x with queryAt := s.now }) s.kw.items } })) s

/-- The Store of an item that waits behind two pending entries, once one of them is gone (R153). -/
def mayProceed (s : State) (ns chunk : Nat) (key : Key) : Option WaitStore :=
  match s.kw.waits.find? (fun w => w.frag.ns == ns && w.frag.chunk == chunk && w.frag.key == key) with
  | some w => if mustWait w.frag s then none else some w
  | none => none

/-- KEYWAY_PENDING_WAIT_END (R153): the waiting Store is taken as if it came now. -/
def execKeywayPendingWaitEnd (ns chunk : Nat) (key : Key) (s : State) : Result :=
  match mayProceed s ns chunk key with
  | none => .next s
  | some w =>
    onlyIf (receives s) (fun s =>
      settle (onFragment w.from_ w.frag { s with kw := { s.kw with waits := s.kw.waits.filter (fun x => x != w) } })) s

end Sys2Proof.Machine
end

