-- ==== Sys2Proof/Machine/SuccessionFamily.lean ====
section
/-! DEFINITION. Meanings of the commands of reading, succession, handover, floors, repair and rebalance (R128, R329 to R331, R339 to
R349). -/

namespace Sys2Proof.Machine

/-! ### Datagrams -/

/-- LOCATE (R329, R337, R340, R343). -/
def execLocate (h : Hdr) (b : LocB) (s : State) : Result := gram h (.locate b) (onLocate h.slot b) s

/-- LOCATE_REPLY (R329). -/
def execLocateReply (h : Hdr) (result hint : Nat) (rs : List StripeB) (s : State) : Result := gram h (.locateReply result hint rs) (onLocateReply h.slot result hint rs) s

/-- READ_REQUEST (R329, R330). -/
def execReadRequest (h : Hdr) (b : LocB) (s : State) : Result := gram h (.readRequest b) (onReadRequest h.slot b) s

/-- READ_DATA (R330). -/
def execReadData (h : Hdr) (b : FragB) (s : State) : Result := gram h (.readData b) (takeData h.slot b) s

/-- RECORD_QUERY (R340). -/
def execRecordQuery (h : Hdr) (b : LocB) (s : State) : Result := gram h (.recordQuery b) (onRecordQuery h.slot b) s

/-- RECORD_REPLY (R331, R340, R341). -/
def execRecordReply (h : Hdr) (rs : List StripeB) (floor : Nat) (s : State) : Result := gram h (.recordReply rs floor) (onRecordReply h.slot rs floor) s

/-- FLOOR_NOTICE (R344). -/
def execFloorNotice (h : Hdr) (bin floor : Nat) (s : State) : Result := gram h (.floorNotice bin floor) (onFloorNotice h.slot bin floor) s

/-- FLOOR_ACK (R344). -/
def execFloorAck (h : Hdr) (bin floor : Nat) (s : State) : Result := gram h (.floorAck bin floor) (raiseAnswered h.slot bin floor) s

/-- MILMO_DURABILITY_QUERY (R128). -/
def execMilmoDurabilityQuery (h : Hdr) (b : LocB) (s : State) : Result := gram h (.durabilityQuery b) (onDurQuery h.slot b) s

/-- DURABILITY_REPLY (R128). -/
def execDurabilityReply (h : Hdr) (result hint : Nat) (r : DurRec) (s : State) : Result := gram h (.durabilityReply result hint r) (onDurReply h.slot result hint r) s

/-- ORPHAN_NOTICE (R342). -/
def execOrphanNotice (h : Hdr) (b : StripeB) (s : State) : Result := gram h (.orphanNotice b) (onOrphan h.slot b) s

/-- HANDOVER_RECORD (R343, R344). -/
def execHandoverRecord (h : Hdr) (b : StripeB) (floor : Nat) (s : State) : Result := gram h (.handoverRecord b floor) (onHandover b floor) s

/-- HOLDER_RETURN (R349). -/
def execHolderReturn (h : Hdr) (b : StripeB) (keep : Option Bool) (s : State) : Result := gram h (.holderReturn b keep) (onHolderReturn h.slot b keep) s

/-- REPAIR_ORDER (R346). -/
def execRepairOrder (h : Hdr) (b : StripeB) (pos : Nat) (s : State) : Result := gram h (.repairOrder b pos) (onRepairOrder h.slot b pos) s

/-- LOCAL_MEDIA_FAILURE_REPORT (R345): the coordinator orders the repair of the position a holder reports; the report's transport has
no datagram type, so it comes with its sender's slot alone. -/
def execLocalMediaFailureReport (slot : Nat) (b : StripeB) (pos : Nat) (s : State) : Result :=
  onlyIf (receives s && (rosterEntry s slot).isSome) (fun s => settle (onMediaFailure b pos s)) s

/-! ### Timers of reading and floors -/

/-- A read that waits for a piece asked at least 1 ms ago. -/
def silentPiece (s : State) (id chunk pos : Nat) : Bool :=
  match readBy s id with
  | some r => r.want.any (fun w => w.1 == chunk && w.2.1 == pos && decide (w.2.2.2 + 1000000 ≤ s.now))
  | none => false

/-- READ_REQUEST_TIMEOUT (R330): a parity fragment or another replica takes the place of the silent holder's. -/
def execReadRequestTimeout (id chunk pos : Nat) (s : State) : Result :=
  onlyIf (receives s && silentPiece s id chunk pos) (fun s => settle (pieceFails id chunk pos s)) s

/-- Floor raises of a bin due for a resend. -/
def raisesDue (s : State) (bin : Nat) : List FloorRaise := s.ice.raises.filter (fun x => x.bin == bin && decide (x.at_ + resendNs ≤ s.now))

/-- FLOOR_NOTICE_RESEND (R344): every 200 µs to each slot that has not answered. -/
def execFloorNoticeResend (bin : Nat) (s : State) : Result :=
  onlyIf (receives s && ! (raisesDue s bin).isEmpty) (fun s =>
    (raisesDue s bin).foldl (fun t x => milmoAll x.waits 7 (.floorNotice bin x.floor) t)
      { s with ice := { s.ice with raises := updIf (fun x => x.bin == bin && decide (x.at_ + resendNs ≤ s.now)) (fun x => { x with at_ := s.now }) s.ice.raises } }) s

/-! ### Handover (R343) -/

/-- Every version this pair assigned in a bin is committed or aborted. -/
def binResolved (s : State) (bin : Nat) : Bool := s.ice.recs.all (fun r => r.bin != bin || r.vers.all (fun v => v.st != 1))

/-- The final record of a bin (Table 8.9, flag bit 7); it names its bin in the value length (log 25). -/
def finalRecord (bin : Nat) : StripeB :=
  { ns := 0, chunk := 0, key := [], state := 2, intent := false, tomb := false, domShort := false, zeroExt := false, final := true, holders := [],
    version := 0, greatest := 0, valueLen := bin, k := 1, m := 0, dom := .rack, thr := 0, d3 := [] }

/-- The slot a former coordinator may send its final record to. -/
def finalDue (s : State) (bin : Nat) : Option Nat :=
  match handoverOf s bin with
  | some (x, f) => if s.ice.slot = some f ∧ ! stillSending s bin ∧ binResolved s bin then some x else none
  | none => none

/-- HANDOVER_FINAL (R343, R344): the final record with the bin's floor goes to the new first, and the requests held follow it. -/
def execHandoverFinal (bin : Nat) (s : State) : Result :=
  match finalDue s bin with
  | none => .next s
  | some x =>
    onlyIf (receives s) (fun s =>
      let held := s.ice.handHeld.filter (fun q => q.bin == bin)
      let a := sendBulk x 2 (.handoverRecord (finalRecord bin) ((aGet bin s.ice.floors).getD 0))
        <| mirror (.milmoState [.final x bin])
        { s with ice := { s.ice with finals := s.ice.finals ++ [(x, bin)], handHeld := s.ice.handHeld.filter (fun q => q.bin != bin) } }
      settle (held.foldl (fun t q => forwardTo x q.from_ q.body t) a)) s

/-! ### Return of stale items (R349) -/

/-- An item offered back more than 24 h ago without a keep. -/
def returnOver (s : State) (ns : Nat) (key : Key) : Bool :=
  s.ice.returned.any (fun x => x.1 == ns && x.2.1 == key && decide (x.2.2 + secNs 86400 ≤ s.now))

/-- HOLDER_RETURN_TIMEOUT (R349): its items are released. -/
def execHolderReturnTimeout (ns : Nat) (key : Key) (s : State) : Result :=
  onlyIf (receives s && knownNs s ns && returnOver s ns key) (fun s =>
    (s.kw.items.filter (fun i => i.ns == ns && i.key == key && i.st == 2)).foldl (fun t i => removeItem 6 i t)
      { s with ice := { s.ice with returned := s.ice.returned.filter (fun x => ! (x.1 == ns && x.2.1 == key)) } }) s

/-! ### Repair and rebalance (R346, R348) -/

/-- Repair reads of a key that found too few survivors at least 10 s ago. -/
def repairsDue (s : State) (ns : Nat) (key : Key) : List ERead :=
  s.ice.readsE.filter (fun r => r.kind == 6 && r.ns == ns && r.key == key && r.stage == 2 && decide (r.at_ + secNs 10 ≤ s.now))

/-- REPAIR_RETRY (R346): every surviving holder of the record is tried again; what was read is kept. It is background work, withheld
during a takeover (R24). -/
def execRepairRetry (ns : Nat) (key : Key) (s : State) : Result :=
  onlyIf (receives s && classGranted s (unitLevel s (ofKind 13)) && ! (repairsDue s ns key).isEmpty) (fun s =>
    settle ((repairsDue s ns key).foldl (fun t r =>
      planRead r.id (onRead r.id (fun r => { r with stage := 1, want := [], tried := (r.expected, r.len) :: r.got.map (fun g => (g.1, g.2.1)) }) t)) s)) s

/-- Positions of a chunk that the current walk moves: the holder is not among its first n slots, or repeats a domain that an earlier
position has (R315, R348). -/
def movedPositions (s : State) (r : CoRec) (v : CoVer) (x : CoChunk) : List (Nat × Nat) :=
  let w := holdersFor s ((r.bin + x.chunk) % 2 ^ 20) (stripeWidth v) v.dom
  (x.holders.filter (fun h => ! x.lost.contains h.1)).filter (fun h =>
    ! w.contains h.2 || (v.domShort && x.holders.any (fun g => decide (g.1 < h.1) && domOf s v.dom g.2 == domOf s v.dom h.2)))

/-- Order the move of one position: the slot of the walk that holds no other position of the stripe takes it, as a unit of the ladder
due within 7 days on queue 1 (R348, Table 8.2). -/
def moveHolder (r : CoRec) (v : CoVer) (x : CoChunk) (h : Nat × Nat) (s : State) : State :=
  let keep := ((x.holders.filter (fun g => g.1 != h.1)).map (·.2))
  match nextHolder s ((r.bin + x.chunk) % 2 ^ 20) v.dom keep (x.holders.map (·.2)) with
  | none => s
  | some y =>
    let short : Bool := ! (keep.map (domOf s v.dom)).contains (domOf s v.dom y)
    if (holdersFor s ((r.bin + x.chunk) % 2 ^ 20) (stripeWidth v) v.dom).contains h.2 ∧ ! short then s
    else
      let rec_ := recordOf s r v x.chunk
      let n := (itemNum r.ns x.chunk r.key).1
      milmo y 7 (.repairOrder rec_ h.1)
        (addBg 15 (32 * n + h.1) 0 (secNs 604800)
          { s with ice := { s.ice with repairs := s.ice.repairs ++ [⟨rec_, h.1, y, false, s.now, true, h.2⟩] } })


/-- A repair or move of a position runs already. -/
def beingMoved (s : State) (r : CoRec) (v : CoVer) (chunk pos : Nat) : Bool :=
  s.ice.repairs.any (fun q => ! q.mine && q.rec_.ns == r.ns && q.rec_.key == r.key && q.rec_.version == v.version && q.rec_.chunk == chunk && q.pos == pos)

/-- The moves and late placements a version needs (R322, R345, R348). -/
def rebalanceVer (r : CoRec) (v : CoVer) (s : State) : State :=
  v.chunks.foldl (fun t x =>
    let a := (movedPositions t r v x).foldl (fun t h => if beingMoved t r v x.chunk h.1 then t else moveHolder r v x h t) t
    if v.commitTime + secNs 10 ≤ a.now then
      (unplacedPositions v x ++ x.lost).foldl (fun t p =>
        if beingMoved t r v x.chunk p then t
        else match recOf t r.ns r.key with
          | some q => match q.vers.find? (fun y => y.version == v.version) with
            | some w => orderRepair q w x.chunk p t
            | none => t
          | none => t) a
    else a) s

/-- REBALANCE (R348): a slot has entered the placing set; every stripe this pair coordinates is compared with the current walk. It is
background work, withheld during a takeover (R24). -/
def execRebalance (slot : Nat) (s : State) : Result :=
  onlyIf (receives s && classGranted s (unitLevel s (ofKind 15)) && (placingSet s).contains slot) (fun s =>
    settle (s.ice.recs.foldl (fun t r =>
      if roleFor t r.bin == .coordinates then (r.vers.filter (fun v => v.st == 2)).foldl (fun t v => rebalanceVer r v t) t else t) s)) s

end Sys2Proof.Machine
end

