-- ==== Sys2Proof/Machine/BulkFamily.lean ====
section
/-! DEFINITION. Meanings of the commands of bulk leases, the calendar, listing gathers, SHED at a holder and the Rime engines (R224,
R228, R229, R300, R350 to R357). -/

namespace Sys2Proof.Machine

/-! ### Leases (R351, R352, R355) -/

/-- LEASE_REQUEST (R351, R352). -/
def execLeaseRequest (h : Hdr) (b : LeaseB) (s : State) : Result := gram h (.leaseRequest b) (onLeaseRequest h.slot b) s

/-- PERMIT (R351). -/
def execPermit (h : Hdr) (b : LeaseB) (s : State) : Result := gram h (.permit b) (onPermit h.slot b) s

/-- Ask again for leases that queued bulk traffic needs and no lease covers. -/
def askWaiting (s : State) : State := (s.ice.bulk.map (fun x => (x.1, x.2.1))).dedup.foldl (fun t x => askLease x.1 x.2 t) s

/-- PERMIT_TIMER (R351, R352): every 1 ms each sender with a lease is sent a Permit at its fair share; rate 0, which ends the lease,
while the Cornice takes nothing (R696). -/
def execPermitTimer (s : State) : Result :=
  onlyIf (receives s && decide (s.ice.permitAt + 1000000 ≤ s.now)) (fun s =>
    let t := s
    let u := { t with ice := { t.ice with granted := allRates t, permitAt := t.now } }
    settle (askWaiting (u.ice.granted.foldl (fun v l => sendPermit l v) u))) s

/-- LEASE_EXPIRY (R351): a lease ends 5 ms after its sender's last Permit. -/
def execLeaseExpiry (id : Nat) (s : State) : Result :=
  match s.ice.leases.find? (fun l => l.id == id && decide (l.last + 5000000 ≤ s.now)) with
  | none => .next s
  | some l =>
    onlyIf (receives s) (fun s =>
      mirror (.milmoState [.leaseEnd true l.id l.peer]) { s with ice := { s.ice with leases := s.ice.leases.filter (fun x => x != l) } }) s

/-- A calendar slot admits a receiver (R354). -/
def admits (p q frame slot : Nat) : Bool := decide (((q + 4096 - p) % 4096) % 250 = (slot + frame) % 250)

/-- CALENDAR_SLOT (R354): the slot of the device's PTP time begins; bulk under leases that follow the calendar goes to the receivers it
admits. -/
def execCalendarSlot (frame slot : Nat) (s : State) : Result :=
  onlyIf (receives s && calendarOn s && s.ptp.locked && decide (frame = s.now / 1000000) && decide (slot = s.now % 1000000 / 4000)) (fun s =>
    let t := { s with ice := { s.ice with calSlot := some (frame, slot) } }
    ((t.ice.leases.filter (fun l => (leaseFor t l.peer l.queue).isSome && followsCalendar t l && admits (mySlot t) l.peer frame slot))).foldl
      (fun u l => flushBulk l.peer l.queue u) t) s

/-! ### Listing (R357) -/

/-- LISTING_GATHER_REQUEST (R193, R357). -/
def execListingGatherRequest (h : Hdr) (b : GatherB) (s : State) : Result := gram h (.gatherRequest b) (onGatherRequest h.slot b) s

/-- LISTING_GATHER_REPLY (R357). -/
def execListingGatherReply (h : Hdr) (b : GatherB) (s : State) : Result := gram h (.gatherReply b) (takeGather h.slot b) s

/-- The gather that waits for a slot at least 1 ms, with fewer than 3 resends so far. -/
def gatherDue (s : State) (id slot : Nat) : Option Gather :=
  match gatherBy s id with
  | some g => if g.asked.any (fun a => a.1 == slot && decide (a.2.1 < 3) && decide (a.2.2 + 1000000 ≤ s.now)) then some g else none
  | none => none

/-- LISTING_GATHER_RESEND (R357): the request goes again, from the slot's own cursor where it has sent keys before. -/
def execListingGatherResend (id slot : Nat) (s : State) : Result :=
  match gatherDue s id slot with
  | none => .next s
  | some g =>
    onlyIf (receives s) (fun s =>
      let from_ : Option (List Byte) := if g.entries.isEmpty then none else (g.more.find? (fun m => m.1 == slot)).map (fun m => m.2.2)
      settle (milmo slot 5 (.gatherRequest (gatherAsk g from_)) (onGather id (fun g => { g with
        asked := g.asked.map (fun a => if a.1 = slot then (a.1, a.2.1 + 1, s.now) else a) }) s))) s

/-! ### SHED at a holder (R300) -/

/-- SHED_RECORD (R136, R300): the coordinator's SHED record reaches a holder, which computes and journals its released grains. -/
def execShedRecord (from_ ns : Nat) (key : Key) (version off len : Nat) (s : State) : Result :=
  onlyIf (running s && holdsPair s) (fun s => settle (onShedRecord from_ ns key version off len s)) s

/-! ### Rime engines (R224, R228, R229) -/

/-- Result of a filter over a string: the number of bytes after which it matched, none without a match (R224). -/
def rimeResult (x : RString) : Option Nat := runImage x.image x.input

/-- A Filtered Retrieve ends with its engine's result: Dword 0 bit 0 the match and bit 1 whether the value follows, Dword 1 the value
offset of the match, 0 for a match at the empty string (R126); the value goes to the buffer where option bit 0 asks for it and the
filter matched. -/
def filteredDone (r : ERead) (x : RString) (s : State) : State :=
  match recIn r 0 with
  | none => s
  | some b =>
    let m := rimeResult x
    let back := r.opts.testBit 0 && m.isSome
    let value := ((r.got.find? (fun g => g.1 == 0 && g.2.1 == 0)).map (fun g => g.2.2)).getD []
    answerRead r stOk (bit m.isSome 0 + bit back 1) (match m with | some n => if n = 0 then 0 else x.off + n | none => 0)
      (if back then (objHeader b ++ value).take r.buf else []) s

/-- RIME_STRING_END (R224, R228): the engine delivers its result and takes the next string that waits. -/
def execRimeStringEnd (engine : Nat) (s : State) : Result :=
  match aGet engine s.rime.busy with
  | none => .next s
  | some x =>
    let t := { s with rime := { s.rime with busy := aDel engine s.rime.busy } }
    let u := match x.owner with
      | .read id => (match readBy t id with | some r => filteredDone r x t | none => t)
      | .key scan i => settle (keyScanned scan i (rimeResult x).isSome t)
    .next (nextStrings (u.rime.waiting.length + 1) u)

/-- RIME_ENGINE_STALL (R229): no step for 10 µs with input waiting: 0x9210 and a critical-path miss; the engine is held out and
tested, and its string starts again on another. -/
def execRimeEngineStall (engine : Nat) (s : State) : Result :=
  match aGet engine s.rime.busy with
  | none => .next s
  | some x =>
    onlyIf (decide (x.at_ + 10000 ≤ s.now)) (fun s =>
      let p := pathX 0x17 engine
      let a := missAndJudge (record 0x9210 (pathMonitor 0) [] s)
      startTest { mem := 255, path := p, idx := engine, kind := 9, addr := 0 } 0 (engineOut engine a)) s

end Sys2Proof.Machine
end

