-- ==== Sys2Proof/Machine/CopyOps.lean ====
section
/-! DEFINITION. Join copies of the ACTIVE (R187, R424): everything Table 10.6 mirrors, as it stands, in the frames of the three
stages. -/

namespace Sys2Proof.Machine

/-! ### Firn (J1) -/

/-- What the twin is told of a spill set: the flush it holds, and that it is erased; nothing of a set that is neither (R269, R270). -/
def spillRecords (n : Nat) (s : State) : List JRec :=
  let x := spillSet s n
  match x.state with
  | 0 => if n = s.media.lastSet then [.flush x.flush n true, .flush x.flush n false] else [.flush x.flush n false]
  | 1 => if x.complete then [.flush x.flush n true] else []
  | _ => []

/-- Every journaled object as the record that sets it (Table 10.6). -/
def firnRecords (s : State) : List JRec :=
  ([s.kw.firn.map JRec.kw, s.kw.items.map JRec.item, s.ice.recs.map JRec.co, s.ice.floors.map (fun p => JRec.floor p.1 p.2),
    (s.kw.runs.flatMap (fun r => r.entries)).map JRec.ledger, s.kw.deltas.map JRec.ledger, s.media.sbs.map JRec.sb, [JRec.counter s.media.counter],
    spillRecords (1 - s.media.lastSet) s, spillRecords s.media.lastSet s,
    s.media.pe.map (fun x => JRec.pe x.1 x.2.1 x.2.2), s.media.bad.map (fun x => JRec.bad x.1 x.2),
    s.media.drift.map (fun x => JRec.drift x.1 x.2.1 (x.2.2.1 + 2 ^ 60 * x.2.2.2)), s.sec.salts.map (fun x => JRec.salt x.1 x.2),
    [JRec.incarnation s.ice.inc], s.ice.intents.map JRec.storeIntent, s.kw.purging.map (fun p => JRec.purge p.1 true)] : List (List JRec)).flatten

/-- Opcode of a reading command by its kind. -/
def readOpcode (kind : Nat) : Nat :=
  match kind with
  | 0 => 0x02 | 1 => 0x14 | 2 => 0x82 | 3 => 0x88 | 4 => 0x86 | 5 => 0x8E | _ => 0x90

/-- Commands of a connection that are in flight, as capsules; a changing command travels as its pending Store record. -/
def capsOf (s : State) (c : Conn) : List Cap :=
  let rs : List Cap := (s.ice.readsE.filter (fun r => r.conn == c.idx && r.kind != 6)).map (fun r =>
    let q : Sqe := match r.kind with
      | 5 => mkSqe c.idx 0x8E r.cid r.ns 0 r.key 32 r.opts 0 (r.expected % 2 ^ 32) (r.expected / 2 ^ 32) 0 r.buf
      | 7 => mkSqe c.idx 0x90 r.cid r.ns 0 r.key r.off r.opts 0 r.len 0 r.expected 0
      | _ => mkSqe c.idx (readOpcode r.kind) r.cid r.ns 0 r.key r.buf r.opts r.handle r.off r.len 0 r.buf
    { opc := readOpcode r.kind, q := q, key := r.key, filter := r.filter })
  let gs : List Cap := (s.ice.gathers.filter (fun g => g.conn == c.idx)).map (fun g =>
    if g.pattern then
      let h := if g.source.isEmpty then 0 else 1
      let q := mkSqe c.idx 0x8A g.cid g.ns 0 g.cursor g.buf 0 h 0 0 0 g.buf
      { opc := 0x8A, q := { q with dws := q.dws.set 11 (2 ^ 16 * h) }, key := [], filter := if h = 0 then none else some { precompiled := false, source := g.source, image := [] } }
    else { opc := 0x06, q := mkSqe c.idx 0x06 g.cid g.ns 0 g.startKey g.buf 0 0 0 0 0 g.buf, key := g.startKey, filter := none })
  let cs : List Cap := match c.carrier with
    | some (cid, ns, key, _) => [{ opc := 0x8D, q := mkSqe c.idx 0x8D cid ns 1 [] 264 0 0 0 0 0 264, key := key, filter := none }]
    | none => []
  let es : List Cap := match s.host.ctrls.find? (fun x => x.id == c.cntl) with
    | some x => if c.qid = 0 then x.aers.map (fun n => { opc := 0x0C, q := mkSqe c.idx 0x0C n 0 0 [] 0 0 0 0 0 0 0, key := [], filter := none }) else []
    | none => []
  rs ++ gs ++ cs ++ s.ward.waits.filter (fun w => w.q.conn == c.idx) ++ es

/-- Transport tables: every connection of a service address with its commands in flight. -/
def transportTable (s : State) : List TEntry :=
  (s.host.conns.filter (fun c => ! c.mgmt)).flatMap (fun c =>
    [TEntry.select c.idx, .openConn (connSt s c)] ++ (capsOf s c).map .capsule)

/-- Milmo tables (Table 10.6). -/
def milmoTable (s : State) : List MState :=
  let own : List MState := match s.ice.slot with
    | some me => [.view { slot := me, state := s.ice.own, suspected := false, inc := s.ice.inc, time := s.now, marker := 0, left := 0 }]
    | none => []
  ([s.ice.view.map MState.view, own, s.ice.granted.map (MState.lease false), s.ice.leases.map (MState.lease true), s.ice.windows.map MState.window,
    [MState.storeCounter s.ice.storeId], s.ice.stores.map MState.pendingStore, s.ice.finals.map (fun f => MState.final f.1 f.2)] : List (List MState)).flatten

/-! ### Cornice (J2) and Keyway (J3) -/

/-- Slot writes that set a granule as it stands: its valid entries, and the marks of its buckets. -/
def granuleWrites (k : Keyway) (g : Nat) : List SlotWrite :=
  (k.slots.filter (fun p => granuleOf (p.1 / 4) == g)).map (fun p => ⟨p.1 / 4, p.1 % 4, some p.2, k.marks.contains (p.1 / 4)⟩)
    ++ ((k.marks.filter (fun b => granuleOf b == g && (slotAt k b 0).isNone)).map (fun b => ⟨b, 0, none, true⟩))

/-- Granules that hold anything. -/
def usedGranules (k : Keyway) : List Nat :=
  (k.slots.map (fun p => granuleOf (p.1 / 4)) ++ k.marks.map granuleOf).foldl (fun l x => sIns x l) []

/-- The copies of a join, stage by stage: 0x30 with settings, stage 1; 0x31 in frames of 16 grains, stage 2; 0x32 in frames of 2 048
slots, stage 3. The units are MiB of Firn, Cornice grains and granules (Table 10.20; R187, R424). -/
def sendCopies (s : State) : State :=
  let a := mirrorSettings (sendFrame (.copyFirn (firnRecords s) (transportTable s) s.twin.ops (milmoTable s)) s)
  let b := sendFrame (.joinStage 1 2048) a
  let c := (pieces 16 s.kw.cornice.length s.kw.cornice).foldl (fun t gs => sendFrame (.copyCornice gs) t) b
  let d := sendFrame (.joinStage 2 s.kw.cornice.length) c
  let e := (usedGranules s.kw).foldl (fun t g =>
    (pieces 2048 (s.kw.slots.length + s.kw.marks.length) (granuleWrites s.kw g)).foldl (fun t ws => sendFrame (.copyGranule g s.kw.jseq ws) t) t) d
  let f := sendFrame (.joinStage 3 (usedGranules s.kw).length) e
  { f with twin := { f.twin with ackMissed := false, joinStage := 0 } }

/-- Whether the twin waits to join: its last Status, or its Hello before any, shows a STANDBY that is not shutting down. -/
def twinJoins (s : State) : Bool :=
  match s.twin.status with
  | some x => x.role == .standby && ! x.shutdown
  | none => match s.twin.twinHello with | some h => h.state == .standby | none => false

/-- A join begins: only an ACTIVE in a session copies to a twin that waits for it. -/
def beginCopies (s : State) : State :=
  if s.twin.session && s.twin.roleState == .active && s.twin.refused.isNone && twinJoins s then sendCopies s else s

end Sys2Proof.Machine
end

