-- ==== Sys2Proof/Machine/MemberFamily.lean ====
section
/-! DEFINITION. Meanings of the membership commands: probes and their timers, views, loss, closing and reopening (R307 to R309,
R332 to R338). -/

namespace Sys2Proof.Machine

/-- Slots drawn at random: distinct, eligible, as many as asked or as there are (R332). -/
def drawn (n : Nat) (eligible picks : List Nat) : Bool :=
  decide picks.Nodup && picks.all (fun x => eligible.contains x) && decide (picks.length = min n eligible.length)

/-- PROBE_TIMER (R332): every 10 ms 4 slots are probed. While an own change of state is to be announced, this pair joins the groups
of the bins it ranks in (R320). -/
def execProbeTimer (targets : List Nat) (s : State) : Result :=
  onlyIf (receives s && decide (s.ice.probeAt + 10000000 ≤ s.now) && drawn 4 (aliveOthers s) targets) (fun s =>
    let a := if 0 < s.ice.ownLeft then refreshGroups s else s
    settle (targets.foldl (fun t x => probeSlot x t) { a with ice := { a.ice with probeAt := s.now } })) s

/-- A probe of this pair's own choice that has had no answer for 1 ms. -/
def silentProbe (s : State) (pid : Nat) : Option Probing :=
  s.ice.probes.find? (fun p => p.pid == pid && p.helper.isNone && p.result == 0 && decide (p.at_ + 1000000 ≤ s.now))

/-- Mark probes failed, and judge the own isolation (R337). -/
def probeFailed (f : Probing → Bool) (s : State) : State :=
  judgeIsolation { s with ice := { s.ice with probes := updIf f (fun p => { p with result := 2 }) s.ice.probes } }

/-- PROBE_ACK_TIMEOUT (R332, R337): the direct probe has failed; 3 other slots are asked to probe. -/
def execProbeAckTimeout (pid : Nat) (helpers : List Nat) (s : State) : Result :=
  match silentProbe s pid with
  | none => .next s
  | some p =>
    onlyIf (receives s && drawn 3 ((aliveOthers s).filter (· != p.target)) helpers) (fun s =>
      settle (probeBy p.target pid helpers (probeFailed (fun q => q == p) s))) s

/-- The direct probe of an identifier failed at least 3 ms ago, and every helper has had its 3 ms. -/
def relayOver (s : State) (pid : Nat) : Option Nat :=
  match s.ice.probes.find? (fun p => p.pid == pid && p.helper.isNone && p.result == 2 && decide (p.at_ + 4000000 ≤ s.now)) with
  | some p =>
    if s.ice.probes.all (fun q => q.pid != pid || q.helper.isNone || q.result != 0 || decide (q.at_ + 3000000 ≤ s.now)) then some p.target else none
  | none => none

/-- PROBE_REQUEST_TIMEOUT (R332, R337): without any relayed answer the target carries the suspected mark, 0x5010; an isolated pair
marks no slot. -/
def execProbeRequestTimeout (pid : Nat) (s : State) : Result :=
  match relayOver s pid with
  | none => .next s
  | some x =>
    onlyIf (receives s) (fun s =>
      let heard := s.ice.probes.any (fun q => q.pid == pid && q.helper.isSome && q.result == 1)
      let t := probeFailed (fun q => q.pid == pid && q.helper.isSome && q.result == 0) s
      settle (if heard ∨ t.ice.isolated then t else suspect x t)) s

/-- LOSS_TIMEOUT (R336): the pair that marked a slot first declares it LOST, 0x5011. -/
def execLossTimeout (slot : Nat) (s : State) : Result :=
  match viewOf s slot, rosterOf s with
  | some v, some r =>
    onlyIf (receives s && ! s.ice.isolated && v.suspected && alive v.state && s.ice.slot == some v.marker && decide (v.time + secNs r.lossS ≤ s.now)) (fun s =>
      settle (changeView (putView { slot := slot, state := .lost, suspected := false, inc := v.inc, time := s.now } v.marker)
        (record 0x5011 (pathSlot slot) (le 2 slot) s))) s
  | _, _ => .next s

/-- DIGEST_TIMER (R335): every 1 s the digest of the view goes to one random slot. -/
def execDigestTimer (slot : Nat) (s : State) : Result :=
  onlyIf (receives s && decide (s.ice.digestAt + 1000000000 ≤ s.now) && (aliveOthers s).contains slot) (fun s =>
    milmo slot 7 (.viewDigest (viewDigestOf s)) { s with ice := { s.ice with digestAt := s.now } }) s

/-- Ask the next roster slot for its view (R309). -/
def askView (s : State) : State :=
  match ((rosterSlots s).filter (fun x => s.ice.slot != some x))[s.ice.syncTries]? with
  | some x => milmo x 7 (.viewSync []) { s with ice := { s.ice with syncTries := s.ice.syncTries + 1, syncAt := s.now } }
  | none => s

/-- VIEW_SYNC_RETRY (R309): the next of up to 3 slots is asked after 1 s; after 10 s without a view the pair forms its own, with
every other slot ABSENT. -/
def execViewSyncRetry (s : State) : Result :=
  onlyIf (hears s && ! s.ice.viewed && decide (s.ice.syncAt + 1000000000 ≤ s.now)) (fun s =>
    if s.ice.syncFrom + 10000000000 ≤ s.now then { s with ice := { s.ice with viewed := true, view := [] } }
    else if s.ice.syncTries < 3 then askView s
    else s) s

/-- PLACING_REANNOUNCE (R308): a CLOSED pair whose causes have ended announces PLACING again once it has been closed for 10 min, its
Keyway holds fewer than 0.98 times the admission limit and its free count is above the floor. -/
def execPlacingReannounce (s : State) : Result :=
  onlyIf (receives s && s.ice.own == .closed && (causesNow s).isEmpty && decide (s.ice.closedAt + secNs 600 ≤ s.now)
      && decide (100 * entries s.kw < 98 * admissionLimit s.kw.dram) && decide (threshold s (mediaOf s).floor < freeF s)) (fun s =>
    refreshGroups (refreshItems (refreshWaiting (announceOwn .placing { s with ice := { s.ice with causes := [], causesEnded := none } })))) s

/-- PROBE (R332, R333). -/
def execProbe (h : Hdr) (b : ProbeB) (s : State) : Result := gram h (.probe b) (onProbe h b) s

/-- PROBE_ACK (R332, R333). -/
def execProbeAck (h : Hdr) (b : ProbeB) (s : State) : Result := gram h (.probeAck b) (onProbeAck h b) s

/-- PROBE_REQUEST (R332). -/
def execProbeRequest (h : Hdr) (b : ProbeB) (s : State) : Result := gram h (.probeRequest b) (onProbeRequest h b) s

/-- VIEW_DIGEST (R335). -/
def execViewDigest (h : Hdr) (d : Nat) (s : State) : Result := gram h (.viewDigest d) (onViewDigest h.slot d) s

/-- VIEW_SYNC (R309, R335). -/
def execViewSync (h : Hdr) (us : List MUpdate) (s : State) : Result :=
  onlyIf (hears s) (onGram h (.viewSync us) (fun t => settle (onViewSync h.slot us t))) s

/-- Type codes of Table 8.5. -/
def milmoTypes : List Nat :=
  [0x01, 0x02, 0x03, 0x04, 0x05, 0x10, 0x11, 0x12, 0x13, 0x14, 0x15, 0x16, 0x17, 0x18, 0x20, 0x21, 0x22, 0x23, 0x24, 0x25, 0x26, 0x27, 0x28,
   0x29, 0x30, 0x31, 0x32, 0x33, 0x40, 0x41, 0x50, 0x60]

/-- MILMO_INVALID_TYPE (R360, R18): a datagram of an undefined type is dropped and counted, and so is one of a defined type that
fails a check of R360. -/
def execMilmoInvalidType (h : Hdr) (body : List Byte) (s : State) : Result :=
  onlyIf (receives s) (fun s =>
    if ! milmoTypes.contains h.type then dropGram 0 s
    else match accept h (h.type, body) s with
      | (none, t) => t
      | (some _, _) => s) s

end Sys2Proof.Machine
end

