-- ==== Sys2Proof/Machine/CfgImage.lean ====
section
/-! DEFINITION. Configuration images as bytes: their records, the settings the records give, and the checks of Table 14.4 that read them
(R201 to R204, R452, R543 to R570). -/

namespace Sys2Proof.Machine

/-! ### Body and records (R553, Table 14.6) -/

/-- A record of an image's body: type, length, body, and the padding behind it. -/
structure CfgRecord where
  type : Nat
  len : Nat
  body : List Byte
  pad : List Byte
  deriving DecidableEq, Repr

/-- The records of a body in turn, with the type of one that runs past the body (0 where no whole record header is left). -/
def walkRecords : Nat → List Byte → List CfgRecord × Option Nat
  | 0, bs => ([], if bs.isEmpty then none else some 0)
  | f + 1, bs =>
    let len := leAt bs 4 4
    let n := 8 + ceilDiv len 8 * 8
    if bs.isEmpty then ([], none)
    else if bs.length < 8 then ([], some 0)
    else if bs.length < n then ([], some (leAt bs 0 2))
    else
      let x := walkRecords f (bs.drop n)
      (⟨leAt bs 0 2, len, (bs.drop 8).take len, (bs.drop (8 + len)).take (n - 8 - len)⟩ :: x.1, x.2)

/-- Records of an image, and where its walk ends. -/
def recordsOf (i : Image) : List CfgRecord × Option Nat := walkRecords (i.body.length / 8 + 1) i.body

/-- Body of a record that is present. -/
def recBody (i : Image) (t : Nat) : Option (List Byte) := ((recordsOf i).1.find? (fun r => r.type == t)).map (·.body)

/-- A record type is read under a format: under 1.x only Identity, Network and Security are (Table 14.22). -/
def readsType (major t : Nat) : Bool := decide (2 ≤ major) || t == 1 || t == 2 || t == 0x0B

/-- Body of a record that is present and read (R554, R569). -/
def readBody (i : Image) (t : Nat) : Option (List Byte) := if readsType i.major t then recBody i t else none

/-! ### Field forms -/

/-- Numbers of the bits that are set in a field of `n` bits. -/
def setBits (n v : Nat) : List Nat := (List.range n).filter (fun k => v.testBit k)

/-- A signed field of 32 bits. -/
def signed32 (v : Nat) : Int := (BitVec.ofNat 32 v).toInt

/-- UTF-8 text; none where the bytes spell none. -/
def utf8 : Nat → List Byte → Option (List Char)
  | _, [] => some []
  | 0, _ :: _ => none
  | f + 1, b :: r =>
    let more (n : Nat) (v lo : Nat) : Option (List Char) :=
      let cs := r.take n
      let x := cs.foldl (fun a c => 64 * a + c.toNat % 64) v
      if cs.length = n ∧ cs.all (fun c => c.toNat / 64 == 2) ∧ lo ≤ x ∧ x < 0x110000 ∧ ¬ (0xD800 ≤ x ∧ x < 0xE000) then
        (utf8 f (r.drop n)).map (Char.ofNat x :: ·)
      else none
    let v := b.toNat
    if v < 0x80 then (utf8 f r).map (Char.ofNat v :: ·)
    else if 0xC0 ≤ v ∧ v < 0xE0 then more 1 (v % 32) 0x80
    else if 0xE0 ≤ v ∧ v < 0xF0 then more 2 (v % 16) 0x800
    else if 0xF0 ≤ v ∧ v < 0xF8 then more 3 (v % 8) 0x10000
    else none

/-- Text of a zero-padded field: what stands before its first zero. -/
def textOf (bs : List Byte) : Option String :=
  (utf8 bs.length (bs.takeWhile (fun b => b != 0#8))).map String.ofList

/-- Nothing but zeros follows the text of a field. -/
def zeroPadded (bs : List Byte) : Bool := (bs.dropWhile (fun b => b != 0#8)).all (fun b => b == 0#8)

/-! ### Records as settings (Tables 14.7 to 14.21, 12.5, 5.2, 5.3) -/

/-- Table 14.9. -/
def macSetting (w : Nat) : MacCfg :=
  { vlan := w % 4096, untagged := w.testBit 12, milmo := w.testBit 13, ptp := w.testBit 14, mcast := w.testBit 15 }

/-- Table 14.8. -/
def netRecord (b : List Byte) : NetRec :=
  { v6 := (leAt b 0 1).testBit 0, v4 := (leAt b 0 1).testBit 1, tcp := (leAt b 1 1).testBit 0, rdma := (leAt b 1 1).testBit 1
    port := leAt b 2 2, svcMac := beAt b 6 6, svc4 := beAt b 12 4, svc6 := beAt b 16 16, dev4 := (beAt b 52 4, beAt b 56 4)
    dev6 := (beAt b 64 16, beAt b 80 16), sgmii := leAt b 98 1 == 1, ptpPeer := leAt b 99 1 == 1, ptpTransport := leAt b 100 1
    ptpDomain := leAt b 101 1, lossless := setBits 8 (leAt b 102 1)
    groupModes := (List.range 4).map (fun n => leAt b (104 + n) 1), groupConn := (List.range 4).map (fun n => leAt b (108 + n) 1)
    marks := (List.range 8).map (fun q => let w := leAt b (112 + 2 * q) 2; (w % 8, w / 8 % 64))
    macs := (List.range 16).map (fun i => macSetting (leAt b (128 + 4 * i) 4))
    prefix6 := leAt b 4 1, prefix4 := leAt b 5 1, router6 := beAt b 32 16, router4 := beAt b 48 4, devPrefix4 := leAt b 96 1
    devPrefix6 := leAt b 97 1 }

/-- Table 14.10; expected position bit 16t + l of channel c is die 64c + 16t + l (R231). -/
def geoRecord (b : List Byte) : GeoRec :=
  { soloBus := leAt b 0 1 == 1, jedec := leAt b 1 1 == 1, rate := leAt b 2 2, bits := leAt b 4 1, planes := leAt b 5 1, page := leAt b 6 2
    spare := leAt b 8 2, pages := leAt b 10 2, blocks := leAt b 12 4, gbit := leAt b 16 4
    absentDies := (List.range 128).flatMap (fun c =>
      let w := leAt b (24 + 8 * c) 8
      ((List.range 64).filter (fun k => ! w.testBit k)).map (64 * c + ·)) }

/-- Table 14.11; the fields a format 2.0 record lacks take their defaults (Table 14.5). -/
def powRecord (b : List Byte) : PowRec :=
  { capMf := leAt b 0 4, vCut := leAt b 4 2, vFull := leAt b 6 2, iT := leAt b 8 2, esr := leAt b 10 2, eFix := leAt b 12 2, eGib := leAt b 14 2
    eMin := leAt b 16 2, periodH := leAt b 18 2, budget := leAt b 20 4, thaw := leAt b 24 2, idle := leAt b 26 2, cRead := leAt b 28 1
    cTlc := leAt b 29 1, cSlc := leAt b 30 1, cErase := leAt b 31 1, cX24 := leAt b 32 1, cX36 := leAt b 33 1, cWake := leAt b 34 1
    intervalMs := if b.length = 40 then powDefault.intervalMs else leAt b 40 4
    dormant := if b.length = 40 then powDefault.dormant else (leAt b 44 1).testBit 0 }

/-- Table 14.13. -/
def rosterSlot (e : List Byte) : RosterEntry :=
  { slot := leAt e 0 2, pair := leAt e 12 8, zone := leAt e 4 2, rack := leAt e 6 2, feed := leAt e 8 2, retiring := (leAt e 2 2).testBit 0
    a4 := if (leAt e 2 2).testBit 2 then some (beAt e 20 4) else none
    a6 := if (leAt e 2 2).testBit 1 then some (beAt e 24 16) else none }

/-- Slices of `n` bytes from an offset on, `c` of them. -/
def slices (b : List Byte) (o n c : Nat) : List (List Byte) := (List.range c).map (fun i => (b.drop (o + n * i)).take n)

/-- Table 14.12. -/
def rosterRecord (b : List Byte) : Roster :=
  { ident := leAt b 0 2, port := leAt b 2 2, lossS := leAt b 6 2, calThr := leAt b 8 2, inBulk := leAt b 10 2, outBulk := leAt b 12 2
    mcast := (leAt b 14 1).testBit 0, p0 := BitVec.ofNat 64 (leAt b 16 8), p1 := BitVec.ofNat 64 (leAt b 24 8)
    slots := (slices b 32 48 (leAt b 4 2)).map rosterSlot }

/-- Entries of the Namespaces record with their offsets: each is as long as it says (Table 14.14). -/
def nsSlices : Nat → Nat → List Byte → List (Nat × List Byte)
  | 0, _, _ => []
  | n + 1, o, b => let l := leAt b (o + 2) 2; (o, (b.drop o).take l) :: nsSlices n (o + l) b

/-- Entries of a Namespaces record. -/
def nsEntries (b : List Byte) : List (Nat × List Byte) := nsSlices (leAt b 0 2) 8 b

/-- Failure-domain level of a code (Table 14.14). -/
def domOfCode (c : Nat) : DomLevel := match c with | 0 => .zone | 1 => .rack | _ => .feed

/-- Host NQN fields of an entry. -/
def hostFields (e : List Byte) : List (List Byte) := slices e 48 224 (leAt e 40 2)

/-- Table 14.14. -/
def nsRecord (e : List Byte) : NsEntry :=
  { id := leAt e 0 2
    pol := { k := leAt e 4 1, m := leAt e 5 1, thr := leAt e 6 1, ack := leAt e 7 1, dom := domOfCode (leAt e 8 1), qos := leAt e 9 1 }
    maxKey := leAt e 10 1, redirect := (leAt e 11 1).testBit 0, bankSet := setBits 64 (leAt e 16 8)
    q0 := BitVec.ofNat 64 (leAt e 24 8), q1 := BitVec.ofNat 64 (leAt e 32 8), hosts := (hostFields e).filterMap textOf }

/-- Table 5.2: an absent field keeps the namespace's own. -/
def actionRecord (a : List Byte) : WardAction :=
  let m := leAt a 0 1
  { km := if m.testBit 0 then some (leAt a 1 1, leAt a 2 1) else none
    thr := if m.testBit 1 then some (leAt a 3 1) else none
    ack := if m.testBit 2 then some (leAt a 4 1) else none
    qos := if m.testBit 3 then some (leAt a 5 1) else none }

/-- Table 5.3. -/
def imageRecord (e : List Byte) : WardImage :=
  { bank := leAt e 0 1, entry := leAt e 2 2
    e := { prio := leAt e 4 2, action := leAt e 6 2, value := BitVec.ofNat 128 (leAt e 8 16), mask := BitVec.ofNat 128 (leAt e 24 16) } }

/-- Table 14.15. -/
def wardRecord (b : List Byte) : WardRec :=
  let na := leAt b 64 2
  { cascade := (List.range 64).map (fun j => leAt b j 1)
    actions := (slices b 72 16 na).map actionRecord
    images := (slices b (72 + 16 * na) 40 (leAt b 68 4)).map imageRecord }

/-- Table 14.16. -/
def limRecord (b : List Byte) : LimRec :=
  { rate := leAt b 0 2, burst := leAt b 2 2
    overs := (slices b 8 8 (leAt b 4 2)).map (fun e => { code := leAt e 0 2, rate := leAt e 2 2, burst := leAt e 4 2 }) }

/-- Table 14.17; a format 2.0 record ends before the spare threshold. -/
def mediaRecord (b : List Byte) : MediaRec :=
  { sweepDays := leAt b 0 2, rdThr := leAt b 4 4, rdSpill := leAt b 8 4, spread := leAt b 12 2, goal := leAt b 14 2, floor := leAt b 16 2
    reserve := leAt b 18 2, spare := leAt b 20 2, spareThr := if b.length = 22 then mediaDefault.spareThr else leAt b 22 2 }

/-- Table 14.18. -/
def hingeRecord (b : List Byte) : HingeRec :=
  { twin := leAt b 0 1 == 1, netLoss := (leAt b 1 1).testBit 0, missLimit := leAt b 2 1, windowMs := leAt b 4 2, serialA := leAt b 8 8
    serialB := leAt b 16 8 }

/-- Table 12.5. -/
def pkgRecord (p : List Byte) : KeyPkg :=
  { serial := leAt p 0 8, pair := leAt p 8 8, contents := leAt p 16 1, gen := leAt p 17 1, epoch := leAt p 20 4, ephemeral := (p.drop 24).take 97
    iv := (p.drop 124).take 12, wrapped := (p.drop 136).take 64, tag := (p.drop 200).take 16, rootCheck := leAt p 216 4, fieldCheck := leAt p 220 4 }

/-- Table 14.19; the successor is a hash as the number its bytes spell. -/
def secRecord (b : List Byte) : SecRec :=
  { erase := (leAt b 1 1).testBit 0, windowH := leAt b 2 2, rekey := leAt b 4 4, successor := beAt b 8 48
    pkgs := (slices b 64 224 (leAt b 0 1)).map pkgRecord }

/-- Tables 14.20 and 14.21. -/
def gaugeRecord (b : List Byte) : GaugeRec :=
  { div := leAt b 0 2
    ins := (slices b 4 16 16).map (fun e =>
      { fn := leAt e 0 1, rail := leAt e 1 1, scale := signed32 (leAt e 4 4), offset := signed32 (leAt e 8 4), fail := leAt e 12 4 }) }

/-! ### Defaults of absent records, and the settings in force (R554, R569) -/

def wardDefault : WardRec := ⟨List.replicate 64 1, [], []⟩
def limDefault : LimRec := { rate := 10, burst := 20, overs := [] }
def hingeDefault : HingeRec := { twin := true, netLoss := true, missLimit := 4, windowMs := 1, serialA := 0, serialB := 0 }
def secDefault : SecRec := { erase := false, windowH := 24, rekey := 0, successor := 0, pkgs := [] }
def gaugeDefault : GaugeRec :=
  { div := 16, ins := List.replicate 16 { fn := 0, rail := 0, scale := 0, offset := 0, fail := 0 } }

/-- A record as its reader reads it, or its default. -/
def recordOr {α : Type} (i : Image) (t : Nat) (read : List Byte → α) (dflt : α) : α := match readBody i t with | some b => read b | none => dflt

/-- The settings an image gives: absent and skipped records take their defaults (R554, R569). -/
def effective (i : Image) : Cfg :=
  { pair := i.pair, seq := i.seq, name := recordOr i 1 (fun b => (textOf ((b.drop 8).take 32)).getD "") ""
    net := recordOr i 2 netRecord (netRecord []), geo := recordOr i 3 geoRecord geoDefault, pow := recordOr i 4 powRecord powDefault
    roster := (readBody i 5).map rosterRecord, nss := recordOr i 6 (fun b => (nsEntries b).map (fun e => nsRecord e.2)) []
    ward := recordOr i 7 wardRecord wardDefault, lim := recordOr i 8 limRecord limDefault, media := recordOr i 9 mediaRecord mediaDefault
    hinge := recordOr i 0x0A hingeRecord hingeDefault, sec := recordOr i 0x0B secRecord secDefault
    gauge := recordOr i 0x0C gaugeRecord gaugeDefault }

/-! ### Faults of an image: record type and field offset (R545) -/

/-- Where a fault of an image lies: record type, 0 for the header, and offset within the record's body. -/
abbrev Place := Nat × Nat

/-- The first field of a list that does not hold. -/
def firstBad (t : Nat) (fs : List (Nat × Bool)) : Option Place := (fs.find? (fun f => ! f.2)).map (fun f => (t, f.1))

/-- The first fault of several checks in turn. -/
def firstFault (fs : List (Option Place)) : Option Place := fs.findSome? id

/-- `lo ≤ v ≤ hi`. -/
def within (v lo hi : Nat) : Bool := decide (lo ≤ v) && decide (v ≤ hi)

/-! ### Structure (reason 11; R553, R570, Table 14.5) -/

/-- Length of a record's body in the image's format; none where the format gives none (records skipped unread, R570). -/
def recLength (major minor t : Nat) (b : List Byte) : Option Nat :=
  match t with
  | 0x01 => some 48
  | 0x02 => some 192
  | 0x0B => some (64 + 224 * leAt b 0 1)
  | _ =>
    if major = 1 then none
    else match t with
      | 0x03 => some 1048
      | 0x04 => some (if minor = 0 then 40 else 48)
      | 0x05 => some (32 + 48 * leAt b 4 2)
      | 0x06 => some (8 + sumL ((nsEntries b).map (fun e => leAt b (e.1 + 2) 2)))
      | 0x07 => some (72 + 16 * leAt b 64 2 + 40 * leAt b 68 4)
      | 0x08 => some (8 + 8 * leAt b 4 2)
      | 0x09 => some (if minor = 0 then 22 else 32)
      | 0x0A => some 32
      | 0x0C => some 260
      | _ => none

/-- The first place of a list whose number does not exceed the one before it. -/
def notRising : List (Nat × Nat) → Option Nat
  | a :: b :: r => if a.2 < b.2 then notRising (b :: r) else some b.1
  | _ => none

/-- The first place of a list whose number stands at an earlier place. -/
def repeatedAt : List Nat → List (Nat × Nat) → Option Nat
  | _, [] => none
  | seen, a :: r => if seen.contains a.2 then some a.1 else repeatedAt (a.2 :: seen) r

/-- Offsets of a list's entries beside a number of each. -/
def numbered (o n : Nat) (vs : List Nat) : List (Nat × Nat) := vs.zipIdx.map (fun v => (o + n * v.2, v.1))

/-- Entries of a record that is read which do not ascend, or repeat what must be unique. -/
def listFault (t : Nat) (b : List Byte) : Option Nat :=
  match t with
  | 0x05 =>
    let es := (rosterRecord b).slots
    (notRising (numbered 32 48 (es.map (·.slot)))).or (repeatedAt [] (numbered 44 48 (es.map (·.pair))))
  | 0x06 => notRising ((nsEntries b).map (fun e => (e.1, leAt e.2 0 2)))
  | 0x08 => notRising (numbered 8 8 ((limRecord b).overs.map (·.code)))
  | 0x0B => repeatedAt [] (numbered 64 224 ((secRecord b).pkgs.map (·.serial)))
  | _ => none

/-- The first fault of an image's structure, in the order in which R553 lists them. A fault of a record header gives offset 0 (log 12). -/
def structureFault (i : Image) : Option Place :=
  let w := recordsOf i
  let rs := w.1
  firstFault [
    (notRising (rs.map (fun r => (r.type, r.type)))).map (fun t => (t, 0)),
    (rs.find? (fun r => ! within r.type 1 0x0C)).map (fun r => (r.type, 0)),
    if rs.length = i.count then none else some (0, 28),
    (rs.find? (fun r => ! r.pad.all (fun b => b == 0#8))).map (fun r => (r.type, r.len)),
    w.2.map (fun t => (t, 0)),
    (rs.find? (fun r => (recLength i.major i.minor r.type r.body).any (fun n => n != r.len))).map (fun r => (r.type, 0)),
    rs.findSome? (fun r => if readsType i.major r.type then (listFault r.type r.body).map (fun o => (r.type, o)) else none)]

/-! ### Ranges (reason 13; Tables 14.2, 14.7 to 14.21) -/

/-- Fields of the header and the Identity record. -/
def headerFields (i : Image) : List (Nat × Bool) := [(16, i.pair != 0), (24, within i.seq 1 0xFFFFFFFF), (28, within i.count 2 12)]

def identFields (i : Image) (b : List Byte) : List (Nat × Bool) :=
  [(0, leAt b 0 8 == i.pair), (8, (textOf ((b.drop 8).take 32)).isSome && zeroPadded ((b.drop 8).take 32))]

def netFields (b : List Byte) : List (Nat × Bool) :=
  let n := netRecord b
  [(0, n.v6 || n.v4), (1, n.tcp || n.rdma), (2, within n.port 1024 65535 && n.port != 4791 && n.port != 8009), (4, within n.prefix6 1 128),
   (5, within n.prefix4 1 32), (6, n.svcMac == 0 || n.svcMac / 2 ^ 40 % 4 == 2), (12, ! n.v4 || n.svc4 != 0), (16, ! n.v6 || n.svc6 != 0),
   (96, within n.devPrefix4 1 32), (97, within n.devPrefix6 1 128), (98, decide (leAt b 98 1 ≤ 1)), (99, decide (leAt b 99 1 ≤ 1)),
   (100, decide (n.ptpTransport ≤ 2)), (101, decide (n.ptpDomain ≤ 127))] ++
  n.groupModes.zipIdx.map (fun m => (104 + m.2, decide (m.1 ≤ 3))) ++ n.groupConn.zipIdx.map (fun m => (108 + m.2, decide (m.1 ≤ 1))) ++
  n.macs.zipIdx.map (fun m => (128 + 4 * m.2, decide (m.1.vlan ≤ 4094)))

def geoFields (b : List Byte) : List (Nat × Bool) :=
  let g := geoRecord b
  [(0, decide (leAt b 0 1 ≤ 1)), (1, decide (leAt b 1 1 ≤ 1)), (2, within g.rate 1600 3600 && g.rate % 200 == 0), (4, within g.bits 3 4),
   (5, within g.planes 1 8), (6, g.page == 16384 || g.page == 32768), (8, decide ((if g.page = 16384 then 1720 else 3440) ≤ g.spare)),
   (10, g.pages % max g.bits 1 == 0 && decide (g.pages ≤ 4096)), (12, within g.blocks 16 65536), (16, [512, 1024, 2048, 4096].contains g.gbit)]

def powFields (b : List Byte) : List (Nat × Bool) :=
  let p := powRecord b
  [(0, within p.capMf 100 20000), (4, within p.vCut 4000 14000), (6, within p.vFull (p.vCut + 2001) 16000), (8, within p.iT 1000 10000),
   (10, within p.esr 1000 50000), (12, within p.eFix 10 1000), (14, within p.eGib 50 2000), (16, within p.eMin 10 1000),
   (18, within p.periodH 1 168), (20, within p.budget 2000 40000), (24, within p.thaw 100 12000),
   (26, within p.idle 0 20000 && decide (10 * p.idle < 4 * p.budget)), (40, within p.intervalMs 100 60000)]

def rosterFields (b : List Byte) : List (Nat × Bool) :=
  let r := rosterRecord b
  [(2, within r.port 1024 65535), (4, within r.slots.length 1 4096), (6, within r.lossS 5 600), (8, within r.calThr 16 4096),
   (10, within r.inBulk 10 1000), (12, within r.outBulk 10 1000)] ++
  r.slots.zipIdx.flatMap (fun e => [(32 + 48 * e.2, decide (e.1.slot ≤ 4095)), (34 + 48 * e.2, e.1.a4.isSome || e.1.a6.isSome),
    (44 + 48 * e.2, e.1.pair != 0)])

/-- A host NQN of 1 to 223 bytes of UTF-8, ended by a zero byte and padded with zeros. -/
def nqnOk (f : List Byte) : Bool := leAt f 0 1 != 0 && leAt f 223 1 == 0 && (textOf f).isSome && zeroPadded f

def nsFields (o : Nat) (e : List Byte) : List (Nat × Bool) :=
  let n := nsRecord e
  [(o, within n.id 1 1024), (o + 2, leAt e 2 2 == 48 + 224 * leAt e 40 2), (o + 4, within n.pol.k 1 24),
   (o + 5, within n.pol.m 1 8 && decide (n.pol.k + n.pol.m ≤ 32)), (o + 6, within n.pol.thr 0 16), (o + 7, within n.pol.ack 1 3),
   (o + 8, decide (leAt e 8 1 ≤ 2)), (o + 9, within n.pol.qos 0 7), (o + 10, within n.maxKey 16 255), (o + 40, decide (leAt e 40 2 ≤ 64))] ++
  (hostFields e).zipIdx.map (fun h => (o + 48 + 224 * h.2, nqnOk h.1))

def nssFields (b : List Byte) : List (Nat × Bool) := (0, decide (leAt b 0 2 ≤ 1024)) :: (nsEntries b).flatMap (fun e => nsFields e.1 e.2)

def wardFields (b : List Byte) : List (Nat × Bool) := [(64, decide (leAt b 64 2 ≤ 4095)), (68, decide (leAt b 68 4 ≤ 65536))]

def limFields (b : List Byte) : List (Nat × Bool) :=
  let l := limRecord b
  [(0, within l.rate 1 1000), (2, within l.burst 1 1000), (4, decide (l.overs.length ≤ 1024))] ++
  l.overs.zipIdx.flatMap (fun o => [(10 + 8 * o.2, within o.1.rate 0 1000), (12 + 8 * o.2, within o.1.burst 1 1000)])

def mediaFields (b : List Byte) : List (Nat × Bool) :=
  let m := mediaRecord b
  [(0, within m.sweepDays 3 14), (4, within m.rdThr 10000 1000000), (8, within m.rdSpill 100000 10000000), (12, within m.spread 50 1000),
   (14, within m.goal 20 200), (16, within m.floor 5 100 && decide (m.floor < m.goal)), (18, within m.reserve 1 20 && decide (m.reserve < m.floor)),
   (20, within m.spare 10 200), (22, within m.spareThr 0 100)]

def hingeFields (b : List Byte) : List (Nat × Bool) :=
  [(0, decide (leAt b 0 1 ≤ 1)), (2, within (leAt b 2 1) 1 64), (4, within (leAt b 4 2) 1 100)]

def secFields (b : List Byte) : List (Nat × Bool) := [(0, decide (leAt b 0 1 ≤ 2)), (2, within (leAt b 2 2) 1 168)]

/-- At most one input of function 2, and one of function 3 for each rail (R452, R567). -/
def gaugeFields (b : List Byte) : List (Nat × Bool) :=
  let g := gaugeRecord b
  let before (n : Nat) (p : GaIn → Bool) : Bool := (g.ins.take n).any p
  (0, within g.div 2 64) :: g.ins.zipIdx.flatMap (fun x =>
    [(4 + 16 * x.2, within x.1.fn 0 6 && ! (x.1.fn == 2 && before x.2 (fun y => y.fn == 2))),
     (5 + 16 * x.2, (if x.1.fn = 3 then within x.1.rail 0 7 else x.1.rail == 0) && ! (x.1.fn == 3 && before x.2 (fun y => y.fn == 3 && y.rail == x.1.rail))),
     (16 + 16 * x.2, x.1.fn == 1 || x.1.fail == 0)])

/-- Fields of a record that is read. -/
def recordFields (i : Image) (t : Nat) (b : List Byte) : List (Nat × Bool) :=
  match t with
  | 0x01 => identFields i b | 0x02 => netFields b | 0x03 => geoFields b | 0x04 => powFields b | 0x05 => rosterFields b | 0x06 => nssFields b
  | 0x07 => wardFields b | 0x08 => limFields b | 0x09 => mediaFields b | 0x0A => hingeFields b | 0x0B => secFields b | 0x0C => gaugeFields b
  | _ => []

/-- The first field of the header, and then of the records that are read, which lies outside its range. -/
def rangeFault (i : Image) : Option Place :=
  (firstBad 0 (headerFields i)).or ((recordsOf i).1.findSome? (fun r =>
    if readsType i.major r.type then firstBad r.type (recordFields i r.type r.body) else none))

/-! ### Ward rules (reason 16; R201 to R203) -/

/-- The cascade map is acceptable: widths 1 to 8, each group within an octet, every bank in exactly one group (R203). -/
def cascadeOk (w : WardRec) : Bool :=
  decide (w.cascade.length = 64) && w.cascade.all (fun x => decide (x ≤ 8)) &&
  (List.range 64).all (fun b => groupWidth w b == 0 || decide (b % 8 + groupWidth w b ≤ 8)) &&
  (List.range 64).all (fun b => decide (((List.range 8).filter (fun i => decide (i ≤ b) && decide (i < groupWidth w (b - i)))).length = 1))

/-- An action record's fields lie in their ranges (Table 5.2). -/
def actionOk (a : WardAction) : Bool :=
  (match a.km with | some (k, m) => within k 1 24 && within m 1 8 && decide (k + m ≤ 32) | none => true) &&
  (match a.thr with | some t => within t 0 16 | none => true) && (match a.ack with | some t => within t 1 3 | none => true) &&
  (match a.qos with | some t => within t 0 7 | none => true)

/-- An entry image passes R201 and R202. -/
def entryOk (w : WardRec) (i : WardImage) : Bool :=
  i.e.value &&& i.e.mask == i.e.value && decide (i.bank ≤ 63) && decide (i.entry ≤ 1023) &&
    if groupWidth w i.bank ≠ 0 then i.e.prio != 0 && decide (i.e.prio ≤ 65535) && decide (i.e.action ≤ w.actions.length)
    else i.e.prio == 0 && i.e.action == 0

/-- The first fault of the Ward rules (R201 to R203). -/
def wardFault (w : WardRec) : Option Place :=
  let o := 72 + 16 * w.actions.length
  firstFault [
    if cascadeOk w then none else some (7, 0),
    firstBad 7 (w.actions.zipIdx.map (fun a => (72 + 16 * a.2, actionOk a.1))),
    firstBad 7 (w.images.zipIdx.map (fun i => (o + 40 * i.2, entryOk w i.1))),
    (repeatedAt [] (numbered o 40 (w.images.map (fun i => 1024 * i.bank + i.entry)))).map (fun x => (7, x))]

/-! ### Between records (reason 14; R568) -/

/-- MACs a group's mode uses (Table 9.1): one, two or four of the group's four. -/
def usedMacs (n : NetRec) : List Nat :=
  n.groupModes.zipIdx.flatMap (fun g => (List.range (match g.1 with | 1 => 1 | 2 => 2 | 3 => 4 | _ => 0)).map (fun i => 4 * g.2 + i))

/-- A bank set holds a part of a group and not all of it (R204). -/
def splitsGroup (w : WardRec) (set : List Nat) : Bool :=
  (List.range 64).any (fun h => groupWidth w h != 0 &&
    (let banks := (List.range (groupWidth w h)).map (h + ·); banks.any (fun b => set.contains b) && ! banks.all (fun b => set.contains b)))

/-- Milmo addresses of a roster entry: none in a family the network does not have, and the pair's own are the service addresses. -/
def rosterAddrs (c : Cfg) (e : RosterEntry × Nat) : List (Nat × Bool) :=
  let n := c.net
  let own := e.1.pair == c.pair
  [(52 + 48 * e.2, e.1.a4.isNone || (n.v4 && (! own || e.1.a4 == some n.svc4))),
   (56 + 48 * e.2, e.1.a6.isNone || (n.v6 && (! own || e.1.a6 == some n.svc6)))]

/-- The first inconsistency between the records of an image (R568). -/
def consistencyFault (i : Image) : Option Place :=
  let c := effective i
  let n := c.net
  firstFault [
    if c.hinge.twin && c.geo.soloBus then some (0x0A, 0) else none,
    match c.roster with | some r => firstBad 5 (r.slots.zipIdx.flatMap (rosterAddrs c)) | none => none,
    if ((usedMacs n).filter (fun k => match n.macs[k]? with | some m => m.mcast | none => false)).length ≤ 4 then none else some (2, 128),
    if n.lossless.contains ((n.marks[7]?.map (·.1)).getD 7) then some (2, 102) else none,
    if cascadeOk c.ward then
      firstBad 6 ((recordOr i 6 nsEntries []).map (fun e => (e.1 + 16, ! splitsGroup c.ward (nsRecord e.2).bankSet)))
    else none,
    firstBad 0x0B (c.sec.pkgs.zipIdx.map (fun p => (72 + 224 * p.2, p.1.pair == c.pair)))]

end Sys2Proof.Machine
end

