-- ==== Sys2Proof/Machine/ConfigOps.lean ====
section
/-! DEFINITION. Configuration images: defaults, ranges, the checks of Table 14.4 in their order, choosing a slot, operator
keys and key packages (R201 to R204, R506, R507, R541 to R572). -/

namespace Sys2Proof.Machine

/-! ### Operator keys and key packages (R506, R507, R546 to R548) -/

/-- An operator key slot is in force. -/
def inForce (k : KeySlot) : Bool := k.valid && ! k.revoked

/-- A slot no bit of which is programmed. -/
def unspent (k : KeySlot) : Bool := k.hash == 0 && ! k.valid

/-- Number of the lowest unspent slot. -/
def unspentSlot (b : Boot) : Option Nat := (List.range b.keys.length).find? (fun i => match b.keys[i]? with | some k => unspent k | none => false)

/-- Slot in force that holds a key hash. -/
def keySlotOf (b : Boot) (h : Nat) : Option Nat :=
  (List.range b.keys.length).find? (fun i => match b.keys[i]? with | some k => inForce k && k.hash == h | none => false)

/-- A first operator key may be fused: no valid fuse is programmed and PROV_EN reads high at start (R547). -/
def mayFuse (b : Boot) (prov : Bool) : Bool := prov && ! b.keys.any (·.valid) && (unspentSlot b).isSome

/-- The key package of this unit (R506). -/
def ownPkg (serial : Nat) (c : Cfg) : Option KeyPkg := c.sec.pkgs.find? (fun p => p.serial == serial)

/-- Bytes 0 to 123 of a package, the associated data of its wrap (Table 12.5). -/
def pkgHead (p : KeyPkg) : List Byte :=
  le 8 p.serial ++ le 8 p.pair ++ le 1 p.contents ++ le 1 p.gen ++ le 2 0 ++ le 4 p.epoch ++ padTo 97 p.ephemeral ++ le 3 0

/-- FixedInfo of the wrapping key: unit serial number, pair ID, "VKPV" (R505). -/
def fixedInfo (p : KeyPkg) : List Byte := le 8 p.serial ++ le 8 p.pair ++ [0x56#8, 0x4B#8, 0x50#8, 0x56#8]

/-- The wrapped keys of a package, opened by the key-wrap unit under the key that the ECDH shared secret gives: pair root key, then field
root key. Nothing where the tag fails, as it does where the ephemeral key is no point (R505). -/
def openPkg (n : Nat) (p : KeyPkg) : Option (List Byte × List Byte) :=
  (ecdh (Config.provisioningKey p.serial) p.ephemeral).bind (fun z =>
    (gcmOpen (maskKey (oneStep z (fixedInfo p)) n) (n + 2) p.iv (pkgHead p) p.wrapped p.tag).map (fun k => (k.take 32, k.drop 32)))

/-- Mask draws set aside for each use of a key while a package is opened. -/
def pkgDraws : Nat := 1000

/-- Keys a package carries (Table 12.5, bytes 16 and 17). -/
def hasRoot (p : KeyPkg) : Bool := p.contents.testBit 0
def hasField (p : KeyPkg) : Bool := p.contents.testBit 1

/-- A package is refused for a pair ID, tag or check value: the reason's number in 0x7011 (R506). -/
def pkgRefusal (n : Nat) (c : Cfg) (p : KeyPkg) : Option Nat :=
  if p.pair ≠ c.pair then some 1
  else match openPkg n p with
    | none => some 2
    | some k =>
      if (hasRoot p && decide (checkOf (maskKey k.1 (n + pkgDraws)) (n + pkgDraws + 2) ≠ p.rootCheck)) ||
         (hasField p && decide (checkOf (maskKey k.2 (n + 2 * pkgDraws)) (n + 2 * pkgDraws + 2) ≠ p.fieldCheck)) then some 3
      else none

/-- The pair root key of a package that is not refused. -/
def pkgRoot (n : Nat) (p : KeyPkg) : Option (List Byte) := if hasRoot p then (openPkg n p).map (·.1) else none

/-- A package of this image is accepted as a rekey: the rekey value names the root key held (R507). -/
def isRekey (s : State) (c : Cfg) : Bool :=
  let n := s.keys.draws
  match s.sec.root, ownPkg s.serial c with
  | some r, some p => (pkgRefusal n c p).isNone && c.sec.rekey != 0 && c.sec.rekey == r && hasRoot p &&
      pkgRoot n p != some (unmask s.sec.rootKey)
  | _, _ => false

/-! ### The checks in their order (R545, Table 14.4) -/

/-- Reason for which an image is refused, with the record type and field offset of reasons 11 to 16; none when it passes (R545). An empty
slot has no magic. -/
def imageRefusal (s : State) (prov : Bool) (img : Option Image) : Option (Nat × Place) :=
  match img with
  | none => some (1, 0, 0)
  | some i =>
    let c := effective i
    let at_ (r : Nat) (f : Option Place) : Option (Nat × Place) := f.map (fun x => (r, x))
    if ! i.magicOk then some (1, 0, 0)
    else if i.hwType ≠ 0x00E50008 then some (2, 0, 0)
    else if ! (i.major = 1 ∨ (i.major = 2 ∧ i.minor ≤ 1)) then some (3, 0, 0)
    else if ! (within i.length 584 8388608 && i.bodyLength + 512 == i.length && sigMagicOk i.bytes i.sigAt) then some (4, 0, 0)
    else if ! i.headerCrcOk then some (5, 0, 0)
    else if (keySlotOf s.boot i.keyHash).isNone ∧ ! mayFuse s.boot prov then some (6, 0, 0)
    else if ! i.sigOk then some (7, 0, 0)
    else if ! i.bodyCrcOk then some (8, 0, 0)
    else if ! (s.boot.pairHeld.isNone || s.boot.pairHeld == some i.pair || s.sec.root.isNone || isRekey s c) then some (9, 0, 0)
    else if i.seq < s.boot.highWater then some (10, 0, 0)
    else (at_ 11 (structureFault i)).or <|
      (at_ 12 (if (recBody i 1).isNone then some (1, 0) else if (recBody i 2).isNone then some (2, 0) else none)).or <|
      (at_ 13 (rangeFault i)).or <| (at_ 14 (consistencyFault i)).or <|
      (at_ 15 (if c.sec.successor ≠ 0 ∧ (keySlotOf s.boot c.sec.successor).isNone ∧ (unspentSlot s.boot).isNone then some (0x0B, 8) else none)).or <|
      at_ 16 (wardFault c.ward)

/-- Event 0x8110: where the image lies (0 A, 1 B, 2 staging), the reason with record type and field offset, the sequence number. -/
def refuseImage (place_ : Nat) (r : Nat × Place) (img : Option Image) (s : State) : State :=
  record 0x8110 pathPkg (le 1 place_ ++ le 1 r.1 ++ le 2 r.2.1 ++ le 4 r.2.2 ++ le 4 (match img with | some i => i.seq | none => 0)) s

/-! ### Choosing a slot (R547 to R552) -/

/-- Program a key hash into the lowest unspent slot, its valid fuse last. -/
def fuseKey (h : Nat) (b : Boot) : Boot :=
  match unspentSlot b with
  | some n => { b with keys := b.keys.set n ⟨h, true, false⟩ }
  | none => b

/-- The first operator key is fused under PROV_EN (R547). -/
def fuseFirst (i : Image) (s : State) : State :=
  if (keySlotOf s.boot i.keyHash).isSome then s
  else record 0x8116 pathPkg (le 1 ((unspentSlot s.boot).getD 0) ++ be 8 (i.keyHash / 2 ^ 320)) { s with boot := fuseKey i.keyHash s.boot }

/-- OPERATOR_KEY_ROTATE (R548): the successor is fused, the signing slot and every lower one in force are revoked. -/
def rotateKey (i : Image) (s : State) : State :=
  let succ := (effective i).sec.successor
  if succ = 0 ∨ (keySlotOf s.boot succ).isSome then s
  else
    let n := (keySlotOf s.boot i.keyHash).getD 0
    let new := (unspentSlot s.boot).getD 0
    let b := fuseKey succ s.boot
    let revoked := (List.range (n + 1)).filter (fun j => match s.boot.keys[j]? with | some k => inForce k | none => false)
    record 0x8117 pathPkg (le 1 new ++ le 1 (toMask revoked))
      { s with boot := { b with keys := b.keys.zipIdx.map (fun k => if revoked.contains k.2 then { k.1 with revoked := true } else k.1) } }

/-- The pair root key is imported: its check value and the Keyway secret are derived (R486, R487, R492). -/
def withRoot (k : List Byte) (n : Nat) (c : Sec) : Sec :=
  let x := maskKey k n
  let sec := kdf x (n + 2 + kdfDraws) 6 0 [] 0
  { c with root := some (checkOf x (n + 2)), rootKey := x, kwSecret := (BitVec.ofNat 64 (ofLe (sec.take 8)), BitVec.ofNat 64 (ofLe (sec.drop 8))) }

/-- A field generation that is not held is imported, beside at most one other; 0x7010 as for a pair root key (R497, R506, Table 12.8; log
143). -/
def withField (p : KeyPkg) (k : List Byte) (n : Nat) (s : State) : State :=
  if ! hasField p || s.sec.gens.any (fun x => x.1 == p.gen) then s
  else record 0x7010 pathPkg (le 1 1 ++ le 4 p.fieldCheck ++ le 1 p.gen) { s with sec := { s.sec with
    gens := (s.sec.gens ++ [(p.gen, p.epoch, p.fieldCheck)]).drop (s.sec.gens.length + 1 - 2)
    genKeys := (s.sec.genKeys ++ [(p.gen, maskKey k n)]).drop (s.sec.genKeys.length + 1 - 2) } }

/-- KEY_PACKAGE_OPEN (R506, R507): keys a package brings are imported, or it is refused with 0x7011. A rekey discards salts,
journal and items: the device starts without prior state. -/
def openPackage (s : State) : State :=
  match s.cfg.bind (fun c => (ownPkg s.serial c).map (fun p => (c, p))) with
  | none => s
  | some (c, p) =>
    let n := s.keys.draws
    match pkgRefusal n c p, openPkg n p with
    | some r, _ => record 0x7011 pathPkg (le 1 r) s
    | none, none => s
    | none, some (k, f) =>
      let w := withRoot k (n + 3 * pkgDraws) s.sec
      let note := record 0x7010 pathPkg (le 1 0 ++ le 4 p.rootCheck ++ le 1 p.gen)
      let a :=
        if ! hasRoot p then s
        else if s.sec.root.isNone then note { s with sec := w }
        else if unmask s.sec.rootKey = k then s
        else if isRekey s c then
          note { s with
              sec := { w with gens := [], genKeys := [], inUse := none, salts := [], windows := [], refused := [] }
              keys := { s.keys with entries := [] }
              kw := { Keyway.reset with dram := s.kw.dram }
              media := { Media.reset with pe := s.media.pe, bad := s.media.bad, accepted := s.media.accepted, excluded := s.media.excluded,
                                          lost := s.media.lost }
              ice := { s.ice with recs := [], floors := [], intents := [] }
              twin := { s.twin with complete := true } }
        else record 0x7011 pathPkg (le 1 4) s
      drawMasks (5 * pkgDraws) (withField p f (n + 4 * pkgDraws) a)

/-- An image is selected: keys, high-water mark, pair ID, the events of its format, and the settings come into force
(R547 to R551, R569, R571). Shortened and skipped records stand in 0x8113 and 0x8114 as a mask of their types (log 12). -/
def selectImage (slot : Nat) (i : Image) (s : State) : State :=
  let a := fuseFirst i s
  let b := rotateKey i a
  let c := { b with
    cfg := some (effective i)
    boot := { b.boot with slotUse := slot, pairHeld := some i.pair, highWater := max b.boot.highWater i.seq } }
  let d := record 0x8111 pathPkg (le 1 slot ++ le 4 i.seq ++ le 2 i.major ++ le 2 i.minor ++ le 4 i.bodyCrc) c
  let types := (recordsOf i).1.map (·.type)
  if i.major = 1 then record 0x8114 pathPkg (le 2 1 ++ le 2 i.minor ++ le 2 (toMask (types.filter (fun t => ! readsType 1 t)))) d
  else if i.minor = 0 then record 0x8113 pathPkg (le 2 2 ++ le 2 0 ++ le 2 (toMask (types.filter (fun t => t == 4 || t == 9)))) d else d

/-- CONFIG_SELECT (R551, R552): both slots are checked in full; of those that pass the greater sequence number wins, slot A on a
tie; without one the device is unconfigured, 0x8112 the first time. -/
def configSelect (s : State) : State :=
  let prov := s.keeper.provEn
  let ra := imageRefusal s prov s.boot.slotA
  let rb := imageRefusal s prov s.boot.slotB
  let a := match ra with | some r => refuseImage 0 r s.boot.slotA s | none => s
  let b := match rb with | some r => refuseImage 1 r s.boot.slotB a | none => a
  match (if ra.isNone then s.boot.slotA else none), (if rb.isNone then s.boot.slotB else none) with
  | some x, some y => if x.seq < y.seq then selectImage 1 y b else selectImage 0 x b
  | some x, none => selectImage 0 x b
  | none, some y => selectImage 1 y b
  | none, none =>
    let c := { b with cfg := none, start := { b.start with unconfigured := true, triedAt := b.now }, twin := { b.twin with roleState := .unassigned } }
    if s.start.unconfigured then c else record 0x8112 pathPkg (le 1 ((ra.map (·.1)).getD 0) ++ le 1 ((rb.map (·.1)).getD 0)) c

/-- TUNABLES_RESET (R572): a lower layout version resets drift table and flush measurements. -/
def resetTunables (layout : Nat) (s : State) : State :=
  if s.boot.tunables < layout then
    record 0x8115 pathPkg (le 4 s.boot.tunables ++ le 4 layout)
      { s with
        boot := { s.boot with tunables := layout }
        media := { s.media with drift := [], driftNew := [] }
        power := { s.power with eGibs := [] } }
  else s

end Sys2Proof.Machine
end

