-- ==== Sys2Proof/Machine/UpdateOps.lean ====
section
/-! DEFINITION. Firmware packages, banks and the boot pointer record as shared operations: the checks of Table 16.4, the choice of
a bank at a start, staging and marking (R602 to R618, chapter 16). -/

namespace Sys2Proof.Machine

/-! ### Checks of a package (R605, Table 16.4) -/

/-- Greatest length of a package: one NOR bank (R602). -/
def maxPackage : Nat := 117440512

/-- Greatest length of a part by its code (Table 16.3). -/
def partMax (code : Nat) : Nat :=
  match code with
  | 1 => 96 * 2 ^ 20 | 2 => 4 * 2 ^ 20 | 3 => 2 * 2 ^ 20 | 4 => 8 * 2 ^ 20 | 5 => 256 * 1024 | 6 => 2 ^ 20 | _ => 0

/-- Length of the header block (Table 16.1). -/
def headerBlock (p : Package) : Nat := 128 + 8 * p.binding.length + 64 * 6 + 256

/-- Header and package length are consistent and within bounds: check 4. -/
def lengthsOk (p : Package) : Bool :=
  decide (p.binding.length ≤ 256) && p.headerLen == headerBlock p && p.partCount == 6 && decide (p.length ≤ maxPackage) &&
    p.length == maxL (p.parts.map (fun e => e.offset + e.length))

/-- The manifest: check 11. -/
def manifestOk (p : Package) : Bool :=
  p.parts.map (·.code) == [1, 2, 3, 4, 5, 6] && p.parts.all (fun e =>
    e.offset % 4096 == 0 && decide (p.headerLen ≤ e.offset) && decide (1 ≤ e.length) && decide (e.length ≤ partMax e.code)
      && decide (e.offset + e.length ≤ p.length) && (e.code != 1 || e.version == p.fwVer)
      && p.parts.all (fun f => f.code == e.code || decide (f.offset + f.length ≤ e.offset) || decide (e.offset + e.length ≤ f.offset)))

/-- Checks 1 to 9 and 11, with check 10 where a running firmware is there to compare with: the reason of the first that fails. -/
def headerReason (b : Boot) (serial : Nat) (hinge : Option Nat) (p : Package) : Option Nat :=
  if ! p.magicOk then some 1
  else if p.hwType ≠ 0x00E50008 then some 2
  else if p.major ≠ 1 then some 3
  else if ! lengthsOk p then some 4
  else if ! p.headerCrcOk then some 5
  else if p.compat ≠ 1 then some 6
  else if ¬ p.binding.isEmpty ∧ ¬ p.binding.contains serial then some 7
  else if ! (p.sigKey.any (fun k => ! b.fwRevoked.contains k) && p.sigOk) then some 8
  else if p.secVer < b.fuseF then some 9
  else if (match hinge with | some h => p.hingeMajor != h | none => false) then some 10
  else if ! manifestOk p then some 11
  else none

/-- Every part digest matches: check 12. -/
def digestsOk (p : Package) : Bool := p.parts.all (fun e => sha384 (p.part e) == e.digest)

/-- Entries of a Rime library part, one after another, each as long as its header says (Table 5.10; log 153). -/
def libraryOf : Nat → List Byte → List (List Byte)
  | 0, _ => []
  | n + 1, bs =>
    if bs.length < 64 then []
    else
      let l := 64 + leAt bs 16 4 + leAt bs 24 2
      bs.take l :: libraryOf n (bs.drop l)

/-- The Rime library of a package: at most 256 entries have handles (R227, Table 16.3). -/
def packageLibrary (p : Package) : List (List Byte) := match p.parts.find? (fun e => e.code == 4) with | some e => libraryOf 256 (p.part e) | none => []

/-- Hinge protocol major of the running core firmware. -/
def runningHinge (b : Boot) : Nat := match b.runs with | some p => p.hingeMajor | none => 1

/-! ### Banks (R613, Table 16.7) -/

/-- A bank: 0 A, 1 B. -/
def bankOf (b : Boot) (x : Nat) : Bank := if x = 0 then b.bankA else b.bankB

/-- Replace a bank. -/
def putBank (x : Nat) (k : Bank) (b : Boot) : Boot := if x = 0 then { b with bankA := k } else { b with bankB := k }

/-- The boot pointer record (Table 16.7, little-endian). -/
def bpBytes (b : Boot) : List Byte :=
  let x := le 4 0x50424B56 ++ le 2 1 ++ le 2 0 ++ le 8 b.seq ++ le 1 b.bankA.state ++ le 1 b.bankB.state ++ le 1 b.active ++ le 1 b.last ++
    le 1 b.failed ++ le 1 (bit b.bankA.copy 0 + bit b.bankB.copy 1) ++ le 2 0 ++ le 4 b.bankA.fwVer ++ le 4 b.bankB.fwVer ++
    le 16 b.bankA.pkgId ++ le 16 b.bankB.pkgId ++ le 4 b.bankA.length ++ le 4 b.bankB.length ++ le 1 b.bankA.secVer ++ le 1 b.bankB.secVer ++ le 50 0
  x ++ le 4 (crc32c x).toNat

/-- Write the boot pointer record: its sequence rises, and it goes to the copy that does not govern (R613). -/
def writeBp (b : Boot) : Boot :=
  let c := { b with seq := b.seq + 1 }
  { c with bpCopies := c.bpCopies.set (c.seq % 2) (bpBytes c) }

/-- Set the state of a bank. -/
def bankState (x st : Nat) (b : Boot) : Boot := putBank x { bankOf b x with state := st } b

/-- A package of this device is pending or in TRIAL: check 13 fails. -/
def stagingBusy (b : Boot) : Bool := [0, 1].any (fun x => (bankOf b x).state == 1 || (bankOf b x).state == 2)

/-- The bank a package goes to: the one not run last (R610). -/
def otherBank (b : Boot) : Nat := 1 - b.last

/-! ### Choosing a bank at a start (R614, R615, R617) -/

/-- The candidates: PENDING and TRIAL banks, then GOOD ones that F allows, the active one first, or the other one after a failed
start of it. -/
def candidateBanks (b : Boot) : List Nat :=
  let good := [b.active % 2, 1 - b.active % 2].filter (fun x => (bankOf b x).state == 3 && decide (b.fuseF ≤ (bankOf b x).secVer))
  let good' := match good with
    | [x, y] => if 0 < b.failed ∧ x = b.last then [y, x] else [x, y]
    | l => l
  [0, 1].filter (fun x => (bankOf b x).state == 1 || (bankOf b x).state == 2) ++ good'

/-- A bank loads and verifies (checks 1 to 9, 11 and 12 against the copy in SRAM, R615). -/
def loadOk (b : Boot) (serial : Nat) (k : Bank) : Bool :=
  match k.content with
  | some p => (headerReason b serial none p).isNone && digestsOk p
  | none => false

/-- The staged package that carries a bank's package ID. -/
def stagedFor (b : Boot) (k : Bank) : Option Package :=
  match b.staged with | some t => if t.pkg.id = k.pkgId then some t.pkg else none | none => none

/-- A bank that the boot ROM runs: a PENDING one is in TRIAL from then on. Of its Rime library at most 256 entries have handles, and one
whose check fails has none (R225, R227, Table 5.13). -/
def runBank (x : Nat) (b : Boot) : Boot :=
  let k := bankOf b x
  let st := if k.state = 1 then 2 else k.state
  let c := putBank x { k with state := st, copy := false } b
  let p := k.content
  writeBp { c with
    last := x, bank := x, trial := decide (st = 2), runs := p
    fwVer := (match p with | some q => q.fwVer | none => 0)
    library := match p with | some q => (packageLibrary q).map libraryEntry | none => [] }

/-- Try the candidates in order: a bank whose copy-required bit is set is programmed from staging first; one that fails is
REJECTED, its staged package with it, but a GOOD bank is kept. Answers the bank run and whether it was copied. -/
def tryBanks (serial : Nat) : List Nat → Boot → Boot × Option (Nat × Bool)
  | [], b => ({ b with runs := none, trial := false }, none)
  | x :: r, b =>
    let k := bankOf b x
    if k.copy then
      match stagedFor b k with
      | none => tryBanks serial r (bankState x 4 { b with staged := none })
      | some p =>
        let b1 := putBank x { k with content := some p } b
        if loadOk b1 serial (bankOf b1 x) then (runBank x b1, some (x, true))
        else tryBanks serial r (bankState x 4 { b1 with staged := none })
    else if loadOk b serial k then (runBank x b, some (x, false))
    else tryBanks serial r (if k.state = 3 then b else bankState x 4 b)

/-- A TRIAL bank that ended without confirmation is REJECTED at a start that is no power start: the reversion (R614, R621). The
condition it lacked is noted where the confirmation monitor named one. -/
def rejectTrial (x : Nat) (b : Boot) : Boot :=
  if (bankOf b x).state = 2 then
    bankState x 4 { b with reverted := some (x, (bankOf b x).pkgId, match b.reverted with | some (_, _, c) => c | none => 0) }
  else b

/-- The bank choice of R614: none means RECOVERY. -/
def chooseBank (power : Bool) (serial : Nat) (b0 : Boot) : Boot × Option (Nat × Bool) :=
  let b1 := if power ∧ 0 < b0.failed then { b0 with failed := b0.failed - 1 } else b0
  let clean := if b1.failed = 0 then b1.cleanSince else 0
  let b2 := { b1 with cleanSince := clean, confirmed := false, copying := none, copyEnd := 0, spoiled := false }
  if 3 ≤ b2.failed then ({ b2 with runs := none, trial := false }, none)
  else
    let b3 := if power then b2 else rejectTrial 1 (rejectTrial 0 b2)
    tryBanks serial (candidateBanks b3) (writeBp b3)

/-- The copy of a bank failed twice: it is REJECTED and the staged package discarded, and the remaining candidates are tried
(R617). -/
def copyFailed (x serial : Nat) (b : Boot) : Boot × Option (Nat × Bool) :=
  let c := bankState x 4 { b with staged := none, copying := none }
  tryBanks serial (candidateBanks c) (writeBp c)

/-! ### Staging and marking (R609 to R611) -/

/-- A package is refused: event 0x8210 with the reason, the source (0 download, 1 chain, 2 TFTP) and the package ID. -/
def refusePackage (reason source id : Nat) (s : State) : State := record 0x8210 pathPkg (le 1 reason ++ le 1 source ++ le 16 id) s

/-- Mark the bank of the staged package PENDING: event 0x8212 (R611, R613). -/
def markPending (x : Nat) (s : State) : State :=
  match s.boot.staged with
  | some t =>
    let k : Bank := { state := 1, copy := true, fwVer := t.pkg.fwVer, pkgId := t.pkg.id, length := t.pkg.length, secVer := t.pkg.secVer, content := none }
    record 0x8212 pathPkg (le 1 x ++ le 16 t.pkg.id) { s with boot := writeBp (putBank x k s.boot) }
  | none => s

/-- A package becomes staged (R609, R610): event 0x8211; the bank not run last is marked ERASING and its erase begins. -/
def stagePackage (t : Staged) (activate : Bool) (s : State) : State :=
  let x := otherBank s.boot
  record 0x8211 pathPkg (le 16 t.pkg.id ++ le 4 t.pkg.fwVer ++ le 1 t.source ++ le 1 (bit t.forward 0 ||| bit t.chain 1))
    { s with boot := writeBp (putBank x { Bank.empty with state := 5 }
        { s.boot with staged := some t, incoming := none, erase := some (x, s.now, activate, false), forwarder := none,
                      gate := if t.source = 0 ∧ t.chain then some t.origin else none }) }

/-- Activate the package already staged: its bank is marked at once if it is erased, or when its erase ends (R611). -/
def activateStaged (s : State) : State :=
  match s.boot.erase with
  | some (x, t, _, n) => { s with boot := { s.boot with erase := some (x, t, true, n) } }
  | none =>
    let x := otherBank s.boot
    if (bankOf s.boot x).state = 0 then markPending x s else s

end Sys2Proof.Machine
end

