-- ==== Sys2Proof/Machine/KeeperFamily.lean ====
section
/-! DEFINITION. The keeper before the cores run and after they stop: starts of every kind, rail sequencing, fill, wake frames and
loss of VDD_KEEP (R392, R393, R446 to R449, R476, R519 to R521, R579 to R583, R599, R614, R673). -/

namespace Sys2Proof.Machine

/-! ### Beginning a start (R579, R580, R582) -/

/-- A start after a power-fail flush or an abrupt shutdown counts as an unsafe shutdown (R580, R597). -/
def countUnsafe (s : State) : State :=
  if s.start.unsafeEnd then
    { s with start := { s.start with unsafeEnd := false, unsafeShutdowns := s.start.unsafeShutdowns + 1 } }
  else s

/-- A power start (R614): a cold start, or the warm start of R454. -/
def powerStart (k : Keeper) : Bool :=
  k.kind == .cold || (k.kind == .warm && (k.cause == some .flushSupply || k.cause == some .unheldPowerFail))

/-- The keeper phase begins with the rails up: the fill starts, the boot ROM chooses a bank, and a bank that is to be copied is
programmed beside the fill (R582, R614, R617). -/
def beginKeeper (s : State) : State :=
  let (b, x) := chooseBank (powerStart s.keeper) s.serial s.boot
  { s with
    boot := { b with copying := match x with | some (n, true) => some (n, s.now, false) | _ => none }
    keeper := { s.keeper with phase := .keeper, fillAt := some s.now, fillMissed := false, rowTimes := [0, s.now - s.keeper.start0] } }

/-- A run ends with its rails up: hold is released, nothing volatile is relied on, the cores stop. -/
def endRunNow (s : State) : State :=
  let t := endHours (if s.keeper.holdOut then releaseHold s else s)
  { t with
    mor := endRun t.mor
    held := []
    twin := { t.twin with roleState := .unassigned, linkUp := false, session := false, healthy := false, unacked := [] }
    start := { t.start with serving := false, service := false, shutdown := none }
    power := { t.power with flush := none, open_ := none }
    keeper := { t.keeper with holdTest := false } }

/-- COLD_START (R399, R579, R673, R675): VDD_KEEP is good: ROLE and TEST_EN are sampled, the keeper sequences from step 1. What
only a cold start ends is over: a device without a role may take one again (R404, R431). -/
def execColdStart (role : Nat) (testEn : Bool) (dram : Nat) (s : State) : Result :=
  onlyIf (s.keeper.phase == .off && decide (role ≤ 1)) (fun s =>
    let t := countUnsafe s
    { t with
      start := { t.start with powerCycles := t.start.powerCycles + 1 }
      twin := { t.twin with noRole := false, yields := [], collisions := [] }
      kw := { t.kw with dram := dram }
      keeper := { Keeper.reset with
        phase := .sequencing, porst := true, role := role, testEn := testEn, en := 1, seqAt := t.now, kind := .cold, start0 := t.now,
        holdIn := t.keeper.holdIn, holdInAt := t.keeper.holdInAt, latched := t.keeper.latched, pfail := t.keeper.pfail,
        pfailAt := t.keeper.pfailAt } }) s

/-- WAKE_START (R393, R476, R579): a wake match in DORMANT: steps 2 to 5 are sequenced, ROLE stands as sampled. -/
def execWakeStart (s : State) : Result :=
  onlyIf (s.keeper.phase == .dormant && s.keeper.wakeDue && ! s.keeper.pfail) (fun s =>
    let t := countUnsafe s
    { t with
      start := { t.start with powerCycles := t.start.powerCycles + 1 }
      keeper := { t.keeper with phase := .sequencing, en := 2, pg := 1, seqAt := t.now, failures := 0, kind := .wake, cause := none, wakeDue := false,
                                beatOut := .none, fedAt := 0, fed := false } }) s

/-- WARM_START (R430, R454, R472, R526, R579, R598, R612, R621, R625): a restart the keeper has begun, every rail staying up: hold
stays released and the release beat runs (R583). -/
def execWarmStart (s : State) : Result :=
  match s.keeper.warmDue with
  | some c => onlyIf ((running s || s.keeper.phase == .stopped || s.keeper.phase == .recovery) && s.power.flush.isNone) (fun s =>
      let t := countUnsafe (endRunNow s)
      beginKeeper { t with
        start := { t.start with shst := 0 }
        twin := { t.twin with keeperRelease := none, planned := none, closedDoor := false }
        keeper := { t.keeper with kind := .warm, start0 := t.now, cause := some c, warmDue := none, beatOut := .release, fed := false } }) s
  | none => .next s

/-! ### Rails (R447, R449) -/

/-- A sequencing failure (R447): every enable drops in reverse order, 0x6040 is latched with the step, the attempt and, where a reference
clock is what failed, its number of R35 (R679). -/
def sequencingFailure (step : Nat) (clocks : List Nat) (s : State) : State :=
  let n := s.keeper.failures + 1
  record 0x6040 pathKeeper (le 1 step ++ le 1 n ++ clocks.flatMap (le 1))
    { s with keeper := { s.keeper with phase := .retry, en := 0, pg := 0, failures := n, failStep := step, seqAt := s.now } }

/-- FREFCLK and MREFCLK (2 and 3 of R35) that do not run within Table 18.6. -/
def clocksOut (frefOk mrefOk : Bool) : List Nat := (if frefOk then [] else [2]) ++ (if mrefOk then [] else [3])

/-- Clocks known as lost once a power-good has risen: what step 2 finds running is lost no more. -/
def noteClocks (step : Nat) (out : List Nat) (s : State) : State :=
  { s with pace := { s.pace with
    clocksLost := out.foldl (fun l c => sIns c l) (if step = 2 then s.pace.clocksLost.filter (fun c => decide (c < 2)) else s.pace.clocksLost) } }

/-- POWER_GOOD_RISE (R447, R679): the power-good of the step last enabled has been high for 1 ms: the next enable, or with step 5 the
keeper phase. FREFCLK or MREFCLK absent then fails step 2; after it, its loss is the one of R35. -/
def execPowerGoodRise (step : Nat) (frefOk mrefOk : Bool) (s : State) : Result :=
  onlyIf (s.keeper.phase == .sequencing && decide (step = s.keeper.pg + 1) && decide (step = s.keeper.en) && decide (step ≤ 5)) (fun s =>
    let out := clocksOut frefOk mrefOk
    let t := noteClocks step out { s with keeper := { s.keeper with pg := step } }
    if step = 2 ∧ ! out.isEmpty then sequencingFailure 2 out t
    else if step < 5 then { t with keeper := { t.keeper with en := step + 1, seqAt := t.now } }
    else beginKeeper t) s

/-- SEQUENCING_TIMEOUT (R447): no power-good within 20 ms of the enable. -/
def execSequencingTimeout (step : Nat) (s : State) : Result :=
  onlyIf (s.keeper.phase == .sequencing && decide (step = s.keeper.pg + 1) && decide (step = s.keeper.en) && decide (s.keeper.seqAt + 20000000 ≤ s.now))
    (sequencingFailure step []) s

/-- SEQUENCING_RETRY (R447): 1 s later the keeper tries again; after three failures it keeps SEQ_EN1 alone, or nothing where step 1
itself failed. -/
def execSequencingRetry (s : State) : Result :=
  onlyIf (s.keeper.phase == .retry && decide (s.keeper.seqAt + 1000000000 ≤ s.now)) (fun s =>
    if s.keeper.failures < 3 then { s with keeper := { s.keeper with phase := .sequencing, en := 1, pg := 0, seqAt := s.now } }
    else { s with keeper := { s.keeper with phase := .failed, en := if s.keeper.failStep = 1 then 0 else 1 } }) s

/-- POWER_GOOD_FALL (R449): 0x6041; step 3 is a fault of dies C0 and C1, steps 2, 4 and 5 one of die X (Table 10.10), whose detail is
the DDR5 channels for step 4. -/
def execPowerGoodFall (step : Nat) (s : State) : Result :=
  onlyIf (decide (2 ≤ step) && decide (step ≤ 5) && decide (step ≤ s.keeper.en)) (fun s =>
    let t := record 0x6041 pathKeeper (le 1 step) s
    if ! running t then t
    else if step = 3 then criterionTrue 2 0 t
    else criterionTrue 3 (if step = 4 then 3 else 0) t) s

/-- FILL_DEADLINE (R521): the fill has not ended 5 s after it began: 0x9110, and it goes on. -/
def execFillDeadline (s : State) : Result :=
  match s.keeper.fillAt with
  | some t => onlyIf (s.keeper.phase == .keeper && ! s.keeper.fillMissed && decide (t + 5000000000 ≤ s.now)) (fun s =>
      record 0x9110 (pathMonitor 0) [] { s with keeper := { s.keeper with fillMissed := true } }) s
  | none => .next s

/-- BANK_COPY_DEADLINE (R617): a copy beyond the package length over 2.0 MB/s and 2 s records 0x9812 with the bytes written. -/
def execBankCopyDeadline (written : Nat) (s : State) : Result :=
  match s.boot.copying with
  | some (x, t, noted) =>
    onlyIf (s.keeper.phase == .keeper && ! noted && decide (t + (bankOf s.boot x).length * 500 + 2000000000 < s.now)) (fun s =>
      record 0x9812 (pathMonitor 0) (le 4 written) { s with boot := { s.boot with copying := some (x, t, true) } }) s
  | none => .next s

/-- VDD_KEEP_LOSS (R599, R673): PORST_N falls; the keeper stops and the device ends without shutdown steps. Causes latched for the
next start stand, and so does what lies outside the device. -/
def execVddKeepLoss (s : State) : Result :=
  onlyIf (s.keeper.phase != .off) (fun s =>
    let t := powerDown false s
    { t with
      start := { t.start with shutdown := none, shst := 0 }
      keeper := { Keeper.reset with
        holdIn := t.keeper.holdIn, holdInAt := t.keeper.holdInAt, latched := t.keeper.latched, pfail := t.keeper.pfail
        pfailAt := t.keeper.pfailAt } }) s

/-! ### Waking (R392, R393, R476) -/

/-- The wake pattern stands among the first 512 bytes: six bytes of FF and 16 copies of the pair ID in network byte order. -/
def wakePattern (pair : Nat) (bytes : List Byte) : Bool :=
  let pat : List Byte := List.replicate 6 0xFF#8 ++ (List.range 16).flatMap (fun _ => be 8 pair)
  let b := bytes.take 512
  (List.range 379).any (fun i => (b.drop i).take 134 == pat)

/-- A frame on MM that wakes this device (R392). -/
def wakes (f : Frame) (s : State) : Bool :=
  decide (f.mac = 16) && f.fcsOk && (f.dest == unitMac s 16 || f.dest == 2 ^ 48 - 1) &&
    match s.boot.pairHeld with | some p => wakePattern p f.bytes | none => false

/-- WAKE_FRAME (R392, R393, R476, Table 9.9): a match in DORMANT signals the keeper, or is held while PFAIL_N is low; during a
shutdown it is held until DORMANT is reached. -/
def execWakeFrame (f : Frame) (s : State) : Result :=
  onlyIf ((s.keeper.phase == .dormant || (running s && inShutdown s)) && wakes f s) (fun s =>
    if s.keeper.pfail then { s with keeper := { s.keeper with wakeHeld := true, wakeAt := s.now } }
    else { s with keeper := { s.keeper with wakeDue := true, wakeAt := s.now, start0 := s.now } }) s

/-- PFAIL_WAKE_HOLD (R476): a held match starts the wake once PFAIL_N has been high for 1 s. -/
def execPfailWakeHold (s : State) : Result :=
  onlyIf (s.keeper.phase == .dormant && s.keeper.wakeHeld && ! s.keeper.pfail && decide (s.keeper.pfailAt + 1000000000 ≤ s.now)) (fun s =>
    { s with keeper := { s.keeper with wakeHeld := false, wakeDue := true, start0 := s.now } }) s

end Sys2Proof.Machine
end

