-- ==== Sys2Proof/Machine/RunOps.lean ====
section
/-! DEFINITION. What a start keeps and what it begins anew: Firn, flash and the tables kept there stay, everything volatile starts
from its value at reset (R87, R425, R535, R580, R581, R643, R659), and the first records of a run (R583, R660). -/

namespace Sys2Proof.Machine

/-! ### What outlasts a run -/

/-- Lasting entries of the retirement list of one kind (R535). -/
def lastingOf (s : State) (kind : Nat) : List Site := (s.mem.retire.filter (fun e => e.state == 2 && e.site.kind == kind)).map (·.site)

/-- Lasting banks of a unit (kind 11). -/
def lastingBanks (s : State) (unit : Nat) : List Nat := ((lastingOf s 11).filter (fun t => unitCode t.path == unit)).map (·.path)

/-- Units that stay out of service across starts (R535, R537). -/
def lastingUnits (s : State) : List Nat :=
  (lastingOf s 9).map (·.path) ++ (lastingOf s 10).map (·.path) ++ ((s.mem.retire.filter (fun e => e.state == 2 && decide (11 < e.site.kind))).map (·.site.path))
    ++ lastingBanks s 0x02 ++ lastingBanks s 0x19

/-- The retirement list as a start finds it: an entry whose CRC fails counts as lasting with no replacement (R536). -/
def readList (bad : List Nat) (l : List REntry) : List REntry :=
  l.zipIdx.map (fun p => if bad.contains p.2 then { p.1 with state := 2, replacement := none } else p.1)

/-- Memory integrity at a start: the retirement list stands and quarantine follows from its lasting entries (R26, R535, R536). -/
def freshMem (s : State) : MemState :=
  { MemState.reset with
    retire := s.mem.retire
    qCores := (((lastingOf s 6).map (fun t => instOf t.path)) ++ (lastingBanks s 0x01).map instOf).foldl (fun l x => sIns x l) []
    qClusters := ((lastingOf s 7).map (fun (t : Site) => t.idx)).foldl (fun l x => sIns x l) []
    qRegions := ((lastingOf s 8).map (fun (t : Site) => t.idx) ++ (lastingBanks s 0x03).map instOf ++ (lastingBanks s 0x04).map (fun p => instOf p / 16)).foldl (fun l x => sIns x l) []
    qUnits := (lastingUnits s).foldl (fun l x => sIns x l) []
    pagesTaken := ((s.mem.retire.filter (fun e => e.state == 2 && e.site.kind == 2 && e.replacement.isNone))).length }

/-- Dies lost for good: lasting ones, and those of a channel whose sequencer or both cipher engines are out (R265, R499). -/
def lastingDies (s : State) (q : List Nat) : List Nat :=
  let chans := (List.range 128).filter (fun c => q.contains (pathX 0x10 c) || (q.contains (pathX 0x14 (2 * c)) && q.contains (pathX 0x14 (2 * c + 1))))
  ((lastingOf s 4).map (fun (t : Site) => t.idx) ++ chans.flatMap (fun c => (List.range 64).map (fun i => 64 * c + i))).foldl (fun l x => sIns x l) []

/-- A grain has reached its die: its program unit is programmed, or its program was issued (R422). -/
def onDie (s : State) (a : Nat) : Bool :=
  match sbOfAddr s a with
  | some b =>
    let u := unitOf b (posOf (addrDie a)) (addrWl (geoOf s) a)
    b.state != 1 || decide (u < b.programmed * (dataMembers b).length) || b.done.contains u ||
      s.twin.ops.any (fun o => o.sb == b.seq && o.op == 1 && o.die == addrDie a && o.wl == addrWl (geoOf s) a && o.state == 2)
  | none => true

/-- Grains a start finds on the dies: those of items that were programmed, and metadata, written whole (log 144). -/
def freshFlash (s : State) : List (Nat × FGrain) :=
  s.media.flash.filter (fun p => p.2.kind == 2 || (s.kw.items.any (fun i => i.flash.contains p.1) && onDie s p.1))

/-- Media at a start: what Firn and the dies hold. -/
def freshMedia (s : State) (lost : List Nat) : Media :=
  let m := s.media
  let fl := freshFlash s
  { Media.reset with
    flash := fl, unver := m.unver.filter (fun a => fl.any (fun p => p.1 == a)), lost := lost
    sbs := m.sbs, sbSeq := m.sbSeq, counter := m.counter, pe := m.pe, bad := m.bad, vfails := m.vfails, reports := m.reports
    drift := m.drift, driftNew := m.driftNew, rdcCopy := m.rdcCopy, copiedAt := m.copiedAt, sweepAt := m.sweepAt
    setA := m.setA, setB := m.setB, lastSet := m.lastSet, shed := m.shed, sparse := m.sparse, factory := m.factory
    bg := m.bg.filter (fun u => u.kind != 2 && decide (u.kind ≤ 6)) }

/-- A record as a power loss in the middle of its write leaves it: its CRC does not match (R174). -/
def tear (rs : List KwRec) : List KwRec :=
  rs.dropLast ++ (rs.getLast?.map (fun r => { r with crc := r.crc ^^^ 1 })).toList

/-- Keyway at a start: the table and the Cornice are gone; journal, checkpoint, items and ledger runs stand. Only the last record
written before a power loss can be torn (R174). -/
def freshKeyway (torn : Bool) (s : State) : Keyway :=
  { s.kw with
    firn := if torn then tear s.kw.firn else s.kw.firn
    slots := [], marks := [], verify := [], genAt := none, heldBack := decide (128 * 2 ^ 30 ≤ s.kw.deltaBytes), incomplete := [], waits := [], cornice := [] }

/-- Stores a start still answers for: those whose commit was asked for, acknowledged or not; what of them holders have not
acknowledged is sent on from the Cornice copy (R79, R86, R87, R325). -/
def freshStores (s : State) : List EStore :=
  (s.ice.stores.filter (fun e => decide (2 ≤ e.stage))).map (fun e => { e with conn := 0xFFFFFFFF })

/-- Icefield state at a start: what the Firn journal holds (R334, R358, R417). -/
def freshIce (s : State) : Ice :=
  let i := s.ice
  { Ice.reset with
    inc := i.inc, txMark := i.txMark, txSeq := i.txMark, storeId := i.storeId, intents := i.intents, recs := i.recs, floors := i.floors
    epoch := i.epoch, nextId := i.nextId, lostObjs := i.lostObjs, stores := freshStores s }

/-- Boot state at a start: a download not committed, a transfer and the forwarder's progress end with the run (R609, R631); an erase
that the run's end interrupted is begun again once the device serves (R635). -/
def freshBoot (x : Option (Nat × Nat × Bool)) (endAt : Nat) (b : Boot) : Boot :=
  { b with
    incoming := none, tftp := none, forwarder := none, restart := none, turnAt := none, heldNoted := none, copying := none
    copyEnd := if x.isSome then endAt else 0
    erase := b.erase.map (fun e => (e.1, 0, e.2.2.1, false))
    failed := b.failed + 1 }

/-- A new run: the volatile parts of the device begin anew. -/
def freshRun (env : ReleaseEnv) (s0 : State) : State :=
  let s := { s0 with mem := { s0.mem with retire := readList env.badEntries s0.mem.retire } }
  let mem := freshMem s
  let lost := lastingDies s mem.qUnits
  let endAt := s.keeper.fillAt.getD s.now + env.copyNs
  { s with
    held := [], cfg := none
    mor := startNumbers { s.mor with carried := [], phase := [] }
    keeper := { s.keeper with
      phase := .released, releasedAt := s.now, provEn := env.provEn, twinFitted := env.fitted, fillAt := none
      rowTimes := s.keeper.rowTimes ++ env.rows ++ [s.now - s.keeper.start0]
      beatOut := if s.keeper.kind = .warm then s.keeper.beatOut else .normal
      beatOutAt := s.now, fed := true, fedAt := s.now }
    start := { Startup.reset with
      powerCycles := s.start.powerCycles, unsafeShutdowns := s.start.unsafeShutdowns, unsafeEnd := s.start.unsafeEnd, onNs := s.start.onNs
      disc := env.disc, reloadNs := env.reloadNs }
    twin := { Twin.reset with
      complete := s.twin.complete, noRole := s.twin.noRole, yields := s.twin.yields, collisions := s.twin.collisions
      retired := (((lastingOf s 5).filter (fun t => unitCode t.path == 0x32)).map (fun t => instOf t.path)).foldl (fun l x => sIns x l) [] }
    gauge := Gauge.reset
    power := { Power.reset with flushNo := s.power.flushNo, eGibs := s.power.eGibs, ring := s.power.ring, intervalSeq := s.power.intervalSeq }
    pace := { Pace.reset with windowAt := s.now, clocksLost := s.pace.clocksLost }
    kw := freshKeyway env.torn s
    media := freshMedia s lost
    ice := freshIce s
    host := { HostSt.reset with
      generation := s.host.generation + 1, bytesWritten := s.host.bytesWritten, bytesRead := s.host.bytesRead, writes := s.host.writes
      reads := s.host.reads, mediaErrors := s.host.mediaErrors
      lastNs := match s.cfg with | some c => c.nss.map (fun n => (n.id, n.hosts)) | none => s.host.lastNs }
    ptp := Ptp.reset, net := Net.reset, coh := { Coherence.reset with map := env.memMap }, mem := mem, ward := { WardSt.reset with mismatches := s.ward.mismatches, lasting := s.ward.lasting }
    rime := { RimeSt.reset with out := ((mem.qUnits.filter (fun p => unitCode p == 0x17)).map instOf).foldl (fun l x => sIns x l) [] }
    sec := { Sec.reset with
      root := s.sec.root, rootKey := s.sec.rootKey, genKeys := s.sec.genKeys, kwSecret := s.sec.kwSecret, gens := s.sec.gens, inUse := s.sec.inUse, salts := s.sec.salts, windows := s.sec.windows, refused := s.sec.refused
      katAt := s.now, reseedAt := s.now, maskAt := s.now }
    keys := { s.keys with entries := [] }
    boot := freshBoot (if s.boot.copying.isSome then s.boot.copying else none) endAt s.boot }

/-! ### First records of a run (R583, R660) -/

/-- Code of a kind of start and of a warm start's cause in event 0x0010. -/
def kindCode : StartKind → Nat
  | .cold => 0 | .wake => 1 | .warm => 2

def causeCode : Option WarmCause → Nat
  | none => 0 | some .keeperRelease => 1 | some .flushSupply => 2 | some .thermalStop => 3 | some .memoryError => 4
  | some .controllerReenable => 5 | some .update => 6 | some .confirmation => 7 | some .tftp => 8 | some .unheldPowerFail => 9

/-- Write a record that was latched before the cores ran, with its latched time. -/
def admitLatched (r : EvRec) (s : State) : State := onMor (fun m => (occur (limOf s) m s.now r).1) s

/-- Event 0x0010: kind, cause, latched causes, end time of each row of Table 15.2 in µs; the latches are cleared. -/
def recordStart (s : State) : State :=
  let k := s.keeper
  recordAs 0x0010 (if k.kind = .warm then 5 else 0) pathPkg
    (le 1 (kindCode k.kind) ++ le 1 (causeCode k.cause) ++ le 2 (k.latched.headD 0) ++ le 2 ((k.latched.drop 1).headD 0)
      ++ k.rowTimes.flatMap (fun t => le 4 (t / 1000)))
    { s with keeper := { k with latched := [], thermtrip := false } }

/-- Event 0x0011 when numbers were skipped: the last sequence in the ring and the first of the start (R643). -/
def recordSkipped (last first : Nat) (s : State) : State :=
  if 0 < s.mor.skipped then record 0x0011 pathPkg (le 8 last ++ le 8 first) s else s

/-- Event 0x3300 of a wake start, with the time of the match (R393). -/
def recordWake (s : State) : State :=
  if s.keeper.kind = .wake then
    admitLatched (newRec s.keeper.wakeAt false 0x3300 1 (pathMac macMM) []) s
  else s

/-- Records of the bank's state at this start: 0x8214 in TRIAL, 0x8216 after a reversion (R617, R621). -/
def recordBank (s : State) : State :=
  let a := if s.boot.trial then record 0x8214 pathPkg (le 1 s.boot.bank ++ le 4 s.boot.fwVer) s else s
  match a.boot.reverted with
  | some (x, id, c) => record 0x8216 pathPkg (le 1 x ++ le 16 id ++ le 1 c) { a with boot := { a.boot with reverted := none } }
  | none => a

/-- Engines that failed their known-answer tests at this start are held out and tested (R500). -/
def recordKats (fails : List Nat) (s : State) : State :=
  fails.foldl (fun t p =>
    startTest { mem := 255, path := p, idx := 0, kind := 9, addr := 0 } 2
      (record 0x7020 p (le 4 p) { t with sec := { t.sec with heldOut := sIns p t.sec.heldOut } })) s

/-- The first records of a run in the order of R660; then the tests its start owes (R536). -/
def firstRecords (carried phase : List EvRec) (fails bad : List Nat) (s : State) : State :=
  let last := lastInRing s.mor
  let first := s.mor.next
  let a := carried.foldl (fun t r => admitLatched r t) (recordWake s)
  let b := recordSkipped last first (recordStart a)
  retest bad (recordKats fails (recordBank (phase.foldl (fun t r => admitLatched r t) b)))

end Sys2Proof.Machine
end

