-- ==== Sys2Proof/Machine/StartOps.lean ====
section
/-! DEFINITION. Taking a role and starting as first of a pair: R426, the steps of Table 15.3, the reload of the Keyway (R163, R183 to
R186) and the state of flash after a run (R269, R270, R283, Table 6.10). -/

namespace Sys2Proof.Machine

/-! ### Roles (R426, R585, R589) -/

/-- The pair root key and a field generation for the epoch are held (R488). -/
def hasKeys (s : State) : Bool := s.sec.root.isSome && s.sec.inUse.isSome

/-- Join as STANDBY (R426 step 1, R589): the beat is normal, the join begins at J1 where a session stands. -/
def joinStandby (s : State) : State :=
  let by_ := max s.boot.copyEnd s.keeper.start0 + 45000000000
  sendFrame (.joinStage 0 0) { s with
    twin := { s.twin with roleState := .standby, healthy := false, joinStage := 0, joinUnits := 0, joinTimes := [], handoff := false, twinYield := 0, retakeSince := none }
    keeper := { s.keeper with beatOut := if s.keeper.beatOut = .release then .normal else s.keeper.beatOut, beatOutAt := s.now }
    start := { s.start with waitSince := none, step := 0, servingBy := s.start.servingBy.map (fun _ => by_) } }

/-- Start as first of the pair (R581, R585 step 1): the incarnation rises, the power state is PS0, HOLD_OUT is driven; `reason` for
0x4080: 1 twin absent, 2 no Hello within 10 s. -/
def startFirst (reason : Option Nat) (s : State) : State :=
  let a := match reason with | some r => record 0x4080 pathTwin (le 1 r) s | none => s
  let b := journal [.incarnation (a.ice.inc + 1)] a
  driveHold { b with
    start := { b.start with step := 1, waitSince := none, stepTimes := [] }
    power := { b.power with pstate := 0, asked := none } }

/-- Take a role (R426, R400, R404). -/
def takeRole (s : State) : State :=
  if s.twin.noRole then { s with twin := { s.twin with roleState := .yielded } }
  else if s.keeper.holdIn ∧ s.keeper.beatIn = .normal then joinStandby s
  else match s.cfg with
    | none => s
    | some c =>
      if ! c.hinge.twin then startFirst none s
      else if ! s.keeper.twinFitted then startFirst (some 1) s
      else if s.keeper.role = 0 ∧ s.twin.complete then startFirst none s
      else { s with start := { s.start with waitSince := some s.now, waitNoted := 0 } }

/-! ### Steps 2 and 3: view, discovery, training -/

/-- Ask for a view; a device in no roster needs none (R309, R305). -/
def beginView (s : State) : State :=
  if s.ice.slot.isNone then { s with ice := { s.ice with viewed := true } }
  else askView { s with ice := { s.ice with viewed := false, syncTries := 0, syncFrom := s.now, syncAt := s.now } }

/-- Discovery (R237): dies whose parameters are not supported or not those of the geometry record, or that do not answer, are excluded,
their number is known, a parity group below 8 members records 0x2060 (R238). At first start the blocks that the die maker marked bad
enter the grown-bad bitmap (R297). -/
def discover (s : State) : State :=
  let d := s.start.disc
  let absent := (geoOf s).absentDies
  let differ := (d.params.filter (fun p => ! dieMatches (geoOf s) p.2)).map (·.1)
  let a := differ.foldl (fun t x => record 0x2010 (pathFlashDie x) (le 2 x) t) s
  let b := (d.silent.filter (fun x => ! absent.contains x)).foldl (fun t x => record 0x2011 (pathFlashDie x) (le 2 x) t) a
  let out := (differ ++ d.silent.filter (fun x => ! absent.contains x)).foldl (fun l x => sIns x l) []
  let c := { b with media := { b.media with excluded := out } }
  let f := if c.media.factory then c else journal (d.factoryBad.map (fun x => .bad x.1 x.2)) { c with media := { c.media with factory := true } }
  let e := { f with media := { f.media with accepted := 8192 - absent.length - (out.filter (fun x => ! absent.contains x)).length } }
  ((List.range 256).filter (fun g => decide (groupSize e g < 8))).foldl (fun t g => record 0x2060 pathPkg (le 1 g) t) e

/-- Every channel is trained for reads and writes (R236, Table 15.3 step 3). -/
def trainAll (s : State) : State :=
  { flashOuts ((List.range 128).map .trainChannel) s with
    twin := { s.twin with writeTrained := List.range 128, readTrained := true, trainBy := none } }

/-! ### Step 5: journal and Cornice (R184, R269) -/

/-- The set of a flush journaled complete with the greatest number. -/
def flushedSet (s : State) : Option SpillSet :=
  let ok (x : SpillSet) : Bool := x.state == 1 && x.complete
  match ok s.media.setA, ok s.media.setB with
  | true, true => some (if s.media.setA.flush < s.media.setB.flush then s.media.setB else s.media.setA)
  | true, false => some s.media.setA
  | false, true => some s.media.setB
  | false, false => none

/-- Cornice grains something still names: items held there and Stores acknowledged at D1. -/
def namedGrains (s : State) : List Nat :=
  s.kw.items.flatMap (·.grains) ++ s.ice.stores.flatMap (fun e => e.chunks.flatMap (·.grains))

/-- Restore the Cornice from the flushed set at the same indices (R184, R269), but for grains that cannot be read, each recorded as
critical under a code the spec does not give (log 13); what no item names any more is free at once. Grains a device took over as
STANDBY are newer and stay. -/
def restoreCornice (s : State) : State :=
  match flushedSet s with
  | none => s
  | some x =>
    let bad := s.start.disc.badSpill ++ x.bad.filter (fun g => ! s.start.disc.badSpill.contains g)
    let gs := x.grains.filter (fun p => ! bad.contains p.1 && (namedGrains s).contains p.1 && (aGet p.1 s.kw.cornice).isNone)
    (x.grains.filter (fun p => bad.contains p.1)).foldl (fun t _ => recordRule 269 6 pathPkg t) { s with
      kw := { s.kw with cornice := gs.foldl (fun l p => aSet p.1 p.2 l) s.kw.cornice }
      media := { s.media with restored := gs.map (·.1) } }

/-! ### Step 6: reload of the Keyway (R163, R183 to R186) -/

/-- Newest valid image of a granule. -/
def newestImage (k : Keyway) (g : Nat) : Option GranImage :=
  (k.images.filter (fun i => i.granule == g && i.valid)).foldl (fun (b : Option GranImage) i => match b with
    | some x => if x.tag < i.tag then some i else some x
    | none => some i) none

/-- Granules of the table: those of the buckets, and the stash's (R158, R176). -/
def granuleCount (s : State) : Nat := buckets s.kw.dram / granuleBuckets + 1

/-- Images and marks of the readable granules. -/
def loadImages (k : Keyway) (bad : List Nat) : Keyway :=
  let gs := ((k.images.map (·.granule)).foldl (fun l x => sIns x l) []).filter (fun g => ! bad.contains g)
  gs.foldl (fun k g => match newestImage k g with
    | some i => { k with
        slots := i.slots.foldl (fun l p => aSet p.1 p.2 l) k.slots
        marks := i.marks.foldl (fun l b => sIns b l) k.marks }
    | none => k) { k with slots := [], marks := [] }

/-- Tag of the granule of a bucket: 0 where no image stands. -/
def tagOf (k : Keyway) (bucket : Nat) : Nat := match newestImage k (granuleOf bucket) with | some i => i.tag | none => 0

/-- Apply delta-log and Firn records in sequence order where they are newer than the granule's tag (R183). -/
def replayRecords (k : Keyway) (bad : List Nat) (rs : List KwRec) : Keyway :=
  rs.foldl (fun k' r => applyWrites (r.writes.filter (fun w => decide (tagOf k w.bucket < r.seq) && ! bad.contains (granuleOf w.bucket))) k') k

/-- Every record still in the delta log or in Firn, by sequence; a torn one is discarded with every record after it in its segment
(R174). -/
def replayable (k : Keyway) : List KwRec :=
  ((k.delta.flatMap (fun g => g.recs.takeWhile kwWhole)) ++ k.firn.takeWhile kwWhole).insertionSort (fun a b => a.seq ≤ b.seq)

/-- Items whose insert record is torn: they were never acknowledged, and go (R171, R174). -/
def dropTorn (s : State) : State :=
  let es := ((s.kw.firn.dropWhile kwWhole).filter (fun r => r.op == 1)).flatMap (fun r => r.writes.filterMap (·.entry))
  let gone := s.kw.items.filter (fun i => i.st != 2 && es.any (fun e =>
    { e with alt := false, stash := false } == entryOf (kwSecret s) i))
  { s with kw := { s.kw with items := s.kw.items.filter (fun i => ! gone.contains i), firn := s.kw.firn.takeWhile kwWhole } }

/-- Rebuild a table from the items' headers (R163): every item's entry is inserted anew. -/
def rebuildTable (s : State) : State :=
  let s0 := { s with kw := { s.kw with slots := [], marks := [] } }
  s.kw.items.foldl (fun t i =>
    match planInsert (buckets t.kw.dram) t.kw (itemHash (kwSecret t) i.ns i.chunk i.key) (entryOf (kwSecret t) i) with
    | some ws => { t with kw := applyWrites ws t.kw }
    | none => t) s0

/-- Reload the Keyway: from the checkpoint where its geometry fits, else by rebuilding it (R183, R163, R586). A granule whose image
cannot be read is incomplete and is rebuilt within 4 h; the device serves, and each start that finds one records a major event,
under a code the spec does not give (R186, log 13). -/
def reloadKeyway (s0 : State) : State :=
  let s := dropTorn s0
  if s.kw.geometry = some (buckets s.kw.dram) then
    let bad := s.start.disc.badGranules.filter (fun g => decide (g < granuleCount s))
    let k := replayRecords (loadImages s.kw bad) bad (replayable s.kw)
    let t := { s with kw := { k with incomplete := bad } }
    bad.foldl (fun t g => addBg 11 g 0 (secNs 14400) t) (if bad.isEmpty then t else recordRule 186 5 pathPkg t)
  else
    let t := deadMeta (fun o => match o with | .image _ _ => true | .segment _ => true | _ => false) (rebuildTable s)
    { t with kw := { t.kw with geometry := none, images := [], delta := [], deltaBytes := 0, firn := [], nextGranule := 0 } }

/-! ### Step 7: superblocks, counters, spill sets (Table 6.10, R270, R283, R292) -/

/-- Live grains of each superblock, from the items and the metadata (R292). -/
def recount (s : State) : State :=
  { s with media := { s.media with sbs := s.media.sbs.map (fun b =>
      if b.kind = 0 then { b with live := sumL (s.kw.items.map (fun i => (i.flash.filter (fun a => match sbOfAddr s a with | some x => x.seq == b.seq | none => false)).length)) }
      else { b with live := (s.media.flash.filter (fun p => p.2.kind == 2 && match sbOfAddr s p.1 with | some x => x.seq == b.seq | none => false)).length }) } }

/-- Close an open superblock early: what has been programmed is its extent; it goes on as CLOSING (Table 6.10). -/
def closeEarly (b : SbRec) (s : State) : State :=
  let n := ceilDiv b.cursor (max (unitGrains (geoOf s)) 1)
  setSb { b with state := 2, limit := n, cursor := n * unitGrains (geoOf s), waitSince := none, done := [] } s

/-- An item at a start: complete and good on flash it changes location; with its Cornice copy it is relaid; else it is a local media
failure (Table 6.10, R269). -/
def settleAtStart (i : Item) (s : State) : State :=
  if i.tomb ∨ i.st = 0 then s
  else
    let bad := s.start.disc.badOpen
    let onFlash := ! i.flash.isEmpty && i.flash.all (fun a => (aGet a s.media.flash).isSome && ! (s.media.unver.contains a && bad.contains a))
    let inCornice := ! i.grains.isEmpty && i.grains.all (fun g => (aGet g s.kw.cornice).isSome)
    let clear (t : State) : State := { t with media := { t.media with unver := t.media.unver.filter (fun a => ! i.flash.contains a) } }
    if onFlash then (if i.d3 then clear s else locationChange i (clear s))
    else if inCornice then relayItem i s
    else localFailure i s

/-- Superblocks at a start: open ones are closed early, items settle, an EMPTY superblock's and a RELEASED one's erases are issued
again. -/
def settleFlash (s : State) : State :=
  let a := (s.media.sbs.filter (fun b => b.state == 1)).foldl (fun t b => closeEarly b t) s
  let b := recount (a.kw.items.foldl (fun t i => settleAtStart i t) a)
  let c := (b.media.sbs.filter (fun x => x.state == 5)).foldl (fun t x => x.members.foldl (fun u p => issueErase x p u) t) b
  let d := (c.media.sbs.filter (fun x => x.state == 4 && x.members.contains x.parity)).foldl (fun t x => issueErase x x.parity t) c
  (d.media.sbs.map (·.seq)).foldl (fun t q => advanceSb q t) d

/-- Read counters at a start: the copy, with 20 000 on each after a loss or where the copy is older than 1 s (R283). -/
def loadReadCounters (s : State) : State :=
  let add := if (flushedSet s).isSome ∨ s.media.copiedAt + 1000000000 < s.keeper.start0 then 20000 else 0
  { s with media := { s.media with rdc := s.media.rdcCopy.map (fun x => (x.1, x.2.1, x.2.2 + add)) } }

/-- Spill sets that do not cover the Cornice are given up: SPILL_SET_ERASE erases and verifies them (R270). -/
def giveUpSpills (s : State) : State :=
  let fl := flushedSet s
  let up (x : SpillSet) : SpillSet := if fl == some x || x.state == 0 then x else { x with state := 2, complete := false }
  { s with media := { s.media with setA := up s.media.setA, setB := up s.media.setB } }

/-! ### Step 8: taking the service address -/

/-- Repairs are ordered again for positions recorded lost (R345, R347), and the units of R86 stand again for committed values that are
not laid: what the coordinator had in its ladder before the run ended. -/
def rederiveRepairs (s : State) : State :=
  s.ice.recs.foldl (fun t r => (r.vers.filter (fun v => v.st == 2)).foldl (fun t v => v.chunks.foldl (fun t x =>
    x.lost.foldl (fun t p => match recOf t r.ns r.key with
      | some q => match q.vers.find? (fun y => y.version == v.version) with
        | some w => orderRepair q w x.chunk p t
        | none => t
      | none => t) t) (ladderUnit r v t)) t) s

/-- The device holds the pair: ACTIVE, or SOLO where no twin is configured; addresses are taken, the slot is JOINING, a device
without a healthy STANDBY raises D1 to D2 (R585 step 8, R84, R423). -/
def takeService (s : State) : State :=
  let twin := twinConfigured s
  let a := { s with twin := { s.twin with roleState := if twin then .active else .solo, complete := true, healthy := false } }
  let b := announceOwn .joining (takeAddresses a)
  let c := if twin then raiseAsync 0 2 (setRaised true 1 (record 0x4040 pathTwin (le 1 1) b)) else b
  let d := c.media.excluded.foldl (fun t x =>
    (t.media.sbs.filter (fun y => y.group == groupOf x && y.members.contains (posOf x))).foldl (loseMember x) t) c
  beginCopies (refreshItems (rederiveRepairs (checkSpare (checkFree d))))

/-! ### The steps in order (Table 15.3) -/

/-- A step has ended. -/
def stampStep (s : State) : State :=
  { s with start := { s.start with step := s.start.step + 1, stepTimes := s.start.stepTimes ++ [(s.now - s.keeper.start0) / 1000000] } }

/-- Whether the lend is over: it was returned with HOLD_IN low for 1 µs, or the beat is not normal (R587). -/
def lendOver (s : State) : Bool :=
  (s.start.lend == 3 && ! s.keeper.holdIn && decide (s.keeper.holdInAt + 1000 ≤ s.now)) || s.keeper.beatIn != .normal

/-- Step 4 (R587): the buses are lent to a twin whose Hello has arrived; no operation is out. -/
def lendBuses (s : State) : State :=
  sendFrame (.joinStage 0x10 0) (releaseHold { s with start := { s.start with lend := 1, lendAt := s.now } })

/-- What a twin's Hello asks of step 4: a session stands with a twin that has not been refused. -/
def lendWanted (s : State) : Bool := s.twin.session && s.twin.twinHello.isSome && s.twin.refused.isNone

/-- One step of Table 15.3, or nothing while its condition is not met. Lend states: 0 none yet, 1 out, 3 returned, 4 hold taken again. -/
def startStep (s : State) : State :=
  match s.start.step with
  | 1 => let t := followGate s
         if t.keeper.drivers then beginView (stampStep t) else t
  | 2 => stampStep s
  | 3 => stampStep (trainAll (discover s))
  | 4 =>
    if s.start.lend = 0 then (if lendWanted s then lendBuses s else stampStep s)
    else if s.start.lend = 4 then
      let t := followGate s
      if t.keeper.drivers then stampStep (record 0x0030 pathTwin (le 1 s.keeper.role ++ le 8 (s.now - s.start.lendAt)) t) else t
    else if lendOver s then driveHold { s with start := { s.start with lend := 4 } }
    else s
  | 5 => stampStep (restoreCornice s)
  | 6 =>
    match s.start.reloadAt with
    | none => { s with start := { s.start with reloadAt := some s.now } }
    | some t => if t + s.start.reloadNs ≤ s.now then stampStep (reloadKeyway s) else s
  | 7 => stampStep (giveUpSpills (loadReadCounters (settleFlash s)))
  | 8 => stampStep (takeService s)
  | 9 => reportGauge (beginServing s)
  | _ => s

/-- The start goes on as far as it can: a running device that has begun and has no role yet. -/
def startRounds : Nat → State → State
  | 0, s => s
  | n + 1, s => startRounds n (if firstStarting s then startStep s else s)

/-- Progress of the start (R585), then whatever it sent to its own slot. -/
def startProgress (s : State) : State := if firstStarting s then settle (startRounds 10 s) else s

/-! ### From core release to a role (R584) -/

/-- Steps 1 to 5 from the selected configuration on: settings and keys in force, role taken. -/
def afterConfig (s : State) : State :=
  match s.cfg with
  | none => s
  | some c =>
    let slot := c.roster.bind (fun r => (r.slots.find? (fun e => e.pair == c.pair)).map (·.slot))
    let a := openPackage { s with ice := { s.ice with slot := slot } }
    let b := adoptEpoch (sendEpoch a) a
    if ! hasKeys b then record 0x7012 pathPkg (le 1 (if b.sec.root.isNone then 0 else 1)) b
    else
      let d := loadWard { b with
        start := { b.start with unconfigured := false }
        gauge := { b.gauge with due := true } }
      startProgress (takeRole (openInterval d))

/-- Management port, NVMe-MI and hinge training begin (R584 step 3); lasting faults of MAC lanes stay retired (R365). -/
def startLinks (s : State) : State :=
  let a := startPorts s
  let b := ((lastingOf a 5).filter (fun t => unitCode t.path != 0x32)).foldl (fun t x => retireLane (instOf x.path) t) a
  { b with twin := { b.twin with trainSince := if s.pace.clocksLost.contains 1 then none else some s.now, triedAt := s.now } }

/-- A start from a GOOD bank confirms at the end of step 3 (R619). -/
def confirmGood (s : State) : State :=
  if s.boot.trial then s
  else { s with boot := writeBp { s.boot with
    failed := 0, confirmed := true, confirmedAt := s.now, cleanSince := if s.boot.cleanSince = 0 then s.now else s.boot.cleanSince } }

end Sys2Proof.Machine
end

