-- ==== Sys2Proof/Machine/StartFamily.lean ====
section
/-! DEFINITION. From core release to service, the lend and its borrower, and the monitors of a start (R163, R185, R400, R426, R552,
R582 to R591, R617 to R619). -/

namespace Sys2Proof.Machine

/-! ### Core release (R582 to R584, R614, R617) -/

/-- The bank that runs once the copies of this start have ended; none sends the device to RECOVERY. A copied bank records 0x8213 with
its duration in ms. -/
def finishCopy (env : ReleaseEnv) (s : State) : State × Bool :=
  match s.boot.copying with
  | none => (s, s.boot.runs.isSome)
  | some (x, _, _) =>
    if env.copyOk then (record 0x8213 pathPkg (le 1 x ++ le 4 (env.copyNs / 1000000)) s, true)
    else
      let (b, r) := copyFailed x s.serial s.boot
      ({ s with boot := b }, r.isSome)

/-- RECOVERY (R624): no core is released, hold stays released with the release beat, 0x8217 is latched with the failed starts and the
bank states; only the management port runs, and no configuration is read. -/
def enterRecovery (s : State) : State :=
  let r := { newRec s.now false 0x8217 6 pathPkg (le 1 s.boot.failed ++ le 1 s.boot.bankA.state ++ le 1 s.boot.bankB.state) with carried := true }
  { s with
    mor := { s.mor with carried := s.mor.carried ++ [r] }
    cfg := none
    net := { Net.reset with macs := [freshMac s.now macMM 4] }
    keeper := { s.keeper with phase := .recovery, beatOut := .release, beatOutAt := s.now, fillAt := none }
    boot := { s.boot with copying := none, runs := none, trial := false } }

/-- The root keys are unwrapped, or treated as absent with 0x7012 (R486). -/
def unwrapKeys (ok : Bool) (s : State) : State :=
  if ok ∨ s.sec.root.isNone then s
  else record 0x7012 pathPkg (le 1 0) { s with
    sec := { s.sec with root := none, rootKey := ⟨[], []⟩, inUse := none }
    keys := { s.keys with entries := [] } }

/-- What a start does once its first records are written: tunables, configuration, links, confirmation, keys and role (R584, R572,
R591, R619). -/
def releaseRun (env : ReleaseEnv) (s : State) : State :=
  let base := max s.boot.copyEnd s.keeper.start0
  let a := resetTunables env.layout { s with start := { s.start with servingBy := some (base + 60000000000) } }
  let b := unwrapKeys env.rootOk (configSelect a)
  let c := startLinks b
  let d := if c.keeper.kind = .wake then bump macMM 31 1 c else c
  afterConfig (confirmGood d)

/-- CORE_RELEASE (R582 to R584): fill and verification have ended: the cores are released, or RECOVERY is entered. -/
def execCoreRelease (env : ReleaseEnv) (s : State) : Result :=
  onlyIf (s.keeper.phase == .keeper && ! s.keeper.testEn) (fun s =>
    let (a, go) := finishCopy env s
    if ! go then enterRecovery a
    else releaseRun env (firstRecords a.mor.carried a.mor.phase env.katFails env.badEntries (freshRun env a))) s

/-- An unconfigured device tries both slots again, and starts from them where one passes (R552). -/
def retrySlots (s : State) : State :=
  let t := configSelect s
  if t.cfg.isNone then t else afterConfig (startLinks { t with twin := { t.twin with roleState := .unassigned } })

/-- UNCONFIGURED_RETRY (R552): an unconfigured device tries both slots again every 60 s. -/
def execUnconfiguredRetry (s : State) : Result :=
  onlyIf (running s && s.start.unconfigured && s.cfg.isNone && decide (s.start.triedAt + 60000000000 ≤ s.now)) retrySlots s

/-! ### Waiting for a twin (R400, R426) -/

/-- HELLO_WAIT_TIMEOUT (R426 step 4): 10 s without a Hello and HOLD_IN low: a complete journal starts as first of its pair, another
records 0x4080 every 60 s and keeps waiting. A wait that a Hello came in ends with the 10 s too, without 0x4080 (log 45). -/
def execHelloWaitTimeout (s : State) : Result :=
  match s.start.waitSince with
  | some t => onlyIf (running s && decide (t + 10000000000 ≤ s.now) && ! s.keeper.holdIn) (fun s =>
      if s.twin.complete then startProgress (startFirst (if s.twin.twinHello.isSome then none else some 2) s)
      else if s.start.waitNoted = 0 ∨ s.start.waitNoted + 60000000000 ≤ s.now then
        record 0x4080 pathTwin (le 1 3) { s with start := { s.start with waitNoted := s.now } }
      else s) s
  | none => .next s

/-- TWIN_PRESENT_POLL (R400): every 1 s the pin is read; a change is recorded, with a code and a severity that the spec does not give
(log 13), and causes nothing else. -/
def execTwinPresentPoll (fitted : Bool) (s : State) : Result :=
  onlyIf (running s) (fun s =>
    let t := { s with keeper := { s.keeper with twinFitted := fitted } }
    if fitted == s.keeper.twinFitted then t else recordRule 400 (Config.eventSeverity 400).val pathKeeper t) s

/-! ### Monitors (R185, R588, R591) -/

/-- KEYWAY_RELOAD_DEADLINE (R185): 8 s after the first image read the reload is not complete: 0x9363, and it goes on. -/
def execKeywayReloadDeadline (s : State) : Result :=
  match s.start.reloadAt with
  | some t => onlyIf (firstStarting s && decide (s.start.step = 6) && ! s.start.reloadMissed && decide (t + 8000000000 ≤ s.now)) (fun s =>
      record 0x9363 (pathMonitor 0) [] { s with start := { s.start with reloadMissed := true } }) s
  | none => .next s

/-- SERVING_DEADLINE (R591): not serving within the bound: 0x9020 with the step reached. -/
def execServingDeadline (s : State) : Result :=
  match s.start.servingBy with
  | some t => onlyIf (running s && ! s.start.serving && decide (t ≤ s.now)) (fun s =>
      record 0x9020 (pathMonitor 0) (le 1 s.start.step) { s with start := { s.start with servingBy := none } }) s
  | none => .next s

/-! ### Borrowing the buses (R587, R588) -/

/-- A lend is offered to a device that joins: it reaches for the buses. -/
def borrow (s : State) : State :=
  if s.twin.roleState = .standby ∧ s.start.lend = 0 then driveHold { s with start := { s.start with lend := 2, lendAt := s.now } } else s

/-- The borrower has trained: hold is released and the lend returned; a device that joins beats normally (R405). -/
def returnLend (s : State) : State :=
  let t := sendFrame (.joinStage 0x11 0) (releaseHold { s with start := { s.start with lend := 0 } })
  { t with keeper := { t.keeper with beatOut := .normal } }

/-- A borrower's drivers enable: it trains every channel at once (log 46). -/
def borrowProgress (s : State) : State :=
  if s.start.lend = 2 then
    let t := followGate s
    if t.keeper.drivers then returnLend (trainAll t) else t
  else s

/-- LEND_DEADLINE (R588): 40 ms after it drove HOLD_OUT the borrower releases hold, 0x9022 with the channels trained. -/
def execLendDeadline (trained : Nat) (s : State) : Result :=
  onlyIf (running s && decide (s.start.lend = 2) && decide (s.start.lendAt + 40000000 ≤ s.now)) (fun s =>
    record 0x9022 (pathMonitor 0) (le 1 trained)
      (returnLend { s with twin := { s.twin with writeTrained := List.range (min trained 128) } })) s

end Sys2Proof.Machine
end

