-- ==== Sys2Proof/Machine/TakeOps.lean ====
section
/-! DEFINITION. Taking over as shared operations: conditions, flash operations resumed, transport and commands in flight, completion
(R432 to R443, Tables 10.11 and 10.12). -/

namespace Sys2Proof.Machine

/-! ### Conditions (R432) -/

/-- The twin is not holding as far as this device can tell: its last Status says so, none has come for 4 µs, or the link is down. -/
def twinNotHolding (s : State) : Bool :=
  ! s.twin.linkUp || decide (s.twin.statusAt + 4000 ≤ s.now) || match s.twin.status with | some x => x.hold == 0 | none => false

/-- The three conditions of R432. -/
def mayTake (s : State) : Bool :=
  ! s.keeper.holdIn && decide (s.keeper.holdInAt + 1000 ≤ s.now) && (s.keeper.beatIn == .release || s.keeper.beatIn == .silent) && twinNotHolding s

/-- Cause for event 0x4010: 1 yield, 2 keeper release, 3 silent beat, 4 planned. -/
def takeCause (s : State) : Nat :=
  if s.twin.handoff then 4 else if s.twin.twinYield ≠ 0 then 1 else if s.keeper.beatIn = .release then 2 else 3

/-! ### Mirrored connections (Table 10.7) -/

/-- A connection as this device goes on with it. -/
def connFrom (x : ConnSt) : Conn :=
  { idx := x.idx, rdma := x.rdma, mgmt := x.mgmt, disc := x.disc, cntl := x.cntl, qid := x.qid, qsize := x.qsize, inited := x.inited
    hdgst := x.hdgst, ddgst := x.ddgst, align := x.align, carrier := none, sndAck := x.sndAck, sndNxt := x.sndNxt, rcvNxt := x.rcvNxt
    wnd := x.wnd, mac := x.mac, v6 := x.v6, mss := x.mss }

/-- A feature value that was mirrored, or its default. -/
def featOf (s : State) (cntl fid dflt : Nat) : Nat :=
  match s.twin.feats.find? (fun f => f.1 == cntl && f.2.1 == fid) with | some f => f.2.2 | none => dflt

/-- A controller as its admin queue's mirrored state holds it; the event requests stand again with their capsules, and its keep-alive
time begins anew (R96). One whose state was not mirrored stands enabled (log 49). -/
def ctrlFrom (s : State) (x : ConnSt) : Ctrl :=
  match x.ctrl with
  | some c => { c with seenAt := s.now, aers := [] }
  | none =>
  { id := x.cntl, mgmt := false, disc := x.disc, nqn := x.nqn, kato := featOf s x.cntl 0x0F x.kato, seenAt := s.now
    queues := featOf s x.cntl 0x07 64, aec := featOf s x.cntl 0x0B 0, aers := [], masked := [], waiting := [], sat := featOf s x.cntl 0xC0 30000
    cc := 1, shst := 0, props := [], errors := [], errCount := 0, changed := [] }

/-- The connections and controllers of the pair, beside those of the own management port. -/
def takeConns (s : State) : State :=
  let cs := s.twin.conns.map (·.1)
  { s with host := { s.host with
      conns := s.host.conns.filter (·.mgmt) ++ cs.map connFrom
      ctrls := s.host.ctrls.filter (·.mgmt) ++ (cs.filter (fun x => x.cntl != 0 && x.qid == 0)).map (ctrlFrom s) } }

/-! ### Flash operations (R434, R435, Table 10.12) -/

/-- Use of tokens of an operation (Table 11.6). -/
def opUse (o : OpEntry) : Nat := if o.op = 3 then 3 else if o.op = 4 then 2 else 1

/-- Tokens of an operation that is out on its die already count, whatever the limiter says (R473). -/
def countOp (o : OpEntry) (s : State) : State :=
  let r : TokReq := { id := s.power.tokenId, die := o.die, block := o.block, wl := o.wl, use := opUse o, tokens := tokenCost s (opUse o) o.die, rank := 1, at_ := s.now }
  { s with power := noteTotal s.now { s.power with tokenId := s.power.tokenId + 1, granted := s.power.granted ++ [r] } }

/-- One entry: data-in is reissued from its source, a suspended one resumed, everything else polled until ready. -/
def resumeOne (s : State) (o : OpEntry) : State :=
  let out (t : State) : State :=
    countOp o { t with twin := { t.twin with ops := updIf (fun x => x == o) (fun x => { x with state := 2 }) t.twin.ops } }
  if o.op ≠ 3 ∧ o.state = 1 then askTokens (opUse o) 1 1 o.die o.block o.wl s
  else if o.op ≠ 3 ∧ o.state = 3 then emitNow (.flashOp o.die 5 o.block o.wl) (out s)
  else out s

/-- Operations in die order. -/
def opsByDie (s : State) : List OpEntry := s.twin.ops.insertionSort (fun a b => a.die ≤ b.die)

/-- Every CE_n high on every channel, READ STATUS to each LUN named, then the entries are resumed; channels whose writes are not
trained are trained within 20 ms (R434 to R436, R236); read counters gain 20 000 (R283). -/
def resumeOps (s : State) : State :=
  let a := flashOuts ((List.range 128).map .ceHigh ++ (opsByDie s).map (fun o => .readStatus o.die)) s
  let wait := (opsByDie a).filter (fun o => o.op != 3 && o.state == 1)
  let b := (opsByDie a).foldl resumeOne { a with twin := { a.twin with
    resume := wait.map (fun o => (o.die, o.block, o.wl))
    trainBy := if 128 ≤ a.twin.writeTrained.length then none else some (a.now + 20000000) } }
  { b with media := { b.media with rdc := b.media.rdcCopy.map (fun x => (x.1, x.2.1, x.2.2 + 20000)) } }

/-- Data-in operations that are still to be reissued. -/
def resumeLeft (s : State) : Bool :=
  s.twin.resume.any (fun r => s.twin.ops.any (fun o => o.die == r.1 && o.block == r.2.1 && o.wl == r.2.2 && o.state == 1))

/-! ### Commands in flight (R435, R436, R438) -/

/-- A mirrored Set Features runs again. -/
def rerunFeature (a : Adm) (dw10 dw11 : Nat) (s : State) : State :=
  let fid := dw10 % 256
  stateOf s (if dw10.testBit 31 then execSetFeaturesInvalid a fid true s else
    match fid with
    | 0x02 => execSetPowerManagement a dw11 s
    | 0x07 => execSetNumberOfQueues a dw11 s
    | 0x0B => execSetAsyncEventConfiguration a dw11 s
    | 0x0F => execSetKeepAliveTimer a dw11 s
    | 0xC0 => execSetStoreAdmissionTimeout a dw11 s
    | n => execSetFeaturesInvalid a n false s)

/-- A mirrored Property Set or Property Get runs again. -/
def rerunProperty (a : Adm) (q : Sqe) (s : State) : State :=
  if q.nsid = 4 then stateOf s (execPropertyGet a (q.dw 11) ((q.dw 10).testBit 0) s)
  else if q.dw 11 = offCc ∧ shnOf (q.dw 12) ≠ 0 then mirrorConn a.conn (endController a s)
  else stateOf s (execPropertySet a (q.dw 11) (q.dw 12 + 2 ^ 32 * q.dw 13) s)

/-- A mirrored admin capsule runs again from its dwords and its data and completes with the status it would have had (R96). An event
request stands again; Planned Takeover has succeeded; Format NVM goes on with its purge, or begins. -/
def rerunAdmin (s : State) (x : Cap) : State :=
  let q := x.q
  let a : Adm := ⟨q.conn, q.cid⟩
  match x.opc with
  | 0x02 => stateOf s (execGetLogPage a (q.dw 10 % 256) (q.dw 12 + 2 ^ 32 * q.dw 13) (4 * (q.dw 10 / 2 ^ 16 + 2 ^ 16 * (q.dw 11 % 2 ^ 16) + 1))
      ((q.dw 10).testBit 15) (q.dw 10 / 2 ^ 8 % 2 ^ 7) (q.dw 11 / 2 ^ 16) s)
  | 0x06 => stateOf s (execIdentify a (q.dw 10 % 256) q.nsid (q.dw 10 / 2 ^ 16) (q.dw 11 / 2 ^ 24) s)
  | 0x08 => stateOf s (execAbort a (q.dw 10 % 2 ^ 16) (q.dw 10 / 2 ^ 16) s)
  | 0x09 => rerunFeature a (q.dw 10) (q.dw 11) s
  | 0x0A => stateOf s (execGetFeatures a (q.dw 10 % 256) (q.dw 10 / 2 ^ 8 % 8) s)
  | 0x0C => onCtrl q.conn (fun y => { y with aers := y.aers ++ [q.cid] }) s
  | 0x18 => stateOf s (execKeepAlive a s)
  | 0x7F => rerunProperty a q s
  | 0xC1 => stateOf s (execFilterRegister a (q.dw 10) x.data s)
  | 0xC4 => stateOf s (execFilterRelease a (q.dw 10 % 2 ^ 16) s)
  | 0xC8 => complete q.conn q.cid 0 stOk 0 0 [] s
  | 0x80 => match s.kw.purging.find? (fun p => p.2.1 == 0xFFFFFFFF && p.1 == q.nsid) with
    | some _ => { s with kw := { s.kw with purging := updIf (fun y => y.1 == q.nsid) (fun y => (y.1, q.conn, q.cid)) s.kw.purging } }
    | none => stateOf s (execFormatNvm a q.nsid (q.dw 10) s)
  | _ => complete q.conn q.cid 0 stInternal 0 0 [] s

/-- A mirrored capsule runs to its completion, its fused Key Carrier ending first: reading and listing commands begin anew; a changing
command goes on with its pending Store record, or begins where none was made (R96, R435, R438). Firmware Commit and Image Download are
taken only at a management port, which the twins do not share (log 48). -/
def rerun (s : State) (x : Cap) : State :=
  let q := x.q
  let known := [0x01, 0x10, 0x81, 0x84].contains x.opc && s.ice.stores.any (fun e => e.conn == q.conn && e.cid == q.cid)
  let admin : Bool := match connBy s q.conn with | some y => y.qid == 0 | none => false
  if admin then rerunAdmin s x
  else
    if known then s else runCap (if x.opc = 0x8D then s else (fuse q (isVendor x.opc && x.opc != 0x8A) s).1) x

/-- Acknowledgements and retransmission on every connection with unacknowledged data (R436 steps 2 and 3). -/
def resumeConns (s : State) : State :=
  s.twin.conns.foldl (fun t p =>
    let x := p.1
    let busy := decide (x.sndAck < x.sndNxt)
    let a := if busy ∨ ! p.2.1.isEmpty then emitNow (.transportAck x.idx x.rcvNxt) t else t
    if busy then emitNow (.retransmit x.idx x.sndAck) a else a) s

/-- Every mirrored command in flight runs on. -/
def rerunAll (s : State) : State :=
  (s.twin.conns.flatMap (fun p => p.2.1)).foldl rerun { s with twin := { s.twin with conns := [], feats := [], selected := 0 } }

/-! ### Completion and the whole (R433, R437, R440) -/

/-- A takeover is complete once the data-in operations found are reissued: event 0x4011 with the ends of its steps (Table 10.11). -/
def takeProgress (s : State) : State :=
  match s.twin.takeover with
  | some (t, n, _) =>
    if n < 7 ∨ resumeLeft s then s
    else record 0x4011 pathTwin (s.twin.takeTimes.flatMap (fun x => le 4 (x - t)) ++ le 4 (s.now - t))
      { s with twin := { s.twin with takeover := none, resume := [] } }
  | none => s

/-- Transport resumes: announcements, acknowledgements, commands (R436). -/
def resumeTransport (s : State) : State :=
  let a := resumeConns (announceNow s)
  let b := rerunAll { a with twin := { a.twin with
    takeover := a.twin.takeover.map (fun x => (x.1, 7, x.2.2)), takeTimes := a.twin.takeTimes ++ [a.now] } }
  takeProgress (settle (rederiveRepairs b))

/-- A flush that was running, or the supply that failed, is answered before transport resumes: the flush goes on in the set the last
Flush Progress frame named; what is left of R436 is abandoned (R440). -/
def continueFlush (s : State) : State :=
  let a := beginFlush 4 0 s.gauge.v { s with twin := { s.twin with takeover := none, resume := [] } }
  match s.power.progress with
  | some (set, idx) => { a with power := { a.power with
      flush := a.power.flush.map (fun f => { f with set := set, index := idx, left := f.left.filter (fun g => decide (idx < g)), measured := false }) } }
  | none => a

/-- Whether a flush is on its way at the twin, or is due here: this device is parked for a power failure (R440, R468). -/
def flushDue (s : State) : Bool :=
  s.keeper.pfail || s.twin.parked || match s.twin.status with | some x => x.flush | none => false

/-- The takeover from the moment the STANDBY drives HOLD_OUT (R433 to R436): ACTIVE, 0x4010, addresses, no healthy STANDBY, flash
operations, transport. A planned one begins a new link session with its Hello (R443). -/
def takeOver (cause : Nat) (s : State) : State :=
  let a := driveHold { s with twin := { s.twin with
    roleState := .active, complete := true, healthy := false, takeover := some (s.now, 5, false), takeTimes := [s.now], retakeSince := none
    session := s.twin.session && cause != 4, unacked := [], twinYield := 0, handoff := false, yieldAt := none, keeperRelease := none, closedDoor := false, joinStage := 0, copying := false, ackMissed := false
    report := none } }
  let b := record 0x4010 pathTwin (le 1 cause) { a with start := { a.start with stoppedServing := false, step := 9 } }
  let c := takeConns { b with start := { b.start with service := true }, net := { b.net with annLeft := 3, repLeft := 1, annAt := b.now } }
  let d := raiseAsync 0 2 (setRaised true 1 (record 0x4040 pathTwin (le 1 1) c))
  let e := resumeOps (recount d)
  let f := { e with twin := { e.twin with takeover := e.twin.takeover.map (fun x => (x.1, 6, x.2.2)), takeTimes := e.twin.takeTimes ++ [e.now], parked := false } }
  let g := if flushDue s then continueFlush f else resumeTransport f
  if cause = 4 then
    let h := sendHello g
    { h with twin := { h.twin with session := h.twin.twinHello.isSome } }
  else g

/-- After a yield whose twin did not take over, or a planned takeover abandoned by it, the old ACTIVE goes on under the takeover steps
with its own state (R430). -/
def resumeActive (s : State) : State :=
  let a := driveHold { s with twin := { s.twin with roleState := .active, yieldAt := none, closedDoor := false } }
  let b := raiseAsync 0 2 (setRaised true 1 (record 0x4040 pathTwin (le 1 1) { a with start := { a.start with service := true } }))
  resumeOps (announceNow { b with net := { b.net with annLeft := 3, repLeft := 1, annAt := b.now } })

end Sys2Proof.Machine
end

