-- ==== Sys2Proof/Machine/HoldFamily.lean ====
section
/-! DEFINITION. The discrete hinge signals and what they decide: collisions, the beat and its feed, takeover, yield and return (R401 to
R408, R426 to R432, R437, R441). -/

namespace Sys2Proof.Machine

/-! ### Signals against Status (Table 10.14) -/

/-- A hinge signal that disagrees with the twin's Status is recorded once: 1 HOLD, 2 BEAT (0x4051). -/
def noteSignal (n : Nat) (s : State) : State :=
  if s.twin.inconsistent.contains n then s
  else record 0x4051 pathTwin (le 1 n) { s with twin := { s.twin with inconsistent := sIns n s.twin.inconsistent } }

/-- The twin's last Status says that it holds. -/
def twinHolds (s : State) : Bool := match s.twin.status with | some x => x.hold == 2 && decide (s.now < s.twin.statusAt + 4000) | none => false

/-- A STANDBY watches its signals: BEAT_IN silent while HOLD_IN is high and Status reports holding is an open BEAT wire; HOLD_IN low
for 100 µs while the beat is normal and Status reports holding an open HOLD wire. -/
def checkSignals (s : State) : State :=
  if s.twin.roleState ≠ .standby then s
  else
    let a := if s.keeper.beatIn = .silent ∧ s.keeper.holdIn ∧ twinHolds s then noteSignal 2 s
      else if s.keeper.beatIn ≠ .silent then { s with twin := { s.twin with inconsistent := s.twin.inconsistent.filter (· != 2) } } else s
    if ! a.keeper.holdIn ∧ a.keeper.beatIn = .normal ∧ twinHolds a then
      match a.twin.holdOddSince with
      | none => { a with twin := { a.twin with holdOddSince := some a.now } }
      | some t => if t + 100000 ≤ a.now then noteSignal 1 a else a
    else { a with twin := { a.twin with holdOddSince := none, inconsistent := a.twin.inconsistent.filter (· != 1) } }

/-! ### HOLD_IN (R403, R404, R430, R431) -/

/-- A device that reached for the buses and gave way takes its role afresh. -/
def roleAfresh (s : State) : State :=
  takeRole { s with
    twin := { s.twin with roleState := .unassigned, healthy := false, takeover := none, resume := [] }
    start := { s.start with step := 0, lend := 0 } }

/-- A collision (R403): the drivers are off, 0x4050; ROLE B releases: one that was only acquiring keeps its beat's form and takes its role
afresh, one that held releases in the order of R402. ROLE A keeps HOLD_OUT and watches for 10 ms. -/
def collide (s : State) : State :=
  let held := s.keeper.drivers
  let a := record 0x4050 pathTwin (le 1 s.keeper.role ++ le 1 (if held then 1 else 0)) { s with keeper := { s.keeper with drivers := false, terms := false } }
  if s.keeper.role = 0 then noteHold s { a with twin := { a.twin with collision := some (a.twin.collision.getD a.now) } }
  else
    let b := if held then releaseHold a
      else sendStatus { a with keeper := { a.keeper with holdOut := false, beatOut := a.keeper.beatWas } }
    roleAfresh b

/-- Elements a yielded device tests (R431): the quarantined regions, or those of the die at fault. -/
def yieldSites (s : State) : List Site :=
  let rs := if s.twin.criterion = 1 then s.mem.qRegions else if s.twin.criterion = 2 ∧ s.twin.detail ≤ 1 then [2 * s.twin.detail, 2 * s.twin.detail + 1] else []
  rs.map (fun r => { mem := 255, path := pathRegion r, idx := r, kind := 8, addr := 0 })

/-- A device that waits under step 4 of R426 joins once its twin holds. -/
def waitJoin (s : State) : State :=
  if running s ∧ s.start.waitSince.isSome ∧ s.keeper.holdIn ∧ s.keeper.beatIn = .normal then joinStandby s else s

/-- HOLD_IN_RISE (R403, R430, R431): a collision while HOLD_OUT is driven; a yielded device stays YIELDED and tests what gave rise to its
criterion; a former ACTIVE of a planned takeover ends its release beat; a waiting device joins. -/
def execHoldInRise (s : State) : Result :=
  onlyIf (! s.keeper.holdIn && s.keeper.phase != .off) (fun s =>
    let t := { s with keeper := { s.keeper with holdIn := true, holdInAt := s.now } }
    if t.keeper.holdOut then collide t
    else if ! running t then t
    else if t.twin.roleState = .yielded ∧ t.twin.yieldAt.isSome then
      (yieldSites t).foldl (fun u x => startTest x 2 u) { t with twin := { t.twin with yieldAt := none } }
    else if t.twin.roleState = .standby ∧ t.keeper.beatOut = .release then { t with keeper := { t.keeper with beatOut := .normal, beatOutAt := t.now } }
    else waitJoin t) s

/-- HOLD_IN_FALL (R401, R403): the line is low; after 1 µs of it the drivers of a device that drives HOLD_OUT enable. -/
def execHoldInFall (s : State) : Result :=
  onlyIf (s.keeper.phase != .off) (fun s =>
    if s.keeper.holdIn then { s with keeper := { s.keeper with holdIn := false, holdInAt := s.now }, twin := { s.twin with collision := none } }
    else followGate s) s

/-- Collisions not resolved within the last minute (R404). -/
def recentCollisions (s : State) : List Nat := s.twin.collisions.filter (fun t => decide (s.now < t + 60000000000))

/-- HOLD_COLLISION_TIMEOUT (R404): a ROLE A device that still sees HOLD_IN high 10 ms after a collision releases, 0x4052 reason 1, and
takes its role afresh after 1 s; after three within 1 min it takes none. -/
def execHoldCollisionTimeout (s : State) : Result :=
  match s.twin.collision with
  | some t => onlyIf (running s && decide (s.keeper.role = 0) && s.keeper.holdIn && s.keeper.holdOut && decide (t + 10000000 ≤ s.now)) (fun s =>
      let cs := recentCollisions s ++ [s.now]
      let a := record 0x4052 pathTwin (le 1 1 ++ le 1 s.keeper.role ++ le 1 cs.length) (releaseHold s)
      let none3 := decide (3 ≤ cs.length)
      { a with
        start := { a.start with step := 0, lend := 0 }
        twin := { a.twin with
          collision := none, collisions := cs, healthy := false, takeover := none, resume := [], noRole := a.twin.noRole || none3
          roleState := if none3 then .yielded else .unassigned
          retakeAt := if none3 then none else some (a.now + 1000000000) } }) s
  | none => .next s

/-! ### The beat (R405 to R408) -/

/-- KEEPER_FEED (R406). -/
def execKeeperFeed (s : State) : Result :=
  onlyIf (running s) (fun s => { s with keeper := { s.keeper with fed := true, fedAt := s.now } }) s

/-- The keeper releases hold for a missed feed (R406): 0x4021 is latched with the time of the last feed, and named in the next 0x0010. -/
def missedFeed (s : State) : State :=
  let r := { newRec s.now s.ptp.locked 0x4021 6 pathKeeper (le 8 s.keeper.fedAt) with carried := true }
  let t := releaseHold s
  { t with
    mor := { t.mor with carried := t.mor.carried ++ [r] }
    keeper := { t.keeper with latched := t.keeper.latched ++ [0x4021] }
    twin := { t.twin with roleState := .unassigned, healthy := false, keeperRelease := some t.now, takeover := none, resume := [] }
    start := { t.start with step := 0, lend := 0, serving := false } }

/-- BEAT_EDGE (R405, R406): an edge of the normal beat every 4.0 µs ±1 %: without a feed since the one before, hold is released. -/
def execBeatEdge (s : State) : Result :=
  onlyIf (running s && s.keeper.beatOut == .normal && decide (s.keeper.beatOutAt + 3960 ≤ s.now)) (fun s =>
    if s.keeper.fed then { s with keeper := { s.keeper with fed := false, beatOutAt := s.now } } else missedFeed s) s

/-- HOLD_DRIVER_TIMER (R407): 12 µs without an edge of BEAT_OUT: drivers off, HOLD_OUT at high impedance, and the Status frame of R414. -/
def execHoldDriverTimer (s : State) : Result :=
  onlyIf ((s.keeper.holdOut || s.keeper.drivers) && decide (s.keeper.beatOutAt + 12000 ≤ s.now)) (fun s =>
    noteHold s { s with keeper := { s.keeper with holdOut := false, drivers := false, terms := false, beatOut := .none }, start := { s.start with service := false } }) s

/-- BEAT_IN_EDGE (R408): two edges no more than 1 µs apart are the release beat. An ACTIVE loses or finds its STANDBY with it
(Table 10.9). -/
def execBeatInEdge (s : State) : Result :=
  onlyIf (s.keeper.phase != .off) (fun s =>
    let cls : BeatClass := if s.now ≤ s.keeper.beatInAt + 1000 then .release else .normal
    let t := { s with keeper := { s.keeper with beatIn := cls, beatInAt := s.now } }
    if ! running t then t
    else if cls = .normal then waitJoin (gainStandby (checkSignals t)) else loseStandby 4 t) s

/-- BEAT_IN_SILENT (R408): no edge for 16 µs. -/
def execBeatInSilent (s : State) : Result :=
  onlyIf (s.keeper.phase != .off && decide (s.keeper.beatInAt + 16000 ≤ s.now)) (fun s =>
    let t := { s with keeper := { s.keeper with beatIn := .silent } }
    if running t then checkSignals (loseStandby 4 t) else t) s

/-! ### Takeover (R432, R437) -/

/-- TAKEOVER_TRIGGER (R432). -/
def execTakeoverTrigger (s : State) : Result :=
  onlyIf (running s && s.twin.roleState == .standby && s.twin.healthy && s.start.lend == 0 && mayTake s) (fun s => takeOver (takeCause s) s) s

/-- TAKEOVER_MONITOR (R437): 32 µs after the classification the takeover is not complete: 0x9420 with the step reached. -/
def execTakeoverMonitor (s : State) : Result :=
  match s.twin.takeover with
  | some (t, n, noted) => onlyIf (running s && ! noted && decide (t + 32000 ≤ s.now)) (fun s =>
      record 0x9420 (pathMonitor 0) (le 1 n) { s with twin := { s.twin with takeover := some (t, n, true) } }) s
  | none => .next s

/-- STANDBY_ROLE_RETAKE (R432): the conditions have held for 1 ms at a STANDBY that is not healthy: it takes its role as at start. -/
def execStandbyRoleRetake (s : State) : Result :=
  onlyIf (running s && s.twin.roleState == .standby && ! s.twin.healthy && s.start.lend == 0 && mayTake s) (fun s =>
    match s.twin.retakeSince with
    | none => { s with twin := { s.twin with retakeSince := some s.now } }
    | some t => if t + 1000000 ≤ s.now then roleAfresh { s with twin := { s.twin with retakeSince := none } } else s) s

/-! ### Self-diagnosis and yield (R427, R428, R430) -/

/-- The state shows a criterion of Table 10.10; a die-level fault and a fault of die X come from the element itself. -/
def criterionShown (crit : Nat) (s : State) : Bool :=
  match crit with
  | 1 => decide (1 < s.mem.qRegions.length)
  | 2 => true
  | 3 => true
  | 4 => missesExceeded s
  | 5 =>
    (match s.cfg with | some c => c.hinge.netLoss | none => false) &&
    (match s.net.noneSince with | some t => decide (t + 1000000 ≤ s.now) | none => false) &&
    (match s.twin.status with | some x => ! x.macs.isEmpty | none => false)
  | _ => false

/-- YIELD_CRITERION (R427, R428). -/
def execYieldCriterion (crit detail : Nat) (s : State) : Result :=
  onlyIf (running s && criterionShown crit s && decide (s.twin.criterion ≠ crit)) (criterionTrue crit detail) s

/-- YIELD_RETURN_TIMEOUT (R430): HOLD_IN has not risen within 20 µs of the yield: the device holds again and goes on as ACTIVE, 0x4022
reason 2. -/
def execYieldReturnTimeout (s : State) : Result :=
  match s.twin.yieldAt with
  | some t => onlyIf (running s && s.twin.roleState == .yielded && ! s.keeper.holdIn && decide (t + 20000 ≤ s.now)) (fun s =>
      record 0x4022 pathTwin (le 1 s.twin.criterion ++ le 1 2) (resumeActive s)) s
  | none => .next s

/-- KEEPER_RELEASE_RESTART (R430): 1 ms after it released hold for a missed feed the keeper begins a warm start. -/
def execKeeperReleaseRestart (s : State) : Result :=
  match s.twin.keeperRelease with
  | some t => onlyIf (running s && decide (t + 1000000 ≤ s.now)) (fun s =>
      dueWarm .keeperRelease { s with twin := { s.twin with keeperRelease := none } }) s
  | none => .next s

end Sys2Proof.Machine
end

