-- ==== Sys2Proof/Machine/HingeApply.lean ====
section
/-! DEFINITION. What a STANDBY does with mirrored and copied state: journal records, Cornice grains, transport, operation, Milmo and
settings entries, and the stages of its join (R187, R417, R418, R421, R424, R425). -/

namespace Sys2Proof.Machine

/-! ### Journal records (R173, R418) -/

/-- `n` bytes this device has never seen: a free value each (log 6). -/
def unseen (n : Nat) (s : State) : List Byte × State :=
  ((List.range n).map (fun i => BitVec.ofNat 8 (Config.freeValue (s.free + i)).toNat), { s with free := s.free + n })

/-- Payload of an item the twin has laid or moved: from its Cornice grains, else as the item's earlier place on flash gives it; what
this device has never seen is a free value. -/
def laidBytes (i : Item) (s : State) : List Byte × State :=
  if ! i.grains.isEmpty && i.grains.all (fun g => (aGet g s.kw.cornice).isSome) then (itemBytes s { i with d3 := false }, s)
  else match s.kw.items.find? (isItem i) with
    | some o =>
      if ! o.flash.isEmpty && o.flash.all (fun a => (aGet a s.media.flash).isSome) then (itemBytes s { o with d3 := true }, s)
      else unseen i.len s
    | none => unseen i.len s

/-- Grains of an item whose addresses are new to this device enter its map of flash; they await verification until the item is at D3. -/
def learnGrains (i : Item) (s : State) : State :=
  let new := i.flash.filter (fun a => (aGet a s.media.flash).isNone)
  if new.isEmpty then s
  else
    let (bs, t) := laidBytes i s
    let fresh := (i.flash.zip (itemGrains (fpOf (itemHash (kwSecret s) i.ns i.chunk i.key)) i i.counter i.sb bs)).filter (fun p => new.contains p.1)
    { t with media := { t.media with flash := fresh.foldl (fun m p => aSet p.1 p.2 m) t.media.flash, unver := t.media.unver ++ new } }

/-- Grains an item no longer has on flash leave the map. -/
def forgetGrains (gone : List Nat) (s : State) : State :=
  { s with media := { s.media with
      flash := gone.foldl (fun m a => aDel a m) s.media.flash
      unver := s.media.unver.filter (fun a => ! gone.contains a) } }

/-- Grains of an item this device knows under the same identity. -/
def flashOf (ns chunk : Nat) (key : Key) (storeId pos : Nat) (s : State) : List Nat :=
  (s.kw.items.filter (sameItem ns chunk key storeId pos)).flatMap (·.flash)

/-- Apply one mirrored record: the journaled object, and what this device keeps beside it. -/
def applyRec (s : State) (r : JRec) : State :=
  match r with
  | .item i =>
    let old := flashOf i.ns i.chunk i.key i.storeId i.pos s
    let t := forgetGrains (old.filter (fun a => ! i.flash.contains a)) (applyJ r (learnGrains i s))
    if i.d3 then { t with media := { t.media with unver := t.media.unver.filter (fun a => ! i.flash.contains a) } } else t
  | .itemDel ns c key sid pos => forgetGrains (flashOf ns c key sid pos s) (applyJ r s)
  | .flush _ set true =>
    applyJ r (setSpill set { spillSet s set with grains := s.kw.cornice } s)
  | .flush _ set false =>
    let t := applyJ r s
    setSpill set { spillSet t set with pe := (spillSet t set).pe + 1 } t
  | _ => applyJ r s

/-- Mirrored records, in journal sequence order; the sequence applied is noted (Table 10.19). -/
def applyJournal (first : Nat) (rs : List JRec) (s : State) : State :=
  let t := rs.foldl applyRec s
  let n := first + rs.length - 1
  { t with kw := { t.kw with jseq := max t.kw.jseq n }, twin := { t.twin with applied := max t.twin.applied n } }

/-! ### Transport (Table 10.7) -/

/-- Change the connection that is selected. -/
def onSelected (f : ConnSt × List Cap × List (Nat × Nat × Nat) → ConnSt × List Cap × List (Nat × Nat × Nat)) (s : State) : State :=
  { s with twin := { s.twin with conns := updIf (fun x => x.1.idx == s.twin.selected) f s.twin.conns } }

/-- A command of the selected connection is in flight. -/
def addCap (c : Cap) (s : State) : State := onSelected (fun x => ({ x.1 with rcvNxt := x.1.rcvNxt + 72 }, x.2.1 ++ [c], x.2.2)) s

/-- A transport entry. -/
def applyTransport (s : State) (e : TEntry) : State :=
  let n := s.twin.selected
  match e with
  | .select idx => { s with twin := { s.twin with selected := idx } }
  | .openConn c =>
    let old := s.twin.conns.find? (fun x => x.1.idx == c.idx)
    let x : ConnSt × List Cap × List (Nat × Nat × Nat) := match old with | some y => (c, y.2) | none => (c, [], [])
    { s with twin := { s.twin with conns := putIf (fun y => y.1.idx == c.idx) x s.twin.conns } }
  | .close => { s with twin := { s.twin with
      conns := s.twin.conns.filter (fun x => x.1.idx != n), contexts := s.twin.contexts.filter (fun x => x.1 != n) } }
  | .context ns buf opts => { s with twin := { s.twin with contexts := putIf (fun x => x.1 == n) (n, ns, buf, opts) s.twin.contexts } }
  | .compact cid opc opts key =>
    let x := (s.twin.contexts.find? (fun x => x.1 == n)).getD (n, 0, 0, 0)
    addCap { opc := opc, q := mkSqe n opc cid x.2.1 0 key x.2.2.1 opts 0 0 0 0 x.2.2.1, key := key, filter := none } s
  | .capsule c => addCap c s
  | .plan cid off first => onSelected (fun x =>
      ({ x.1 with sndNxt := max x.1.sndNxt (first + 24) }, x.2.1.filter (fun y => y.q.cid != cid), x.2.2 ++ [(cid, off, first)])) s
  | .progress sndAck rcvNxt wnd _ => onSelected (fun x =>
      ({ x.1 with sndAck := sndAck, rcvNxt := rcvNxt, wnd := wnd }, x.2.1, x.2.2.filter (fun p => decide (sndAck ≤ p.2.2)))) s

/-! ### Operations (Table 10.8) -/

/-- Operation table entries that came and went. -/
def applyOps (es : List OpEntry) (gone : List (Nat × Nat × Nat)) (s : State) : State :=
  let same (o : OpEntry) (x : Nat × Nat × Nat) : Bool := o.die == x.1 && o.block == x.2.1 && o.wl == x.2.2
  let kept := s.twin.ops.filter (fun o => ! gone.any (same o))
  { s with twin := { s.twin with ops := es.foldl (fun l e => putIf (fun o => same o (e.die, e.block, e.wl)) e l) kept } }

/-! ### Milmo (Table 10.6) -/

/-- What follows from a changed slot for the bins under handover and succession and for the Service Address log; nothing is sent or
decided (R149, R339, R343, R418). -/
def noteView (x : Nat) (old new : State) : State :=
  let enters := slotState old x != .placing && slotState new x == .placing
  let leaves := slotState old x == .placing && slotState new x != .placing
  let life := alive (slotState old x) != alive (slotState new x)
  { new with
    host := { new.host with generation := if life then new.host.generation + 1 else new.host.generation }
    ice := { new.ice with
      entering := if enters then sIns x new.ice.entering else if leaves then new.ice.entering.filter (· != x) else new.ice.entering
      finals := if enters || leaves then new.ice.finals.filter (fun f => f.1 != x) else new.ice.finals
      departed := if leaves then new.ice.departed.filter (fun d => d.1 != x) ++ [(x, new.now)]
                  else if enters then new.ice.departed.filter (fun d => d.1 != x) else new.ice.departed } }

/-- A view entry of the pair: its own slot's state, or another's. -/
def applyView (v : VSlot) (s : State) : State :=
  if s.ice.slot = some v.slot then
    if s.ice.own = v.state then s else setOwn v.slot v.state s
  else noteView v.slot s { s with ice := { s.ice with view := (putIf (fun x => x.slot == v.slot) v s.ice.view).insertionSort (fun a b => a.slot ≤ b.slot) } }

/-- A Milmo State item. -/
def applyMilmo (s : State) (m : MState) : State :=
  let same (l : Lease) (x : Lease) : Bool := x.id == l.id && x.peer == l.peer
  match m with
  | .view v => let t := applyView v s
               { t with ice := { t.ice with viewed := true } }
  | .lease true l => { s with ice := { s.ice with leases := putIf (same l) l s.ice.leases } }
  | .lease false l => { s with ice := { s.ice with granted := putIf (same l) l s.ice.granted } }
  | .leaseEnd true id p => { s with ice := { s.ice with leases := s.ice.leases.filter (fun x => ! (x.id == id && x.peer == p)) } }
  | .leaseEnd false id p => { s with ice := { s.ice with granted := s.ice.granted.filter (fun x => ! (x.id == id && x.peer == p)) } }
  | .window w => { s with ice := { s.ice with windows := putIf (fun x => x.slot == w.slot && x.role == w.role) w s.ice.windows } }
  | .storeCounter n => { s with ice := { s.ice with storeId := n } }
  | .pendingStore e => { s with ice := { s.ice with stores := putIf (fun x => x.id == e.id) e s.ice.stores } }
  | .storeEnd id => { s with ice := { s.ice with stores := s.ice.stores.filter (fun x => x.id != id) } }
  | .final x b => { s with ice := { s.ice with finals := if s.ice.finals.contains (x, b) then s.ice.finals else s.ice.finals ++ [(x, b)] } }

/-! ### Joining (R424, R425) -/

/-- A mirrored or copied frame is applied by a STANDBY in its session, each once and in order; one that shuts down applies none (R412,
R418, R594). -/
def applies (fseq : Nat) (s : State) : Bool :=
  running s && s.twin.session && s.twin.roleState == .standby && ! inShutdown s && decide (s.twin.rxSeq < fseq)

/-- Apply a frame that requires acknowledgement, and acknowledge it (R418). -/
def onMirrored (fseq : Nat) (f : State → State) (s : State) : Result :=
  onlyIf (applies fseq s) (fun s => becomeHealthy (ackFrames (gotFrame fseq (f s)))) s

/-- Apply a frame that requires none. -/
def onCopied (fseq : Nat) (f : State → State) (s : State) : Result := onlyIf (applies fseq s) (fun s => gotFrame fseq (f s)) s

/-- The join begins anew at J1 (R419, R424). -/
def resetJoin (s : State) : State :=
  loseHealth { s with
    twin := { s.twin with joinStage := 0, joinUnits := 0, joinTimes := [], copying := false }
    kw := { s.kw with slots := [], marks := [], images := [], delta := [], deltaBytes := 0, geometry := none } }

/-- The first Copy Firn frame of a join replaces what this device mirrored before: its journal is not complete until J1 (R424, R425). -/
def beginCopy (s : State) : State :=
  if s.twin.copying then s
  else { s with
    twin := { s.twin with copying := true, complete := false, conns := [], contexts := [], feats := [], selected := 0, ops := [] }
    kw := { s.kw with firn := [], items := [], deltas := [], runs := [], purging := [], cornice := [] }
    media := { s.media with flash := [], unver := [], sbs := [], pe := [], bad := [], drift := [], restored := [] }
    sec := { s.sec with salts := [] }
    ice := { s.ice with
      recs := [], floors := [], intents := [], view := [], entering := [], finals := [], departed := [], granted := [], leases := []
      windows := [], stores := [] } }

/-- Copy Firn: every journaled object as it stands, and the state tables. -/
def applyCopyFirn (rs : List JRec) (es : List TEntry) (ops : List OpEntry) (ms : List MState) (s : State) : State :=
  let a := rs.foldl applyRec (beginCopy s)
  let b := ms.foldl applyMilmo (applyOps ops [] (es.foldl applyTransport a))
  let n := maxL (rs.map (fun r => match r with | .kw k => k.seq | _ => 0))
  reportGauge { b with kw := { b.kw with jseq := max b.kw.jseq n }, twin := { b.twin with applied := max b.twin.applied n } }

/-- Copy Granule: the image of a granule with its tag; its first frame empties the granule (R187). -/
def applyGranule (g tag : Nat) (ws : List SlotWrite) (s : State) : State :=
  let known := s.kw.images.any (fun i => i.granule == g && i.tag == tag)
  let k := if known then s.kw else { s.kw with
    slots := s.kw.slots.filter (fun p => granuleOf (p.1 / 4) != g)
    marks := s.kw.marks.filter (fun b => granuleOf b != g)
    images := s.kw.images.filter (fun i => i.granule != g) ++ [⟨g, tag, 0, true, [], []⟩] }
  let k2 := applyWrites ws k
  let img (i : GranImage) : GranImage := { i with
    slots := k2.slots.filter (fun p => granuleOf (p.1 / 4) == g), marks := k2.marks.filter (fun b => granuleOf b == g) }
  { s with kw := { k2 with images := updIf (fun i => i.granule == g) img k2.images, jseq := max k2.jseq tag } }

/-- A stage is complete at the joining device: it says so, and past J1 its journal is complete (R424, R425). The granules copied are
its checkpoint; without any it has none, and would rebuild the table (R163). -/
def stageDone (stage units : Nat) (s : State) : State :=
  let t := { s with twin := { s.twin with
    joinStage := stage, joinUnits := units, joinTimes := s.twin.joinTimes ++ [(s.now - s.keeper.start0) / 1000000]
    complete := true } }
  let u := if stage = 3 then { t with kw := { t.kw with geometry := if t.kw.images.isEmpty then none else some (buckets t.kw.dram) } } else t
  becomeHealthy (sendFrame (.joinStage stage units) u)

end Sys2Proof.Machine
end

