-- ==== Sys2Proof/Machine/HingeFamily.lean ====
section
/-! DEFINITION. The frames of the hinge link as they arrive, training, and the transport entries of an ACTIVE (R413 to R424, R428 to R430,
R442, R443). -/

namespace Sys2Proof.Machine

/-! ### Hello (R413, R416, Table 10.5) -/

/-- Serial number the Hinge record names as the twin's: that of the other device of the pair. -/
def twinSerial (s : State) : Nat :=
  match s.cfg with
  | some c => if c.hinge.serialA = s.serial then c.hinge.serialB else c.hinge.serialA
  | none => 0

/-- The first reason, in the order of Table 10.5, for which a Hello is refused. -/
def joinRefusal (b : HelloB) (s : State) : Option Nat :=
  let o := ownHello s
  if b.major ≠ o.major then some 5
  else if b.role = o.role then some 2
  else if b.serial ≠ twinSerial s then some 8
  else if b.pair ≠ o.pair then some 1
  else if b.dram ≠ o.dram then some 3
  else if b.firn ≠ o.firn then some 4
  else if b.check ≠ o.check then some 6
  else if b.geo ≠ o.geo then some 7
  else none

/-- A join is refused: 0x4060 with the reason; twins strapped alike release hold and take no role until their next cold start, 0x4052
(R404, R416). -/
def refuseJoin (r : Nat) (s : State) : State :=
  let a := record 0x4060 pathTwin (le 1 r) { s with twin := { s.twin with refused := some r, refusedAt := s.now, session := false, twinHello := none } }
  if r ≠ 2 then a
  else
    let b := if a.keeper.holdOut then releaseHold a else a
    record 0x4052 pathTwin (le 1 2 ++ le 1 b.keeper.role ++ le 1 (recentCollisions b).length)
      { b with
        twin := { b.twin with noRole := true, roleState := .yielded, healthy := false }
        start := { b.start with step := 0, waitSince := none, serving := false } }

/-- Both Hellos are exchanged: the session begins; a STANDBY that has not copied everything asks for its join (R413, R424, R443). -/
def beginSession (fseq : Nat) (b : HelloB) (s : State) : State :=
  let a := if s.twin.helloSent then s else sendHello s
  let t := { a with twin := { a.twin with session := true, rxSeq := fseq, twinHello := some b, refused := none, ackMissed := false } }
  if t.twin.roleState = .standby ∧ t.twin.joinStage ≠ 3 then sendFrame (.joinStage 0 0) (resetJoin t) else t

/-- HELLO: opens a session; one that comes while a session stands ends it, but for that of a planned takeover, which waits for the
takeover (R413, R416, R443). -/
def execHello (fseq : Nat) (b : HelloB) (s : State) : Result :=
  onlyIf (running s && s.twin.linkUp && twinConfigured s) (fun s =>
    if s.twin.session ∧ s.twin.handoff then { s with twin := { s.twin with twinHello := some b } }
    else
      let a := if s.twin.session then endSession s else s
      match joinRefusal b a with
      | some r => refuseJoin r (if a.twin.helloSent then a else sendHello a)
      | none => startProgress (beginSession fseq b a)) s

/-- JOIN_RETRY (R416): a refused join is tried again every 10 s. -/
def execJoinRetry (s : State) : Result :=
  onlyIf (running s && s.twin.linkUp && s.twin.refused.isSome && ! s.twin.session && decide (s.twin.refusedAt + 10000000000 ≤ s.now)) (fun s =>
    sendHello { s with twin := { s.twin with refusedAt := s.now } }) s

/-! ### Status and Health Report (R414, R423, R463, R468, R594) -/

/-- A STANDBY beside a serving ACTIVE has observed its reads and trained on them (R236, log 50); it parks with the ACTIVE's flush, and
stops doing so once neither the flush nor a power failure stands (R468). -/
def standbyStatus (b : StatusB) (s : State) : State :=
  if s.twin.roleState ≠ .standby then s
  else
    let a := if b.role = .active ∧ b.hold = 2 then { s with twin := { s.twin with readTrained := true } } else s
    let c := if b.flush then park (dropTest a)
      else if ! a.keeper.pfail then { a with twin := { a.twin with parked := false } } else a
    becomeHealthy (checkSignals c)

/-- STATUS. The pair's admission follows the STANDBY's A_dev that the frame carries (R463, R464). -/
def execStatus (fseq : Nat) (b : StatusB) (s : State) : Result :=
  onlyIf (running s && s.twin.session) (fun s =>
    let t := gotFrame fseq { s with twin := { s.twin with status := some b, statusAt := s.now }, gauge := { s.gauge with aTwin := b.aDev } }
    checkExcess (standbyStatus b (if b.shutdown then loseStandby 1 t else gainStandby t))) s

/-- Condition of Table 10.9 that a Health Report denies. -/
def reportDenies (b : HealthB) : Option Nat :=
  if ! b.j3 then some 1 else if ! b.width4 then some 2 else if b.criterion ≠ 0 then some 5 else if ! b.gauge then some 6
  else if ! b.trained then some 7 else none

/-- HEALTH_REPORT (R423). -/
def execHealthReport (fseq : Nat) (b : HealthB) (s : State) : Result :=
  onlyIf (running s && s.twin.session && decide (s.twin.roleState ≠ .standby)) (fun s =>
    let t := gotFrame fseq { s with twin := { s.twin with report := some b, reportAt := s.now } }
    match reportDenies b with
    | some n => loseStandby n t
    | none => gainStandby t) s

/-! ### Mirrored items at the STANDBY (R417, R418) -/

/-- JOURNAL. -/
def execJournal (fseq first : Nat) (rs : List JRec) (s : State) : Result :=
  onMirrored fseq (fun s => reportGauge (applyJournal first rs s)) s

/-- CORNICE_WRITE: grains at the same indices. -/
def execCorniceWrite (fseq idx : Nat) (gs : List (List Byte)) (s : State) : Result :=
  onMirrored fseq (fun s => { s with kw := { s.kw with
    cornice := gs.zipIdx.foldl (fun l p => aSet (idx + p.2) p.1 l) s.kw.cornice } }) s

/-- CORNICE_RELEASE: runs of indices, first and count, after every earlier frame. -/
def execCorniceRelease (fseq : Nat) (runs : List (Nat × Nat)) (s : State) : Result :=
  onCopied fseq (fun s => { s with kw := { s.kw with
    cornice := s.kw.cornice.filter (fun p => ! runs.any (fun r => decide (r.1 ≤ p.1) && decide (p.1 < r.1 + r.2))) } }) s

/-- TRANSPORT (R421). -/
def execTransport (fseq : Nat) (es : List TEntry) (s : State) : Result :=
  onMirrored fseq (fun s => es.foldl applyTransport s) s

/-- OPERATION (R422). -/
def execOperation (fseq : Nat) (es : List OpEntry) (gone : List (Nat × Nat × Nat)) (s : State) : Result :=
  onMirrored fseq (applyOps es gone) s

/-- MILMO_STATE. -/
def execMilmoState (fseq : Nat) (ms : List MState) (s : State) : Result :=
  onMirrored fseq (fun s => ms.foldl applyMilmo s) s

/-- SETTINGS: filter registry, power state, features. At a device that holds the pair the frame is its twin's request for a power state,
which takes effect in the order received and is mirrored (R107; log 141). -/
def execSettings (fseq : Nat) (fs : List Filter) (pstate : Nat) (feats : List (Nat × Nat × Nat)) (s : State) : Result :=
  if running s ∧ s.twin.session ∧ s.twin.roleState = .active then
    onlyIf (decide (s.twin.rxSeq < fseq)) (fun s =>
      mirrorSettings (ackFrames (gotFrame fseq { s with power := { s.power with asked := some (pstate % 4, s.now) } }))) s
  else
  onMirrored fseq (fun s =>
    { s with
      host := { s.host with filters := fs }
      power := { s.power with pstate := pstate, asked := none }
      twin := { s.twin with feats := feats } }) s

/-- COUNTERS (R281). -/
def execCounters (fseq : Nat) (cs : List (Nat × Nat × Nat)) (s : State) : Result :=
  onCopied fseq (fun s => { s with media := { s.media with rdcCopy := cs, copiedAt := s.now } }) s

/-- FLUSH_PROGRESS (R440): the set is in use; its grains become known with the flush's record. -/
def execFlushProgress (fseq set idx : Nat) (s : State) : Result :=
  onCopied fseq (fun s =>
    let t := { s with power := { s.power with progress := some (set, idx) } }
    if set < 2 then setSpill set { spillSet t set with state := 2, complete := false } t else t) s

/-! ### Mirror Ack and what waits for it (R417, R442, R594, R612, R620) -/

/-- What the former ACTIVE does once it has handed over: the command of its own management port completes here; its own reasons go on
(R442, R526, R594, R620). -/
def afterPlanned (conn cid : Nat) (s : State) : State :=
  if conn = ownConn then
    match cid with
    | 1 => dueWarm .memoryError s
    | 3 => dueWarm .update s
    | _ => s
  else match connBy s conn with
    | some c => if c.mgmt then complete conn cid 0 stOk 0 0 [] s else s
    | none => s

/-- MIRROR_ACK (R417, R442): frames up to the one held are acknowledged; one that covers the Handoff ends a planned takeover here. -/
def execMirrorAck (fseq held jseq : Nat) (s : State) : Result :=
  onlyIf (running s && s.twin.session && s.twin.roleState == .active) (fun s =>
    let t := gotFrame fseq (ackedUpTo held { s with twin := { s.twin with applied := max s.twin.applied jseq } })
    match t.twin.planned with
    | some (n, conn, cid) => if n ≤ held then afterPlanned conn cid (finishPlanned n t) else t
    | none => t) s

/-! ### The join (R187, R424) -/

/-- COPY_FIRN: stage J1. -/
def execCopyFirn (fseq : Nat) (rs : List JRec) (es : List TEntry) (ops : List OpEntry) (ms : List MState) (s : State) : Result :=
  onCopied fseq (applyCopyFirn rs es ops ms) s

/-- COPY_CORNICE: stage J2, grain by grain at the same indices. -/
def execCopyCornice (fseq : Nat) (gs : List (Nat × List Byte)) (s : State) : Result :=
  onCopied fseq (fun s => { s with kw := { s.kw with cornice := gs.foldl (fun l p => aSet p.1 p.2 l) s.kw.cornice } }) s

/-- COPY_GRANULE: stage J3 (R187). -/
def execCopyGranule (fseq granule tag : Nat) (ws : List SlotWrite) (s : State) : Result :=
  onCopied fseq (applyGranule granule tag ws) s

/-- The twin restarts its join, or asks for it: an ACTIVE copies to it unless it shuts down (R419, R424, R594). -/
def joinAsked (s : State) : State :=
  let t := loseStandby 1 s
  let down : Bool := match t.twin.status with | some x => x.shutdown | none => false
  if t.twin.roleState = .active ∧ ! down then sendCopies t else t

/-- JOIN_STAGE (Table 10.20): 0 restarts the join; 1 to 3 name a stage complete; 0x10 offers a lend, 0x11 returns one (R587). -/
def execJoinStage (fseq stage units : Nat) (s : State) : Result :=
  onlyIf (running s && s.twin.session) (fun s0 =>
    let s := gotFrame fseq s0
    if s.twin.roleState = .standby ∧ ! inShutdown s then
      match stage with
      | 0 => sendFrame (.joinStage 0 0) (resetJoin s)
      | 1 => stageDone 1 units s
      | 2 => stageDone 2 units s
      | 3 => stageDone 3 units s
      | 0x10 => borrow s
      | _ => s
    else if s.twin.roleState = .active then
      match stage with
      | 0 => joinAsked s
      | 1 => { s with twin := { s.twin with joinStage := 1, joinUnits := units } }
      | 2 => { s with twin := { s.twin with joinStage := 2, joinUnits := units } }
      | 3 => { s with twin := { s.twin with joinStage := 3, joinUnits := units } }
      | _ => s
    else match stage with
      | 0x10 => if s.start.waitSince.isSome then driveHold { s with start := { s.start with lend := 2, lendAt := s.now } } else s
      | 0x11 => if s.start.lend = 1 then startProgress { s with start := { s.start with lend := 3 } } else s
      | _ => s) s

/-! ### Giving away (R429, R442) -/

/-- YIELD (R429): the criterion of the twin that gives the pair away; the takeover follows by R432. -/
def execYield (fseq crit detail time : Nat) (s : State) : Result :=
  let _ := (detail, time)
  onlyIf (running s && s.twin.session && s.twin.roleState == .standby) (fun s =>
    gotFrame fseq { s with twin := { s.twin with twinYield := crit } }) s

/-- HANDOFF (R442): the STANDBY acknowledges it; the new session's Hello is awaited. -/
def execHandoff (fseq last : Nat) (s : State) : Result :=
  let _ := last
  onMirrored fseq (fun s => { s with twin := { s.twin with handoff := true, twinHello := none } }) s

/-! ### Invalid frames and training (Table 10.4, R410, R413, R419) -/

/-- HINGE_INVALID_FRAME (Table 10.4): the link session ends, 0x4031; a new Hello begins the next (log 51). -/
def execHingeInvalidFrame (type : Nat) (s : State) : Result :=
  let known := [0x01, 0x02, 0x03, 0x10, 0x11, 0x12, 0x13, 0x14, 0x15, 0x16, 0x17, 0x18, 0x20, 0x30, 0x31, 0x32, 0x33, 0x40, 0x41]
  onlyIf (running s && s.twin.session && ! known.contains type) (fun s =>
    sendHello (endSession (record 0x4031 pathHinge (le 1 3) s))) s

/-- The link has come back within a session: every monitor restarts, and a criterion that arose meanwhile is acted on (R419). -/
def linkBack (s : State) : State :=
  let t := { s with twin := { s.twin with unacked := s.twin.unacked.map (fun u => (u.1, u.2.1, s.now)), reportAt := s.now } }
  if t.twin.roleState = .active ∧ t.twin.criterion ≠ 0 then criterionTrue t.twin.criterion t.twin.detail t else t

/-- HINGE_TRAINING_COMPLETE (R410, R413): the link is up at a width all of whose lanes pass; without a session each device sends its
Hello. -/
def execHingeTrainingComplete (width : Nat) (s : State) : Result :=
  onlyIf (running s && (! s.twin.linkUp || s.twin.trainSince.isSome) && ! s.pace.clocksLost.contains 1 &&
      (width == 4 || width == 8 || width == 16) && decide (width ≤ widest s.twin.retired)) (fun s =>
    let t := { s with twin := { s.twin with linkUp := true, width := width, trainSince := none, triedAt := s.now } }
    if t.twin.session then linkBack t
    else if twinConfigured t then sendHello t else t) s

/-! ### Transport progress (R421, R436) -/

/-- Progress of a connection (Table 10.7 kind 8); congestion state has no number in this model. -/
def progressOf (c : Conn) : List TEntry := [.select c.idx, .progress c.sndAck c.rcvNxt c.wnd 0]

/-- TRANSPORT_PROGRESS_TIMER (R421): a Progress entry for each connection with unacknowledged data, every 100 µs. -/
def execTransportProgressTimer (s : State) : Result :=
  onlyIf (running s && s.twin.session && s.twin.roleState == .active) (fun s =>
    let cs := s.host.conns.filter (fun c => ! c.mgmt && decide (c.sndAck < c.sndNxt))
    if cs.isEmpty then s else sendFrame (.transport (cs.flatMap progressOf)) s) s

/-- RETRANSMISSION_TIMEOUT (R421): a connection with unacknowledged data sends again from its acknowledged sequence, and a Progress entry
goes to the twin. -/
def execRetransmissionTimeout (conn : Nat) (s : State) : Result :=
  match connBy s conn with
  | some c => onlyIf (running s && decide (c.sndAck < c.sndNxt)) (fun s =>
      let t := if c.mgmt then s else mirror (.transport (progressOf c)) s
      emit (.retransmit conn c.sndAck) t) s
  | none => .next s

end Sys2Proof.Machine
end

