-- ==== Sys2Proof/Machine/ShutdownFamily.lean ====
section
/-! DEFINITION. Shutting down: a controller, the device in order or abruptly, and what a planned takeover of the device's own leads to
(R593 to R598, R600, Table 15.6). -/

namespace Sys2Proof.Machine

/-! ### Steps of Table 15.6 -/

/-- No command is in flight, no version this pair coordinates and no item it holds is pending: step 2 has ended. -/
def quiet (s : State) : Bool :=
  decide (outstanding s = 0) && s.ice.recs.all (fun r => r.vers.all (fun v => v.st != 1)) && s.kw.items.all (fun i => i.st == 2)

/-- Everything held is programmed and verified, and every position due has been sent: step 3 has ended. -/
def drained (s : State) : Bool := s.kw.items.all (fun i => i.grains.isEmpty) && s.ice.stores.isEmpty

/-- Change the shutdown that runs. -/
def onShutdown (f : Shutdown → Shutdown) (s : State) : State := { s with start := { s.start with shutdown := s.start.shutdown.map f } }

/-- A step has ended: the next begins, and the time is noted for event 0x0021. -/
def endStep (s : State) : State :=
  onShutdown (fun x => { x with step := x.step + 1, times := x.times ++ [(s.now - x.at_) / 1000000] }) s

/-- Step 4: what remains in the Cornice is spilled to an erased set with the supply present (R267). -/
def spillRest (s : State) : State :=
  if s.kw.cornice.isEmpty ∨ ! holdsPair s then s
  else match chooseSet s with
    | some n =>
      let k := s.power.flushNo + 1
      onShutdown (fun x => { x with spilled := s.kw.cornice.length }) (spillTo n k { s with power := { s.power with flushNo := k } })
    | none => s

/-- Steps 5 and 6: Moraine written, the energy interval closed without TRUNCATED, hold released, 0x0021; a restart for an update is a
warm start in place of the power-down (R612). -/
def lastSteps (s : State) : State :=
  let a := endStep (moraineFlush (closeInterval 0 s))
  match a.start.shutdown with
  | some x =>
    if x.update then
      let b := if a.keeper.holdOut then releaseHold a else a
      dueWarm .update { b with start := { b.start with shutdown := none, service := false } }
    else
      let b := record 0x0021 pathPkg (le 4 x.spilled ++ x.times.flatMap (le 4)) a
      shutDone b
  | none => a

/-- Steps 4 to 6 of a device whose drain has ended. -/
def closeDown (s : State) : State := lastSteps (endStep (spillRest s))

/-- A STANDBY that shuts down sends Join Stage 0 and stops applying frames (R594). -/
def leaveJoin (s : State) : State := sendFrame (.joinStage 0 0) (sendStatus s)

/-- The device shuts down where it stands: a holding device drains first; any other has nothing to drain (R594, R595). -/
def beginDrain (s : State) : State :=
  if holdsPair s then settle (endStep (onShutdown (fun x => { x with step := 1 }) s))
  else
    let t := onShutdown (fun x => { x with step := 4 }) s
    closeDown (if t.twin.roleState = .standby then leaveJoin t else t)

/-- The shutdown begins: event 0x0020; an ACTIVE with a healthy STANDBY hands over first, an abrupt one of a holding device flushes
(R594, R595, R597). -/
def beginShutdown (abrupt : Bool) (s : State) : State :=
  let hand := ! abrupt && hasStandby s
  let a := record 0x0020 pathPkg (le 1 (if abrupt then 1 else 0) ++ le 1 (if hand then 1 else 0))
    { s with start := { s.start with shst := 1, shutdown := some ⟨abrupt, s.now, 1, hand, false, false, 0, []⟩ } }
  if abrupt then
    if holdsPair a then
      let free := (Config.freeValue a.free).toNat % 65536
      beginFlush free 2 a.gauge.v { a with free := a.free + 1 }
    else shutDone (moraineFlush (closeInterval 0 (markUnsafe (if a.twin.roleState = .standby then leaveJoin a else a))))
  else if hand then beginPlanned ownConn 2 a
  else beginDrain a

/-- A notification is acted on at a serving device, and at one that has stopped after step 3 of its start (R593). -/
def actsOnShutdown (s : State) : Bool := s.start.serving || s.cfg.isNone || ! hasKeys s || s.twin.noRole

/-- A notification at a management address: acted on, or held until the device serves. -/
def notifyShutdown (abrupt : Bool) (s : State) : State :=
  if s.start.shutdown.isSome ∨ s.power.flush.isSome then s
  else if actsOnShutdown s then beginShutdown abrupt s
  else { s with start := { s.start with shutdown := some ⟨abrupt, s.now, 0, false, false, false, 0, []⟩ } }

/-- The shutdown goes on as far as it can. The rails drop 100 ms after it was reported complete (R598). -/
def shutdownProgress (s : State) : State :=
  match s.start.shutdown with
  | none => s
  | some x =>
    match x.step with
    | 0 => if running s ∧ actsOnShutdown s then beginShutdown x.abrupt { s with start := { s.start with shutdown := none } } else s
    | 1 => if x.takeover ∧ s.twin.planned.isNone ∧ (s.twin.session ∨ holdsPair s ∨ ! s.twin.linkUp) then beginDrain (onShutdown (fun y => { y with takeover := false }) s) else s
    | 2 => if quiet s then endStep s else s
    | 3 => if drained s then closeDown (endStep s) else s
    | 4 => closeDown s
    | 7 =>
      if x.at_ + 100000000 ≤ s.now then
        let dormant := (powOf s).dormant
        let t := powerDown dormant s
        { t with start := { t.start with shutdown := none } }
      else s
    | _ => s

/-! ### Controllers (R593) -/

/-- Commands of a controller in flight. -/
def busyCtrl (s : State) (cntl : Nat) : Bool :=
  let mine (conn : Nat) : Bool := s.host.conns.any (fun c => c.idx == conn && c.cntl == cntl)
  s.ice.stores.any (fun e => ! e.posted && mine e.conn) || s.ice.readsE.any (fun r => mine r.conn) || s.ice.gathers.any (fun g => mine g.conn)

/-- A controller that was told to shut down reports it complete once its commands in flight have completed. -/
def ctrlProgress (s : State) : State :=
  { s with host := { s.host with ctrls := s.host.ctrls.map (fun c => if c.shst = 1 ∧ ! busyCtrl s c.id then { c with shst := 2 } else c) } }

/-- The management controller of a command, and whether it is one. -/
def atMgmt (s : State) (a : Adm) : Bool := match connBy s a.conn with | some c => c.mgmt | none => false

/-- CONTROLLER_SHUTDOWN (R593): at a service address the notification ends that controller only. -/
def execControllerShutdown (a : Adm) (s : State) : Result :=
  onlyIf (admAccepts a s && ! atMgmt s a) (fun s =>
    mirrorConn a.conn (ctrlProgress (endController a (takeAdmin a 0x7F 0 [0, offCc, 2 ^ 14] [] s)))) s

/-- ORDERLY_SHUTDOWN (R593 to R595). -/
def execOrderlyShutdown (a : Adm) (s : State) : Result :=
  onlyIf (admAccepts a s && atMgmt s a) (fun s =>
    notifyShutdown false (done a stOk (onCtrl a.conn (withShn 1) (takeAdmin a 0x7F 0 [0, offCc, 2 ^ 14] [] s)))) s

/-- ABRUPT_SHUTDOWN (R593, R597). -/
def execAbruptShutdown (a : Adm) (s : State) : Result :=
  onlyIf (admAccepts a s && atMgmt s a) (fun s =>
    notifyShutdown true (done a stOk (onCtrl a.conn (withShn 2) (takeAdmin a 0x7F 0 [0, offCc, 2 ^ 15] [] s)))) s

/-- SHUTDOWN_DEADLINE (R596): 15 s after the notification 0x9021 with the step reached; steps 2 and 3 are abandoned. -/
def execShutdownDeadline (s : State) : Result :=
  match s.start.shutdown with
  | some x => onlyIf (running s && ! x.abrupt && decide (1 ≤ x.step) && decide (x.step ≤ 3) && ! x.missed && decide (x.at_ + 15000000000 ≤ s.now)) (fun s =>
      shutdownProgress (onShutdown (fun y => { y with step := 4, missed := true, takeover := false })
        (record 0x9021 (pathMonitor 0) (le 1 x.step) { s with twin := { s.twin with planned := none, closedDoor := false } }))) s
  | none => .next s

/-- CONTROLLER_ENABLE (R598): CC is enabled; at a management address, after shutdown was reported complete and while the rails stand,
the device restarts by warm start. -/
def execControllerEnable (a : Adm) (s : State) : Result :=
  onlyIf (admAccepts a s) (fun s =>
    mirrorConn a.conn (enabledAgain a.conn (done a stOk (onCtrl a.conn (fun c => { c with cc := c.cc / 2 % 2 ^ 13 * 2 + 1, shst := 0 }) (takeAdmin a 0x7F 0 [0, offCc, 1] [] s))))) s

/-! ### Planned takeovers of the device's own that find no healthy STANDBY (R442, R472, R526, R600) -/

/-- What follows where the STANDBY failed before it took over: a thermal stop or a memory error flushes, a shutdown goes on alone, an
update restarts nothing. -/
def plannedProgress (s : State) : State :=
  match s.twin.planned with
  | some (_, conn, cid) =>
    if conn = ownConn ∧ s.twin.roleState = .active ∧ ! s.twin.healthy ∧ s.twin.trainSince.isNone then
      let t := { s with twin := { s.twin with planned := none, closedDoor := false } }
      match cid with
      | 0 => beginFlush 3 3 t.gauge.v { t with twin := { t.twin with thermalHandover := none } }
      | 1 => beginFlush ((Config.freeValue t.free).toNat % 65536) 4 t.gauge.v { t with free := t.free + 1 }
      | _ => t
    else s
  | none => s

end Sys2Proof.Machine
end

