-- ==== Sys2Proof/Machine/UpdateFamily.lean ====
section
/-! DEFINITION. Downloads, commits, bank erases, confirmation, rollback fuses and RECOVERY's TFTP (R573 to R575, R606 to R625). -/

namespace Sys2Proof.Machine

/-! ### Firmware Image Download (R573, R607, R608) -/

/-- Fail an admin command with Invalid Field and a reason in Dword 0. -/
def refuseAdm (a : Adm) (reason : Nat) (s : State) : State := complete a.conn a.cid 0 stInvalidField reason 0 [] s

/-- A file whose first four bytes are "VKCF" is a configuration image (R573). -/
def isCfg (bs : List Byte) : Bool := (Image.mk bs).magicOk

/-- The header block of a package has arrived: fixed header, binding list of at most 256, manifest and signature block (Table 16.1). -/
def blockDone (bs : List Byte) : Bool := decide (128 ≤ bs.length) && decide (768 + 8 * min (Package.mk bs).bindingCount 256 ≤ bs.length)

/-- Identifier of an incoming file, 0 for one that is no package or whose header block is not there yet. -/
def fileId (bs : List Byte) : Nat := if isCfg bs ∨ ! blockDone bs then 0 else (Package.mk bs).id

/-- Checks 1 to 11 and 13 once a package's header block has arrived; a configuration image is checked at its commit. -/
def incomingReason (s : State) (bs : List Byte) : Option Nat :=
  if isCfg bs then none
  else match headerReason s.boot s.serial (some (runningHinge s.boot)) ⟨bs⟩ with
    | some r => some r
    | none => if stagingBusy s.boot then some 13 else none

/-- The file has arrived whole: as long as its header says. -/
def wholeFile (bs : List Byte) : Bool :=
  if isCfg bs then decide (256 ≤ bs.length) && decide ((Image.mk bs).length ≤ bs.length)
  else blockDone bs && decide ((Package.mk bs).length ≤ bs.length)

/-- The package of a file that has arrived whole. -/
def packageOf (bs : List Byte) : Package := ⟨bs.take (Package.mk bs).length⟩

/-- A refused file stays refused until a download with offset 0; a package's refusal records 0x8210 once. -/
def refuseIncoming (a : Adm) (r : Nat) (i : Incoming) (s : State) : State :=
  refuseAdm a r (refusePackage r 0 (fileId i.bytes) { s with boot := { s.boot with incoming := some { i with refused := some r } } })

/-- Why a file is refused as more of it arrives: checks 1 to 11 and 13 with the bytes that complete the header block, check 12 with the
last one (R605, R608). -/
def arrivalReason (s : State) (old new : List Byte) : Option Nat :=
  let a := if blockDone new ∧ ! blockDone old then incomingReason s new else none
  if a.isSome then a else if ! isCfg new && wholeFile new && ! digestsOk (packageOf new) then some 12 else none

/-- Take a download's bytes. A configuration image may not exceed 8 MiB (R573). -/
def takeBytes (a : Adm) (data : List Byte) (i : Incoming) (s : State) : State :=
  let j := { i with bytes := i.bytes ++ data, at_ := s.now }
  if isCfg j.bytes ∧ 8388608 < j.bytes.length then refuseAdm a 0 { s with boot := { s.boot with incoming := some { j with refused := some 0 } } }
  else match arrivalReason s i.bytes j.bytes with
    | some r => refuseIncoming a r j s
    | none => done a stOk { s with boot := { s.boot with incoming := some j } }

/-- An incoming place that a download of this connection begins with. -/
def freshIncoming (a : Adm) (s : State) : Incoming :=
  { bytes := [], refused := none, source := 0, from_ := a.conn, origin := mySlot s, chain := false, pkg := 0, length := 0, at_ := s.now }

/-- FIRMWARE_IMAGE_DOWNLOAD (R573, R607, R608): `numd` is the 0-based number of dwords, `off` the offset in dwords, `data` the bytes the
host supplies for them. -/
def execFirmwareImageDownload (a : Adm) (numd off : Nat) (data : List Byte) (s : State) : Result :=
  adm a 0x11 0 [numd, off] (fun s =>
    let n := 4 * (numd + 1)
    let at_ := 4 * off
    let bs := padTo n (data.take n)
    if ! atMgmt s a ∨ n % 4096 ≠ 0 ∨ at_ % 4096 ≠ 0 then done a stInvalidField s
    else if at_ = 0 then takeBytes a bs (freshIncoming a s) s
    else match s.boot.incoming with
      | some i =>
        match i.refused with
        | some r => refuseAdm a r s
        | none => if i.source = 0 ∧ at_ = i.bytes.length then takeBytes a bs i s else refuseIncoming a 4 i s
      | none => refuseIncoming a 4 (freshIncoming a s) s) s

/-! ### Restarting for an update (R612, R620, R626) -/

/-- How a restart under R612 may go: a device that does not hold restarts at once, an ACTIVE hands over, any other holding device needs
the host's leave. -/
def mayRestart (intr : Bool) (s : State) : Bool := ! holdsPair s || hasStandby s || intr

/-- The bank that an activation waits for is PENDING. -/
def pendingNow (s : State) : Bool := (bankOf s.boot (otherBank s.boot)).state == 1

/-- The twin is in TRIAL: no restart into a package meanwhile (R626). -/
def twinTrial (s : State) : Bool := s.twin.session && match s.twin.status with | some x => x.trial | none => false

/-- The restart itself (R612). -/
def restartNow (s : State) : State :=
  if ! holdsPair s then dueWarm .update (sendFrame (.joinStage 0 0) s)
  else if hasStandby s then beginPlanned ownConn 3 s
  else beginDrain { s with start := { s.start with shutdown := some ⟨false, s.now, 1, false, false, true, 0, []⟩ } }

/-- A restart that was asked for: its command completes once the bank is PENDING, and the device restarts as soon as its twin is not in
TRIAL. -/
def restartProgress (s : State) : State :=
  match s.boot.restart with
  | some (conn, cid, intr) =>
    if ! pendingNow s then s
    else
      let t := complete conn cid 0 stOk 0 0 [] { s with boot := { s.boot with restart := some (noConn, 0, intr) } }
      if twinTrial t ∨ inShutdown t then t
      else if mayRestart intr t then restartNow { t with boot := { t.boot with restart := none } }
      else { t with boot := { t.boot with restart := none } }
  | none => s

/-! ### Firmware Commit (R574, R575, R609 to R612) -/

/-- Place of the slot that is not in use, 0 A or 1 B. -/
def freeSlot (s : State) : Nat := 1 - s.boot.slotUse

/-- Commit of a configuration image (R574): checked, newer than the slot in use, written to the other slot; an unconfigured device then
tries its slots again (R552). -/
def commitImage (a : Adm) (i : Image) (whole : Bool) (s : State) : State :=
  let inUse := if s.boot.slotUse = 0 then s.boot.slotA else s.boot.slotB
  let old := match s.cfg, inUse with | some _, some x => decide (i.seq ≤ x.seq) | _, _ => false
  let r := if ! whole then some (4, 0, 0) else match imageRefusal s s.keeper.provEn (some i) with
    | some r => some r
    | none => if old then some (10, 0, 24) else none
  match r with
  | some r => done a stInvalidField (refuseImage 2 r (some i) s)
  | none =>
    let n := freeSlot s
    let b := if n = 0 then { s.boot with slotA := some i } else { s.boot with slotB := some i }
    let t := done a stOk (record 0x8118 pathPkg (le 1 n ++ le 4 i.seq) { s with boot := { b with incoming := none } })
    if t.start.unconfigured ∧ t.cfg.isNone then retrySlots t else t

/-- A slot number that a package commit takes: none, or that of the bank not running (R611). -/
def slotOk (s : State) (slot : Nat) : Bool := slot == 0 || slot == 2 - s.boot.bank

/-- The incoming package as it would be staged, or the reason against it (R609, R611). -/
def toStage (opts : Nat) (s : State) : Except Nat Staged :=
  match s.boot.incoming with
  | some i =>
    match i.refused with
    | some r => .error r
    | none =>
      if isCfg i.bytes then .error 1
      else if ! wholeFile i.bytes ∨ i.source ≠ 0 then .error 4
      else if stagingBusy s.boot then .error 13
      else .ok { pkg := packageOf i.bytes, forward := opts.testBit 0, chain := opts.testBit 1, at_ := s.now, source := 0, origin := mySlot s, from_ := mySlot s }
  | none => .error 0

/-- Actions 0b000 and 0b001: the incoming package becomes staged (Table 16.5). -/
def commitIncoming (a : Adm) (opts : Nat) (activate : Bool) (s : State) : State :=
  match toStage opts s with
  | .error r => refuseAdm a r s
  | .ok t => done a stOk (stagePackage t activate s)

/-- Action 0b010: the staged package's bank is marked PENDING. -/
def commitStaged (a : Adm) (s : State) : State :=
  if s.boot.staged.isSome then done a stOk (activateStaged s) else done a stInvalidField s

/-- Action 0b011: as 0b001 where a package is incoming, else as 0b010, and then the device restarts (R612). -/
def commitRestart (a : Adm) (opts : Nat) (s : State) : State :=
  let intr := opts.testBit 2
  let go (t : State) : State := restartProgress { t with boot := { t.boot with restart := some (a.conn, a.cid, intr) } }
  if ! mayRestart intr s then done a stInvalidField s
  else if s.boot.incoming.isSome then
    match toStage opts s with
    | .error r => refuseAdm a r s
    | .ok t => go (stagePackage t true s)
  else if s.boot.staged.isSome then go (activateStaged s)
  else done a stInvalidField s

/-- Firmware Commit by what is incoming: a configuration image takes actions 0 and 1 whatever the slot; a package those of Table 16.5,
chain activation only with Forward (R573, R611, Table 16.6). -/
def firmwareCommit (a : Adm) (action slot opts : Nat) (s : State) : State :=
  if ! atMgmt s a then done a stInvalidField s
  else
    let img : Option (Image × Bool) := match s.boot.incoming with
      | some i => if isCfg i.bytes ∧ i.refused.isNone then some (⟨i.bytes.take (Image.mk i.bytes).length⟩, wholeFile i.bytes) else none
      | none => none
    match img with
    | some (x, whole) => if action ≤ 1 then commitImage a x whole s else done a stInvalidField s
    | none =>
      if ! slotOk s slot ∨ (opts.testBit 1 ∧ ! opts.testBit 0) then done a stInvalidField s
      else match action with
        | 0 => commitIncoming a opts false s
        | 1 => commitIncoming a opts true s
        | 2 => commitStaged a s
        | 3 => commitRestart a opts s
        | _ => done a stInvalidField s

/-- COMMIT_CONFIGURATION (R573, R574): Firmware Commit with any action; its slot field is ignored for an image. -/
def execCommitConfiguration (a : Adm) (action bank : Nat) (s : State) : Result := adm a 0x10 0 [bank + 8 * action] (firmwareCommit a action bank 0) s

/-- COMMIT_STAGE (R611): action 0b000. -/
def execCommitStage (a : Adm) (slot opts : Nat) (s : State) : Result := adm a 0x10 0 [slot + 8 * 0] (firmwareCommit a 0 slot opts) s

/-- COMMIT_STAGE_ACTIVATE (R611): action 0b001. -/
def execCommitStageActivate (a : Adm) (slot opts : Nat) (s : State) : Result := adm a 0x10 0 [slot + 8 * 1] (firmwareCommit a 1 slot opts) s

/-- COMMIT_ACTIVATE_STAGED (R611): action 0b010. -/
def execCommitActivateStaged (a : Adm) (slot opts : Nat) (s : State) : Result := adm a 0x10 0 [slot + 8 * 2] (firmwareCommit a 2 slot opts) s

/-- COMMIT_ACTIVATE_RESTART (R611, R612): action 0b011. -/
def execCommitActivateRestart (a : Adm) (slot opts : Nat) (s : State) : Result := adm a 0x10 0 [slot + 8 * 3] (firmwareCommit a 3 slot opts) s

/-! ### Erasing the bank (R610) -/

/-- BANK_ERASE_COMPLETE (R610): the bank is PENDING where activation was asked, else EMPTY. -/
def execBankEraseComplete (s : State) : Result :=
  match s.boot.erase with
  | some (x, t, act, _) => onlyIf (running s && decide (t ≠ 0)) (fun s =>
      let a := { s with boot := { s.boot with erase := none } }
      if act ∧ a.boot.staged.isSome then restartProgress (markPending x a)
      else { a with boot := writeBp (putBank x Bank.empty a.boot) }) s
  | none => .next s

/-- BANK_ERASE_DEADLINE (R610): an erase beyond 600 s is fault 0x9811, and it goes on. -/
def execBankEraseDeadline (s : State) : Result :=
  match s.boot.erase with
  | some (x, t, act, noted) => onlyIf (running s && decide (t ≠ 0) && ! noted && decide (t + 600000000000 < s.now)) (fun s =>
      record 0x9811 (pathMonitor 0) (le 1 x) { s with boot := { s.boot with erase := some (x, t, act, true) } }) s
  | none => .next s

/-! ### Confirmation (R619 to R623) -/

/-- An event of severity critical has been recorded since core release. -/
def criticalSince (s : State) : Bool :=
  let bad (r : EvRec) : Bool := r.sev == 6 && ! r.carried && decide (s.keeper.releasedAt ≤ r.time)
  s.mor.ring.any bad || s.mor.buffer.any bad

/-- The first condition of Table 16.8 that is not met; microcode and SerDes firmware have loaded with core release, and so has every library
filter but one whose check failed (R225). -/
def unmet (s : State) : Option Nat :=
  if ! s.start.serving then some 1
  else if s.now < s.keeper.releasedAt + 30000000000 then some 2
  else if criticalSince s then some 3
  else if s.boot.spoiled then some 4
  else if s.boot.library.any (·.isNone) then some 5
  else none

/-- TRIAL_CONFIRM (R619): the bank is GOOD and active, failed starts are cleared, the staged package is released; 0x8215. -/
def execTrialConfirm (s : State) : Result :=
  onlyIf (running s && s.boot.trial && ! s.boot.confirmed && (unmet s).isNone) (fun s =>
    let b := bankState s.boot.bank 3 s.boot
    record 0x8215 pathPkg (le 1 s.boot.bank ++ le 4 s.boot.fwVer ++ le 8 (s.now - s.keeper.releasedAt))
      { s with boot := writeBp { b with
          active := s.boot.bank, failed := 0, trial := false, confirmed := true, confirmedAt := s.now, cleanSince := s.now
          spread := s.boot.staged, staged := none } }) s

/-- CONFIRMATION_MONITOR (R621): 120 s after core release without confirmation: 0x9810 with the condition unmet, hold is released, and
the warm start reverts a TRIAL. -/
def execConfirmationMonitor (s : State) : Result :=
  onlyIf (running s && ! s.boot.confirmed && s.keeper.warmDue.isNone && decide (s.keeper.releasedAt + 120000000000 ≤ s.now)) (fun s =>
    let c := (unmet s).getD 0
    let a := record 0x9810 (pathMonitor 0) (le 1 c) s
    let b := if a.keeper.holdOut then releaseHold a else a
    dueWarm .confirmation
      (if b.boot.trial then { b with boot := { b.boot with reverted := some (b.boot.bank, (bankOf b.boot b.boot.bank).pkgId, c) } } else b)) s

/-- ROLLBACK_FUSE_TIMER (R623): a confirmed bank has run 24 h without a failed start: F rises to its security version, 0x8219. -/
def execRollbackFuseTimer (s : State) : Result :=
  match s.boot.runs with
  | some p => onlyIf (running s && s.boot.confirmed && decide (s.boot.cleanSince ≠ 0) && decide (s.boot.cleanSince + dayNs ≤ s.now) &&
      decide (s.boot.fuseF < p.secVer)) (fun s =>
      record 0x8219 pathPkg (le 1 s.boot.fuseF ++ le 1 p.secVer) { s with boot := { s.boot with fuseF := p.secVer } }) s
  | none => .next s

/-! ### RECOVERY (R624, R625) -/

/-- TFTP packets: 4 an acknowledgement, 5 an error with its code (RFC 1350). -/
def tftpAck (peer block : Nat) (s : State) : State := emitNow (.tftp peer 4 block 0) s
def tftpError (peer code reason : Nat) (s : State) : State := emitNow (.tftp peer 5 code reason) s

/-- TFTP_WRITE_REQUEST (R625): reads and netascii get error 4, a second transfer error 0. -/
def execTftpWriteRequest (peer : Nat) (read octet : Bool) (s : State) : Result :=
  onlyIf (s.keeper.phase == .recovery) (fun s =>
    if read ∨ ! octet then tftpError peer 4 0 s
    else if s.boot.tftp.isSome then tftpError peer 0 0 s
    else tftpAck peer 0 { s with boot := { s.boot with tftp := some ⟨peer, 1, []⟩ } }) s

/-- The transfer ends with a refusal, its reason in the error's message (R605, R625): source 2. -/
def tftpRefuse (peer reason : Nat) (bs : List Byte) (s : State) : State :=
  tftpError peer 0 reason (refusePackage reason 2 (fileId bs) { s with boot := { s.boot with tftp := none } })

/-- The package has arrived whole: it is written to the bank not run last, PENDING without a copy, 0x8218 is latched, and the device
starts again (R625). -/
def tftpWrite (p : Package) (s : State) : State :=
  let x := otherBank s.boot
  let k : Bank := { state := 1, copy := false, fwVer := p.fwVer, pkgId := p.id, length := p.length, secVer := p.secVer, content := some p }
  dueWarm .tftp (record 0x8218 pathPkg (le 1 x ++ le 16 p.id)
    { s with boot := writeBp (putBank x k { s.boot with tftp := none, failed := 0 }) })

/-- TFTP_DATA (R625): blocks of 512 bytes in order, each acknowledged; checks 1 to 9 and 11 with the block that completes the header block.
A block shorter than 512 bytes ends the transfer. -/
def execTftpData (peer block len : Nat) (raw : List Byte) (s : State) : Result :=
  let data := raw.take len
  match s.boot.tftp with
  | some t => onlyIf (s.keeper.phase == .recovery && t.peer == peer && t.block == block && decide (len ≤ raw.length) && decide (len ≤ 512)) (fun s =>
      let bs := t.bytes ++ data
      match (if blockDone bs ∧ ! blockDone t.bytes then headerReason s.boot s.serial none ⟨bs⟩ else none) with
      | some r => tftpRefuse peer r bs s
      | none =>
        if data.length = 512 then tftpAck peer block { s with boot := { s.boot with tftp := some ⟨peer, (block + 1) % 65536, bs⟩ } }
        else if ! blockDone bs then tftpRefuse peer 1 bs s
        else if ! wholeFile bs then tftpRefuse peer 4 bs s
        else if ! digestsOk (packageOf bs) then tftpRefuse peer 12 bs s
        else tftpWrite (packageOf bs) (tftpAck peer block s)) s
  | none => .next s

end Sys2Proof.Machine
end

