-- ==== Sys2Proof/Machine/ChainFamily.lean ====
section
/-! DEFINITION. Passing packages along the icefield and activating them in turn (R627 to R635). -/

namespace Sys2Proof.Machine

/-! ### Bodies and targets (R627, R628, Table 16.9) -/

/-- This device runs a package, confirmed. -/
def runsConfirmed (s : State) (id : Nat) : Bool :=
  s.boot.confirmed && ! s.boot.trial && match s.boot.runs with | some p => p.id == id | none => false

/-- A body about a package with this pair's flags. -/
def fwdBody (s : State) (id length origin : Nat) (chain : Bool) : FwdB :=
  { chain := chain, solo := ! twinConfigured s, confirmed := runsConfirmed s id, mask := [], reason := 0, origin := origin, pkg := id
    length := length, off := 0, ask := 0, data := [] }

/-- Send an Update Forward datagram; it travels on queue 1 under a lease. -/
def sendFwd (slot op : Nat) (b : FwdB) (s : State) : State := sendBulk slot 1 (.updateForward op b) s

/-- The next slot after `x`, in ascending order and wrapping, that the view holds alive; none once the own slot comes round (R628). -/
def nextTarget (s : State) (x : Nat) : Option Nat :=
  let me := mySlot s
  let after (y : Nat) : Nat := (y + 4096 - x - 1) % 4096
  let up := (aliveOthers s).filter (fun y => decide (after y < after me))
  (up.insertionSort (fun a b => after a ≤ after b)).head?

/-- The package this device forwards: staged with the forward bit, at the holder of the pair (R628). -/
def forwards (s : State) : Option Staged :=
  if running s ∧ holdsPair s then s.boot.staged.filter (·.forward) else none

/-- The mask the target reported is complete: both ROLEs, or one with the SOLO flag. -/
def maskFull (f : Forwarder) : Bool := (f.mask.contains 0 && f.mask.contains 1) || (f.solo && ! f.mask.isEmpty)

/-- Make a slot the target: event 0x8220. -/
def setTarget (x : Option Nat) (id : Nat) (s : State) : State :=
  let f : Forwarder := { target := x, mask := [], solo := false, confirmed := false, offerAt := 0, progressAt := s.now, confirmAt := 0, stopped := x.isNone }
  let t := { s with boot := { s.boot with forwarder := some f } }
  match x with
  | some y => record 0x8220 (pathSlot y) (le 2 y ++ le 16 id) t
  | none => t

/-- Move to the next slot as target: 0x8221 with the cause 1 refused, 2 LOST, 3 no progress. -/
def moveOn (x id cause : Nat) (s : State) : State :=
  setTarget (nextTarget s x) id (record 0x8221 (pathSlot x) (le 2 x ++ le 1 cause) s)

/-- Change the forwarder. -/
def onForwarder (f : Forwarder → Forwarder) (s : State) : State := { s with boot := { s.boot with forwarder := s.boot.forwarder.map f } }

/-- A forwarder that has none takes its first target; a target that is LOST is left. -/
def keepTarget (id : Nat) (s : State) : State :=
  match s.boot.forwarder with
  | none => setTarget (nextTarget s (mySlot s)) id s
  | some f => match f.target with
    | some x => if slotState s x = .lost ∧ ! f.stopped then moveOn x id 2 s else s
    | none => if f.stopped then setTarget (nextTarget s (mySlot s)) id s else s

/-- OFFER_TIMER (R628): every 1 s an Offer to the target, until its mask is complete. -/
def execOfferTimer (s : State) : Result :=
  match forwards s with
  | some t => onlyIf true (fun s =>
      let a := keepTarget t.pkg.id s
      match a.boot.forwarder with
      | some f => match f.target with
        | some x =>
          if f.stopped ∨ maskFull f ∨ a.now < f.offerAt + 1000000000 then a
          else sendFwd x 1 { fwdBody a t.pkg.id t.pkg.length t.origin t.chain with mask := f.mask } (onForwarder (fun f => { f with offerAt := a.now }) a)
        | none => a
      | none => a) s
  | none => .next s

/-- PULL_PROGRESS_TIMEOUT (R628): 600 s without pull progress: the next slot is the target. -/
def execPullProgressTimeout (s : State) : Result :=
  match forwards s, s.boot.forwarder with
  | some t, some f => match f.target with
    | some x => onlyIf (! f.stopped && ! maskFull f && decide (f.progressAt + 600000000000 ≤ s.now)) (moveOn x t.pkg.id 3) s
    | none => .next s
  | _, _ => .next s

/-- CHAIN_GIVE_UP (R628): 7 days after staging the forwarder gives up, 0x8221. -/
def execChainGiveUp (s : State) : Result :=
  match forwards s, s.boot.forwarder with
  | some t, some f => onlyIf (! f.stopped && decide (t.at_ + 7 * dayNs ≤ s.now)) (fun s =>
      record 0x8221 (pathSlot (f.target.getD 0xFFFF)) (le 2 (f.target.getD 0xFFFF) ++ le 1 4) (onForwarder (fun f => { f with stopped := true }) s)) s
  | _, _ => .next s

/-! ### Serving a target (R628) -/

/-- Segments of at most 8 192 bytes from `off`, up to `n` bytes. -/
def segments (slot : Nat) (p : Package) (b : FwdB) : Nat → Nat → Nat → State → State
  | 0, _, _, s => s
  | k + 1, off, n, s =>
    if n = 0 then s
    else
      let m := min n 8192
      segments slot p b k (off + m) (n - m) (sendFwd slot 3 { b with off := off, data := (p.bytes.drop off).take m } s)

/-- UPDATE_PULL (R628): every Pull of the package held staged is served with Segments. -/
def execUpdatePull (h : Hdr) (b : FwdB) (s : State) : Result :=
  gram h (.updateForward 2 b) (fun s => match s.boot.staged with
    | some t =>
      if t.pkg.id ≠ b.pkg ∨ ! t.forward ∨ t.pkg.length ≤ b.off then s
      else
        let n := min (min b.ask (2 ^ 20)) (t.pkg.length - b.off)
        segments h.slot t.pkg (fwdBody s t.pkg.id t.pkg.length t.origin t.chain) 129 b.off n
          (onForwarder (fun f => if f.target = some h.slot then { f with progressAt := s.now } else f) s)
    | none => s) s

/-- The package a Staged or Refused answer can be about: the staged one, or the one confirmed last. -/
def spreads (s : State) (id : Nat) : Option Staged :=
  match s.boot.staged with
  | some t => if t.pkg.id = id then some t else s.boot.spread.filter (fun t => t.pkg.id == id)
  | none => s.boot.spread.filter (fun t => t.pkg.id == id)

/-- UPDATE_STAGED (R628, R634): the ROLEs that have staged; the chain is complete when the target is its origin, 0x8222. -/
def execUpdateStaged (h : Hdr) (b : FwdB) (s : State) : Result :=
  gram h (.updateForward 4 b) (fun s => match spreads s b.pkg, s.boot.forwarder with
    | some t, some f =>
      if f.target ≠ some h.slot then s
      else
        let g := { f with
          mask := b.mask.foldl (fun l x => sIns x l) f.mask, solo := f.solo || b.solo, confirmed := f.confirmed || b.confirmed, progressAt := s.now }
        let u := { s with boot := { s.boot with forwarder := some g } }
        if maskFull g ∧ ! g.stopped ∧ h.slot = t.origin then
          record 0x8222 pathPkg (le 2 t.origin ++ le 16 b.pkg) (onForwarder (fun f => { f with stopped := true }) u)
        else u
    | _, _ => s) s

/-- UPDATE_REFUSED (R628): the target refuses: the next slot is the target. -/
def execUpdateRefused (h : Hdr) (b : FwdB) (s : State) : Result :=
  gram h (.updateForward 5 b) (fun s => match s.boot.staged, s.boot.forwarder with
    | some t, some f => if t.pkg.id = b.pkg ∧ f.target = some h.slot ∧ ! f.stopped then moveOn h.slot b.pkg 1 s else s
    | _, _ => s) s

/-! ### Taking a package from the chain (R629, R630) -/

/-- Ask for the next bytes, at most 1 MiB. -/
def pullNext (slot : Nat) (i : Incoming) (s : State) : State :=
  sendFwd slot 2 { fwdBody s i.pkg i.length i.origin i.chain with off := i.bytes.length, ask := min (2 ^ 20) (i.length - i.bytes.length) } s

/-- Answer that a package is staged here; the mask is the own ROLE (Table 16.9). -/
def answerStaged (slot : Nat) (b : FwdB) (s : State) : State :=
  sendFwd slot 4 { fwdBody s b.pkg b.length b.origin b.chain with mask := [s.keeper.role] } s

/-- Refuse a package of the chain: 0x8210, source 1, and the answer with the reason (R605, R629). -/
def refuseChain (slot reason : Nat) (b : FwdB) (s : State) : State :=
  let drop : Bool := match s.boot.incoming with | some i => i.source == 1 && i.pkg == b.pkg | none => false
  sendFwd slot 5 { fwdBody s b.pkg b.length b.origin b.chain with reason := reason }
    (refusePackage reason 1 b.pkg { s with boot := { s.boot with incoming := if drop then none else s.boot.incoming } })

/-- The twin turn (R630): an ACTIVE whose twin has still to stage hands over, at most every 10 min. -/
def twinTurn (b : FwdB) (s : State) : State :=
  let due : Bool := match s.boot.turnAt with | some t => decide (t + 600000000000 ≤ s.now) | none => true
  if b.mask.contains s.keeper.role && ! b.mask.contains (1 - s.keeper.role) && twinConfigured s && hasStandby s && ! s.boot.trial && due then
    beginPlanned ownConn 4 { s with boot := { s.boot with turnAt := some s.now } }
  else s

/-- UPDATE_OFFER (R629, R630): a package held staged, or run, is answered with Staged; another is pulled into the incoming place unless a
download of this device's own is there. -/
def execUpdateOffer (h : Hdr) (b : FwdB) (s : State) : Result :=
  gram h (.updateForward 1 b) (fun s =>
    let have_ : Bool := (match s.boot.staged with | some t => t.pkg.id == b.pkg | none => false) || runsConfirmed s b.pkg
    if have_ then twinTurn b (answerStaged h.slot b s)
    else if stagingBusy s.boot then refuseChain h.slot 13 b s
    else match s.boot.incoming with
      | some i =>
        if i.source = 1 ∧ i.pkg = b.pkg ∧ i.from_ = h.slot then pullNext h.slot i s
        else s
      | none =>
        let i : Incoming := { bytes := [], refused := none, source := 1, from_ := h.slot, origin := b.origin, chain := b.chain
                              pkg := b.pkg, length := b.length, at_ := s.now }
        pullNext h.slot i { s with boot := { s.boot with incoming := some i } }) s

/-- Why a package of the chain is refused as its header block arrives: it is not the one offered, or checks 1 to 11 and 13. -/
def chainReason (s : State) (i : Incoming) (bs : List Byte) : Option Nat :=
  if ! isCfg bs ∧ ((Package.mk bs).id ≠ i.pkg ∨ (Package.mk bs).length ≠ i.length) then some 4
  else if isCfg bs then some 1 else incomingReason s bs

/-- UPDATE_SEGMENT (R629): bytes in order; checked as they arrive, staged when whole, with the Offer's flags. -/
def execUpdateSegment (h : Hdr) (b : FwdB) (s : State) : Result :=
  gram h (.updateForward 3 b) (fun s => match s.boot.incoming with
    | some i =>
      if i.source ≠ 1 ∨ i.from_ ≠ h.slot ∨ i.pkg ≠ b.pkg ∨ b.off ≠ i.bytes.length ∨ b.data.isEmpty then s
      else
        let j := { i with bytes := i.bytes ++ b.data, at_ := s.now }
        match (if blockDone j.bytes ∧ ! blockDone i.bytes then chainReason s i j.bytes else none) with
        | some r => refuseChain h.slot r b s
        | none =>
          let t := { s with boot := { s.boot with incoming := some j } }
          if j.bytes.length < j.length then (if j.bytes.length % 2 ^ 20 = 0 then pullNext h.slot j t else t)
          else if ! blockDone j.bytes then refuseChain h.slot 1 b t
          else if ! digestsOk (packageOf j.bytes) then refuseChain h.slot 12 b t
          else answerStaged h.slot b
            (stagePackage { pkg := packageOf j.bytes, forward := true, chain := i.chain, at_ := s.now, source := 1, origin := i.origin, from_ := h.slot } false t)
    | none => s) s

/-! ### Chain activation (R632 to R634) -/

/-- The twin, a healthy STANDBY, runs the staged package's version confirmed (R633). -/
def twinAhead (s : State) (t : Staged) : Bool :=
  hasStandby s && ! twinTrial s && match s.twin.twinHello with | some x => x.fw == t.pkg.fwVer | none => false

/-- A pair activates (R632, R633): its bank is marked PENDING, 0x8223 with the gate's source, and it restarts under R612; an ACTIVE
without a healthy STANDBY notes 0x8224 once per hour. -/
def activationProgress (s : State) : State :=
  match s.boot.staged with
  | none => s
  | some t =>
    let gate : Option Nat := if s.boot.gate.isSome then s.boot.gate else if twinAhead s t then some 0xFFFF else none
    let ready := running s && holdsPair s && s.start.serving && t.chain && gate.isSome && ! s.boot.trial && s.boot.erase.isNone &&
      (bankOf s.boot (otherBank s.boot)).state == 0 && s.twin.planned.isNone && ! inShutdown s && ! runsConfirmed s t.pkg.id
    if ! ready then s
    else if s.twin.roleState = .active ∧ ! s.twin.healthy then
      let due : Bool := match s.boot.heldNoted with | some x => decide (x + 3600000000000 ≤ s.now) | none => true
      if due then record 0x8224 pathPkg [] { s with boot := { s.boot with heldNoted := some s.now } } else s
    else if twinTrial s then s
    else restartNow (record 0x8223 pathPkg (le 2 (gate.getD 0xFFFF)) (markPending (otherBank s.boot) s))

/-- UPDATE_CONFIRMED (R632): a Confirmed from the slot that forwarded the package opens the gate. -/
def execUpdateConfirmed (h : Hdr) (b : FwdB) (s : State) : Result :=
  gram h (.updateForward 6 b) (fun s => match s.boot.staged with
    | some t =>
      if t.pkg.id = b.pkg ∧ t.chain ∧ t.source = 1 ∧ t.from_ = h.slot then activationProgress { s with boot := { s.boot with gate := some h.slot } }
      else if t.pkg.id = b.pkg then answerStaged h.slot b s else s
    | none => if runsConfirmed s b.pkg then answerStaged h.slot b s else s) s

/-- The pair runs the package it spread last, confirmed at both devices (R634). -/
def pairConfirmed (s : State) (t : Staged) : Bool :=
  runsConfirmed s t.pkg.id && (! twinConfigured s || twinAhead s t)

/-- CONFIRMED_TIMER (R634): every 10 s Confirmed to the current target, until it answers that it runs the package too. -/
def execConfirmedTimer (s : State) : Result :=
  match s.boot.spread with
  | some t => onlyIf (running s && holdsPair s && t.forward && pairConfirmed s t) (fun s =>
      let a := keepTarget t.pkg.id s
      match a.boot.forwarder with
      | some f => match f.target with
        | some x =>
          if f.confirmed ∨ a.now < f.confirmAt + 10000000000 then a
          else sendFwd x 6 (fwdBody a t.pkg.id t.pkg.length t.origin t.chain) (onForwarder (fun f => { f with confirmAt := a.now }) a)
        | none => a
      | none => a) s
  | none => .next s

end Sys2Proof.Machine
end

