-- ==== Sys2Proof/Machine/CoherenceFamily.lean ====
section
/-! DEFINITION. Coherence messages at directories and clusters (R43 to R51, Table 1.10). -/

namespace Sys2Proof.Machine

/-- A message is handled: the cores run, some region owns the line, and the cluster's region is not quarantined (R45). -/
def inService (s : State) (c : Coh) : Bool :=
  running s && (homeOf s c.line).isSome && ! (isCluster c.cluster && regionOut s (c.cluster / 8))

/-- The region that owns the line of a message; region 4 is none. -/
def homeNo (s : State) (line : Nat) : Nat := (homeOf s line).getD 4

/-- A message's meaning; what waited for its line goes on after it (R47). -/
def coherent (c : Coh) (f : Nat → State → State) (s : State) : Result :=
  onlyIf (inService s c) (fun s => wake c.line (f (homeNo s c.line) s)) s

/-! ### Commands at the directory -/

/-- GETS (R45, R47): a read; one of another region or of an engine takes no copy. -/
def execGets (r : CoreReq) (s : State) : Result := coherent r.at_ (fun h => request h r.at_.line ⟨0, r.at_.cluster, r.core, 0, []⟩) s

/-- GETM (R47). -/
def execGetm (r : CoreReq) (s : State) : Result := coherent r.at_ (fun h => request h r.at_.line ⟨1, r.at_.cluster, r.core, 0, []⟩) s

/-- UPGRADE (R47): ownership of a held shared line. -/
def execUpgrade (r : CoreReq) (s : State) : Result := coherent r.at_ (fun h => request h r.at_.line ⟨2, r.at_.cluster, r.core, 0, []⟩) s

/-- PUTM (R45, R49, R523): the write-back of a modified line, poison passing with its data (R51); from a core of another region, or with
an engine's transfer in its segments, a write of words that the directory merges. -/
def execPutm (c : Coh) (w : PutData) (s : State) : Result :=
  coherent c (fun h => request h c.line ⟨6, c.cluster, 0, w.first, if isCluster c.cluster then w.words else assembleWords w.segs⟩) s

/-- PUTE (R50): no data, no memory write. -/
def execPute (c : Coh) (s : State) : Result := coherent c (fun h => request h c.line ⟨7, c.cluster, 0, 0, []⟩) s

/-- PUTS (R50): no data, no memory write. -/
def execPuts (c : Coh) (s : State) : Result := coherent c (fun h s => request h c.line ⟨7, c.cluster, 0, 0, []⟩ s) s

/-- CROSSEDEVICT (R49): with the Put already in, the pending request is served from it; else the directory waits. -/
def execCrossedevict (c : Coh) (s : State) : Result :=
  coherent c (fun h s =>
    let d := dirOf s.coh c.line
    match d.txn with
    | some t =>
      if t.waits.contains c.cluster then
        match t.put.find? (fun p => p.1 == c.cluster) with
        | some p => sendCoh "PutAck" h c.cluster c.line [] (answered h c.line c.cluster t p.2 s)
        | none => onCoh (setDir { d with txn := some { t with crossed := sIns c.cluster t.crossed } }) s
      else s
    | none => s) s

/-- INVACK (R43). -/
def execInvack (c : Coh) (s : State) : Result :=
  coherent c (fun h s =>
    match (dirOf s.coh c.line).txn with
    | some t => if t.waits.contains c.cluster then answered h c.line c.cluster t none s else s
    | none => s) s

/-! ### Commands at a cluster -/

/-- The cluster answers CrossedEvict for a line in its eviction buffer (R48). -/
def crossedEvict (h : Nat) (c : Coh) (s : State) : State := sendCoh "CrossedEvict" h c.cluster c.line [] (onCoh (evictLine c) s)

/-- Whether a snoop meets the line in the eviction buffer: `evicting` says so where the Put is still on its way. -/
def inBuffer (evicting : Bool) (c : Coh) (s : State) : Bool := evicting || evictingAt s.coh c

/-- Words of a held line: a line in M or E may have been written by the cluster's cores since it came, which `ws` then gives. -/
def heldWords (x : CLine) (ws : List (Word × Bool)) : List (Word × Bool) := if x.state ≠ .s ∧ ws.length = 8 then ws else x.ws

/-- FWDGETS (R48): the owner supplies the line to the requester and the directory and keeps it shared. A cluster that does not hold the
line has nothing to answer. -/
def execFwdgets (c : Coh) (req : Nat) (evicting : Bool) (ws : List (Word × Bool)) (s : State) : Result :=
  coherent c (fun h s =>
    match clusterLine s.coh c with
    | none => s
    | some x =>
      if inBuffer evicting c s then crossedEvict h c s
      else
        let w := heldWords x ws
        sendCoh "DataDir" h c.cluster c.line w (sendCoh "Data" h req c.line w (onCoh (putLine { x with state := .s, ws := w }) s))) s

/-- FWDGETM (R48): the owner supplies the line to the requester and invalidates its own. -/
def execFwdgetm (c : Coh) (req : Nat) (evicting : Bool) (ws : List (Word × Bool)) (s : State) : Result :=
  coherent c (fun h s =>
    match clusterLine s.coh c with
    | none => s
    | some x =>
      if inBuffer evicting c s then crossedEvict h c s
      else sendCoh "DataExcl" h req c.line (heldWords x ws) (onCoh (dropLine c) s)) s

/-- INV (R48): the shared line is invalidated and acknowledged. -/
def execInv (c : Coh) (evicting : Bool) (s : State) : Result :=
  coherent c (fun h s =>
    if inBuffer evicting c s then crossedEvict h c s
    else sendCoh "InvAck" h c.cluster c.line [] (onCoh (dropLine c) s)) s

/-- RECALL (R48): the cluster returns the line that the directory must evict; the line is transient from the recall on, until every
holder has answered. -/
def execRecall (c : Coh) (evicting : Bool) (ws : List (Word × Bool)) (s : State) : Result :=
  coherent c (fun h s =>
    match clusterLine s.coh c with
    | none => s
    | some x =>
      let d := dirOf s.coh c.line
      let s1 := match d.txn with
        | some _ => s
        | none => onCoh (setDir { d with region := h, txn := some ⟨⟨3, c.cluster, 0, 0, []⟩, d.owner.toList ++ d.sharers, [], [], false⟩ }) s
      if inBuffer evicting c s1 then crossedEvict h c s1
      else sendCoh "DataDir" h c.cluster c.line (heldWords x ws) (onCoh (dropLine c) s1)) s

/-- Data reach the directory from cluster `c`: for a GetS they are its copy of the line, which the owner keeps shared; else they answer the
snoop. -/
def dataAtDir (h : Nat) (c : Coh) (t : CTxn) (ws : List (Word × Bool)) (s : State) : State :=
  if ¬ t.waits.contains c.cluster then s
  else if t.req.kind = 0 then
    let d := dirOf s.coh c.line
    let t' := { t with waits := t.waits.filter (· != c.cluster), dataDue := true }
    let u := writeLine c.line ws (onCoh (setDir { d with owner := none, sharers := sIns c.cluster d.sharers, txn := some t' }) s)
    if u.coh.lines.any (fun x => x.cluster == t.req.cluster && x.line == c.line && ! x.evicting) then finishTxn c.line u else u
  else answered h c.line c.cluster t (some ws) s

/-- Data reach the requester: its cluster holds the line, exclusive or shared or for ownership, and the core's L1 with it (R43). -/
def dataAtRequester (c : Coh) (t : CTxn) (ws : List (Word × Bool)) (excl : Bool) (s : State) : State :=
  let d := dirOf s.coh c.line
  let st : Mesi := if ! excl then .s else if t.req.kind = 0 then .e else .m
  let waits := if t.req.kind = 1 ∨ t.req.kind = 2 then t.waits.filter (fun o => ! (d.owner == some o)) else t.waits
  let d' : DirLine :=
    if t.req.kind = 0 then { d with txn := some { t with dataDue := true } }
    else { d with owner := none, txn := some { t with waits := waits, dataDue := true } }
  finishTxn c.line (onCoh (fun k => setDir d' (putLine ⟨c.cluster, c.line, st, false, ws, [t.req.core]⟩ k)) s)

/-- DATA (R43): at the directory (`toDir`, c the sender) it answers the snoop, and memory takes the line once; at the
requester it fills the line and ends the transaction. -/
def execData (c : Coh) (toDir : Bool) (ws : List (Word × Bool)) (excl : Bool) (s : State) : Result :=
  coherent c (fun h s =>
    match (dirOf s.coh c.line).txn with
    | some t => if toDir then dataAtDir h c t ws s else if t.req.cluster = c.cluster ∧ t.req.kind < 3 then dataAtRequester c t ws excl s else s
    | none => s) s

/-- PUTACK (R49): the cluster frees its eviction buffer. -/
def execPutack (c : Coh) (s : State) : Result :=
  coherent c (fun _ s => if evictingAt s.coh c then onCoh (dropLine c) s else s) s

end Sys2Proof.Machine
end

