-- ==== Sys2Proof/Machine/KeywayFamily.lean ====
section
/-! DEFINITION. Meanings of the Keyway's background rows: the checkpoint writer, the delta log, the rebuild of a granule, ledger
runs, and the release of tombstones and version records (chapter 4; R70, R128, R344). -/

namespace Sys2Proof.Machine

/-! ### Checkpoint and delta log (R179 to R182) -/

/-- A sequence a checkpoint must reach for a granule: the tag of its newest valid image, or none while it has no such image or is
incomplete. -/
def coveredTo (k : Keyway) (g : Nat) : Option Nat :=
  if k.incomplete.contains g then none else (newestImage k g).map (·.tag)

/-- Every granule has an image whose tag is at or above a sequence (R180). -/
def covered (s : State) (seq : Nat) : Bool :=
  (List.range (granuleCount s)).all (fun g => match coveredTo s.kw g with | some t => decide (seq ≤ t) | none => false)

/-- Bytes of a Keyway journal record (Table 4.7). -/
def kwBytes (r : KwRec) : Nat := 16 + 24 * r.writes.length

/-- Bytes of a delta-log segment. -/
def segmentBytes : Nat := 64 * 2 ^ 20

/-- The delta log at its new length: payload is held back from 128 GiB until it falls below 120 GiB (R181). -/
def withDelta (segs : List DeltaSeg) (s : State) : State :=
  let n := segs.length * segmentBytes
  { s with kw := { s.kw with
    delta := segs
    deltaBytes := n
    heldBack := decide (128 * 2 ^ 30 ≤ n) || (s.kw.heldBack && decide (120 * 2 ^ 30 ≤ n)) } }

/-- Release the segments that every granule's newest image covers; their grains are dead (R180). -/
def releaseSegments (s : State) : State :=
  let gone := s.kw.delta.filter (fun d => covered s d.last)
  let t := withDelta (s.kw.delta.filter (fun d => ! covered s d.last)) s
  if gone.isEmpty then t else deadMeta (fun o => match o with | .segment f => gone.any (fun d => d.first == f) | _ => false) t

/-- Image of a granule as the table stands: every record is applied as it is journaled, so the tag is the last sequence (R179). -/
def imageOf (k : Keyway) (g place : Nat) (ok : Bool) : GranImage :=
  { granule := g, tag := k.jseq, place := place, valid := ok
    slots := k.slots.filter (fun p => granuleOf (p.1 / 4) == g)
    marks := k.marks.filter (fun b => granuleOf b == g) }

/-- The place that does not hold the newest valid image (R179). -/
def freePlace (k : Keyway) (g : Nat) : Nat := match newestImage k g with | some i => 1 - i.place | none => 0

/-- The next granule of the generation, past incomplete ones, whose images stay until they are rebuilt (R186). -/
def nextGranule (s : State) : Option Nat :=
  (List.range (granuleCount s)).find? (fun g => decide (s.kw.nextGranule ≤ g) && ! s.kw.incomplete.contains g)

/-- The generation is complete: the checkpoint fits the geometry in force and the next generation may begin. -/
def endGeneration (s : State) : State :=
  doneBg 9 0 0 { s with kw := { s.kw with geometry := some (buckets s.kw.dram), nextGranule := 0, genAt := none } }

/-- Bytes of a granule as the table stands: its buckets of four entries, the mark of a bucket in its slot 0 (R164, R165, R176). -/
def granuleBytes (bk : Nat) (k : Keyway) (g : Nat) : List Byte :=
  let n := if (g + 1) * granuleBuckets ≤ bk then granuleBuckets else stashBuckets
  (List.range n).flatMap (fun i =>
    let b := g * granuleBuckets + i
    (List.range 4).flatMap (fun j => slotBytes (slotAt k b j) (decide (j = 0) && k.marks.contains b)))

/-- A granule's image is written to its place in a metadata superblock, where it replaces the older one; the first of a generation starts
its monitor of 900 s, the last ends it (R179, R182, R247). Without room it waits. -/
def writeGranule (g : Nat) (ok : Bool) (s : State) : State :=
  let place := freePlace s.kw g
  let a := if s.kw.genAt.isSome then s else addBg 9 0 0 (secNs 900) { s with kw := { s.kw with genAt := some s.now } }
  match metaWrite (.image g place) (granuleBytes (buckets a.kw.dram) a.kw g) (deadMeta (· == .image g place) a) with
  | (none, t) => t
  | (some _, t) =>
    let others := t.kw.images.filter (fun i => ! (i.granule == g && i.place == place))
    let b := { t with kw := { t.kw with images := others ++ [imageOf t.kw g place ok], nextGranule := if ok then g + 1 else g } }
    if ok then releaseSegments (if (nextGranule b).isNone then endGeneration b else b) else b

/-- CHECKPOINT_GRANULE_WRITE (R179 to R182): the next granule's image goes to the place not holding its newest valid image; one that
fails verification leaves that place without a valid image and the granule is written again. -/
def execCheckpointGranuleWrite (ok : Bool) (s : State) : Result :=
  onlyIf (bgGranted (unitLevel s (ofKind 9)) s) (fun s => match nextGranule s with
    | some g => writeGranule g ok s
    | none => endGeneration s) s

/-- The records of the oldest whole segment of Keyway records in Firn, or none below 64 MiB. -/
def takeSegment : Nat → List KwRec → Option (List KwRec × List KwRec)
  | _, [] => none
  | got, r :: rs =>
    if segmentBytes ≤ got + kwBytes r then some ([r], rs)
    else match takeSegment (got + kwBytes r) rs with
      | some (a, b) => some (r :: a, b)
      | none => none

/-- DELTA_LOG_SEGMENT_WRITE (R180, R181): 64 MiB of Keyway records go to the delta log in a metadata superblock; verified there,
they leave Firn. -/
def execDeltaLogSegmentWrite (ok : Bool) (s : State) : Result :=
  onlyIf (running s && holdsPair s && s.start.serving && ok) (fun s => match takeSegment 0 s.kw.firn with
    | some (rs, rest) =>
      let seg : DeltaSeg := { first := (rs.map (·.seq)).headD 0, last := maxL (rs.map (·.seq)), recs := rs }
      match metaWrite (.segment seg.first) (rs.flatMap kwRecOut) s with
      | (some _, t) => releaseSegments (withDelta (t.kw.delta ++ [seg]) { t with kw := { t.kw with firn := rest } })
      | (none, t) => t
    | none => s) s

/-! ### Rebuild of a granule (R186) -/

/-- The primary or the alternate bucket of an item lies in a granule. -/
def touches (s : State) (g : Nat) (i : Item) : Bool :=
  let bk := buckets s.kw.dram
  let h := itemHash (kwSecret s) i.ns i.chunk i.key
  granuleOf (bucket1 bk h) == g || granuleOf (altOf bk (fpOf h) (bucket1 bk h)) == g || granuleOf (stashOf bk (fpOf h)) == g

/-- Give an item its entry again where it lost it, and its primary bucket the mark where the entry stands elsewhere. -/
def rebuildEntry (g : Nat) (s : State) (i : Item) : State :=
  let bk := buckets s.kw.dram
  let h := itemHash (kwSecret s) i.ns i.chunk i.key
  match slotOf (kwSecret s) s.kw i with
  | some p =>
    let b1 := bucket1 bk h
    if p.2.alt ∧ granuleOf b1 = g ∧ ! s.kw.marks.contains b1 then journal (kwRec s 1 [markWrite s.kw b1]) s else s
  | none => match planInsert bk s.kw h (entryOf (kwSecret s) i) with
    | some ws => journal (kwRec s 1 ws) s
    | none => s

/-- GRANULE_REBUILD (R186): the items whose buckets fall in an incomplete granule enter the table again from their headers; the granule
is complete and its unit leaves the ladder. -/
def execGranuleRebuild (granule : Nat) (s : State) : Result :=
  onlyIf (bgGranted (unitLevel s (isUnit 11 granule 0)) s && s.kw.incomplete.contains granule) (fun s =>
    let t := (s.kw.items.filter (touches s granule)).foldl (rebuildEntry granule) s
    doneBg 11 granule 0 { t with kw := { t.kw with incomplete := t.kw.incomplete.filter (· != granule) } }) s

/-! ### Ledger runs (R192) -/

/-- Bytes of a ledger entry (Table 4.10). -/
def ledgerBytes (e : LEntry) : Nat := ceilDiv (32 + 2 * e.ahead.length + e.key.length) 8 * 8

/-- Listing order of ledger entries (R188). -/
def lLe (a b : LEntry) : Bool :=
  if a.lf ≠ b.lf then decide (a.lf < b.lf) else if a.th ≠ b.th then decide (a.th < b.th) else keyLe a.key b.key

/-- A ledger entry as a run holds it, padded to 8 bytes (Table 4.10). -/
def ledgerOut (e : LEntry) : List Byte :=
  padTo (ledgerBytes e) (le 8 e.lf ++ le 8 e.th ++ le 8 e.version ++ le 1 e.key.length ++ le 1 e.pos ++
    le 1 (bit e.tomb 0 + bit (decide (16 < e.key.length)) 1) ++ le 1 e.ahead.length ++ le 4 0 ++ e.ahead.flatMap (le 2) ++ e.key)

/-- A sorted run of entries: of each key the greatest version. -/
def sortRun (l : List LEntry) : List LEntry := (newest l).insertionSort (fun a b => lLe a b = true)

/-- Firn deltas of a namespace. -/
def deltasOf (s : State) (ns : Nat) : List LEntry := s.kw.deltas.filter (fun e => e.ns == ns)

/-- Delta runs of a namespace. -/
def deltaRuns (s : State) (ns : Nat) : List LRun := s.kw.runs.filter (fun r => r.ns == ns && ! r.base)

/-- A delta run is due: 16 MiB of deltas, or 60 s since the oldest (R192). -/
def runDue (s : State) (ns : Nat) : Bool :=
  let l := deltasOf s ns
  decide (2 ^ 24 ≤ sumL (l.map ledgerBytes)) || l.any (fun e => decide (e.at_ + secNs 60 ≤ s.now))

/-- A run of a namespace goes to a metadata superblock under the ledger key (R192, R247, Table 12.3). -/
def writeRun (r : LRun) (s : State) : Option Nat × State := metaWrite (.run r.ns r.base) (r.entries.flatMap ledgerOut) s

/-- LEDGER_DELTA_RUN_WRITE (R192): the deltas of a namespace become a sorted run; the eighth makes its merge due (Table 7.1). Without
room in a metadata superblock they stay in Firn. -/
def execLedgerDeltaRunWrite (ns : Nat) (s : State) : Result :=
  onlyIf (running s && holdsPair s && s.start.serving && runDue s ns) (fun s =>
    let r : LRun := { ns := ns, base := false, entries := sortRun (deltasOf s ns) }
    match writeRun r s with
    | (some _, a) =>
      let t := { a with kw := { a.kw with deltas := a.kw.deltas.filter (fun e => e.ns != ns), runs := a.kw.runs ++ [r] } }
      if 8 ≤ (deltaRuns t ns).length then addBg 8 ns 0 (secNs 600) t else t
    | (none, t) => t) s

/-- LEDGER_MERGE (R192): the eight delta runs of a namespace are merged with its base run, whose grains and theirs are dead then. -/
def execLedgerMerge (ns : Nat) (s : State) : Result :=
  onlyIf (bgGranted (unitLevel s (isUnit 8 ns 0)) s && decide (8 ≤ (deltaRuns s ns).length)) (fun s =>
    let r : LRun := { ns := ns, base := true, entries := sortRun ((s.kw.runs.filter (fun r => r.ns == ns)).flatMap (·.entries)) }
    let old := s.media.flash.filter (fun x => match x.2.owner with | some (.run n _) => n == ns | _ => false)
    match writeRun r s with
    | (some _, t) => doneBg 8 ns 0 (journal [.metaMap [] (old.map (·.1))] <| deadGrains (old.map (·.1)) { t with kw := { t.kw with runs := t.kw.runs.filter (fun r => r.ns != ns) ++ [r] } })
    | (none, t) => t) s

/-! ### Tombstones and version records (R70, R128, R344) -/

/-- One hour, for which a version's state is kept after its assignment and a tombstone after its commit. -/
def hourNs : Nat := secNs 3600

/-- A version whose state may lapse: superseded or aborted and applied everywhere, an hour after its assignment (R128, R327). -/
def lapsed (s : State) (v : CoVer) : Bool :=
  (v.st == 3 || v.st == 4) && v.unacked.isEmpty && decide (v.assignedAt + hourNs ≤ s.now)

/-- The floor of this key's bin is being raised already. -/
def raising (s : State) (ns : Nat) (key : Key) : Bool := s.ice.raises.any (fun x => x.ns == ns && x.key == key)

/-- The tombstone of a record may be released: committed and current, at D3 on every holder, an hour past its commit, and no other
version of the key that still counts (R70). -/
def tombReleasable (s : State) (r : CoRec) : Bool :=
  r.vers.any (fun v => v.tomb && v.st == 2 && allLaid v && decide (v.commitTime + hourNs ≤ s.now)) &&
    r.vers.all (fun v => v.st == 2 || lapsed s v)

/-- TOMBSTONE_RELEASE (R70, R344): the floor of the home bin is raised first, here and at the first slots of its list; then the
record goes and the holders release the tombstone. -/
def execTombstoneRelease (ns : Nat) (key : Key) (s : State) : Result :=
  onlyIf (running s && holdsPair s && ! raising s ns key) (fun s => match recOf s ns key with
    | some r => if tombReleasable s r then settle (raiseFloor r s) else s
    | none => s) s

/-- VERSION_RECORD_LAPSE (R128, R344): the state of a version lapses; with no other version of the key left, the record goes under
the floor rule. -/
def execVersionRecordLapse (ns : Nat) (key : Key) (version : Nat) (s : State) : Result :=
  onlyIf (running s && holdsPair s && ! raising s ns key) (fun s => match recOf s ns key with
    | some r => match r.vers.find? (fun v => v.version == version) with
      | some v =>
        if ! lapsed s v then s
        else
          let rest := r.vers.filter (fun x => x.version != version)
          if rest.isEmpty then settle (raiseFloor r s) else setRec { r with vers := rest } s
      | none => s
    | none => s) s

end Sys2Proof.Machine
end

