-- ==== Sys2Proof/Machine/MediaExec.lean ====
section
/-! DEFINITION. Meanings of the commands of the media: programs, reads, erases, sweeps, relocation (chapters 6 and 7): each is its effect, after which what the pair sent to itself is handled. -/

namespace Sys2Proof.Machine

/-- PROGRAM_UNIT_TIMEOUT (R250): a unit that has waited 50 ms with some slots filled is padded and programmed. -/
def execProgramUnitTimeout (sb : Nat) (s : State) : Result := andSettle (mediaProgramUnitTimeout sb s)

/-- FLASH_PROGRAM_COMPLETE (R252, R254, R255): a die reports the end of a program, with its status. -/
def execFlashProgramComplete (die block wl : Nat) (ok : Bool) (s : State) : Result := andSettle (mediaFlashProgramComplete die block wl ok s)

/-- FLASH_READ_COMPLETE (R254, R260 to R262, R243): a grain read ends at its step with the decoder's verdict, the bits it
corrected, the tag and CRC checks, and the levels it used. -/
def execFlashReadComplete (id step bits : Nat) (decoded tagOk crcOk : Bool) (levels : Nat) (s : State) : Result := andSettle (mediaFlashReadComplete id step bits decoded tagOk crcOk levels s)

/-- READING_LADDER_DEADLINE (R263): steps 1 to 5 have not ended within 5 ms: 0x9230, a critical-path miss, and the grain
passes to step 6 or 7. -/
def execReadingLadderDeadline (id : Nat) (s : State) : Result := andSettle (mediaReadingLadderDeadline id s)

/-- FLASH_ERASE_COMPLETE (R281, R289, R293, R295, R297): a die reports the end of an erase. A block row returns to the free
list with its P/E count raised and its read counter 0; one that fails is retired. A failed block of a spill set is replaced. -/
def execFlashEraseComplete (die block : Nat) (ok : Bool) (s : State) : Result := andSettle (mediaFlashEraseComplete die block ok s)

/-- SPILL_SET_ERASE (R270, R459): a set whose restored grains have all left the Cornice, or that holds no complete flush,
is erased and verified as erased; the gauge may then be reported passed. Blocks worn past 10 times the spread threshold are
replaced (R298). -/
def execSpillSetErase (set : Nat) (ok : Bool) (s : State) : Result := andSettle (mediaSpillSetErase set ok s)

/-- DIE_READY_TIMEOUT (R265): a die with an operation or read out gives no ready status 10 ms beyond its longest operation
time; it is lost. -/
def execDieReadyTimeout (die : Nat) (s : State) : Result := andSettle (mediaDieReadyTimeout die s)

/-- BACKGROUND_LEVEL_RISE (R272): a unit takes the level of its own age. -/
def execBackgroundLevelRise (kind id id2 : Nat) (s : State) : Result := andSettle (mediaBackgroundLevelRise kind id id2 s)

/-- BACKGROUND_DEADLINE (R272 to R274): a unit reaches its deadline: the fault of its task, with the unit, its age in
seconds and how many units of the task are overdue; the unit is urgent. -/
def execBackgroundDeadline (kind id id2 : Nat) (s : State) : Result := andSettle (mediaBackgroundDeadline kind id id2 s)

/-- SWEEP_VISIT (R276 to R280, R264): the programmed codewords of a block row are read at step 1; `bits` is the greatest
number of corrected bits, `bitsDefault` that of the page read also at the die defaults for a drift entry of age 15, `failed`
the grain addresses uncorrectable through step 6. The reference block of a die is tested instead (block 0). -/
def execSweepVisit (die block bits bitsDefault : Nat) (failed : List Nat) (s : State) : Result := andSettle (mediaSweepVisit die block bits bitsDefault failed s)

/-- SWEEP_PASS_END (R280): every block row has been visited in this pass: entries not written in it age by one, up to 15,
and the next pass begins. -/
def execSweepPassEnd (s : State) : Result := andSettle (mediaSweepPassEnd s)

/-- READ_COUNTER_COPY (R281): every second the read counters are copied to Firn and sent to the STANDBY. -/
def execReadCounterCopy (s : State) : Result := andSettle (mediaReadCounterCopy s)

/-- REWRITE (R284 to R287, R265): the items with a grain in a reported block row are relocated; an OPEN superblock is closed
early first. A metadata superblock is rewritten whole. -/
def execRewrite (die block : Nat) (s : State) : Result := andSettle (mediaRewrite die block s)

/-- GARBAGE_COLLECTION (R290 to R293): while the free count is below the goal, the victim's live items are relocated. -/
def execGarbageCollection (s : State) : Result := andSettle (mediaGarbageCollection s)

/-- STATIC_WEAR_LEVELLING (R296): while the spread of a die exceeds its threshold, one superblock at a time is relocated to
worn block rows. -/
def execStaticWearLevelling (die : Nat) (s : State) : Result := andSettle (mediaStaticWearLevelling die s)

end Sys2Proof.Machine
end

