-- ==== Sys2Proof/Machine/MemExec.lean ====
section
/-! DEFINITION. Meanings of the commands of memory integrity (chapter 13): each is its effect, after which what the pair sent to itself is handled. -/

namespace Sys2Proof.Machine

/-- SELF_TEST_COMPLETE (R25, R533): a pass marks the error transient, 0x1040, and an element taken out returns unless this
was its third; a failure marks the site lasting. -/
def execSelfTestComplete (t : Site) (failed : Bool) (s : State) : Result := andSettle (memSelfTestComplete t failed s)

/-- SELF_TEST_DEADLINE (R534): a test beyond 10 times its duration: 0x9120, and its site is lasting. -/
def execSelfTestDeadline (t : Site) (s : State) : Result := andSettle (memSelfTestDeadline t s)

/-- RETIREMENT_ENTRY_EXPIRY (R535): an entry with only transients is dropped 24 h after its later one. -/
def execRetirementEntryExpiry (t : Site) (s : State) : Result := andSettle (memRetirementEntryExpiry t s)

/-- CORRECTABLE_READ (R516, R529, R531). -/
def execCorrectableRead (t : Site) (s : State) : Result := andSettle (memCorrectableRead t s)

/-- BUCKET_LEAK (R529): a level above 0 falls by 1 every 10 s. -/
def execBucketLeak (bank : Nat) (s : State) : Result := andSettle (memBucketLeak bank s)

/-- MEMORY_SCRUB (R530, R517): words the scrubber finds with one bit in error are corrected and counted; uncorrectable ones
are stored poisoned, 0x1020, and their sites are tested. -/
def execMemoryScrub (single bad : List Site) (s : State) : Result := andSettle (memMemoryScrub single bad s)

/-- NARROW_WRITE (R522): a write narrower than a word or unaligned changes nothing; the core traps, 0x1030. -/
def execNarrowWrite (core : Nat) (t : Site) (s : State) : Result := andSettle (memNarrowWrite core t s)

/-- CORE_LOAD_UNCORRECTABLE (R525, R526, Table 13.3): the core traps and no register receives the word; 0x1020, or 0x1022
for poison, which blames no site. Recovery by structure: 0 Keyway granule, 1 placement table, 2 Ward rules record, 3 firmware
text, 4 command working state, 5 Cornice grain `arg`, 6 state without a source or a trap within a trap's handler. -/
def execCoreLoadUncorrectable (core : Nat) (t : Site) (poison : Bool) (struct_ arg : Nat) (s : State) : Result := 
  andSettle (memCoreLoadUncorrectable core t poison struct_ arg
    (s.ice.stores.any (fun e => e.chunks.any (fun x => x.grains.contains arg && decide (2 ≤ chunkLevel s e x)))) s)

/-- INSTRUCTION_FETCH_UNCORRECTABLE (R527): the cluster is quarantined at once, 0x1020, and tested. -/
def execInstructionFetchUncorrectable (cluster : Nat) (t : Site) (poison : Bool) (s : State) : Result := andSettle (memInstructionFetchUncorrectable cluster t poison s)

/-- DMA_READ_UNCORRECTABLE (R528): the channel halts, nothing of the word or after it is delivered; 0x1021 with the halt
count. -/
def execDmaReadUncorrectable (channel : Nat) (t : Site) (poison : Bool) (s : State) : Result := andSettle (memDmaReadUncorrectable channel t poison s)

/-- DMA_CHANNEL_RESTART (R528): firmware restarts a halted channel. -/
def execDmaChannelRestart (channel : Nat) (s : State) : Result := andSettle (memDmaChannelRestart channel s)

end Sys2Proof.Machine
end

