-- ==== Sys2Proof/Machine/MoraineFamily.lean ====
section
/-! DEFINITION. The commands of the Moraine recorder: ring writes, their deadline, and summary records (R650, R654). -/

namespace Sys2Proof.Machine

/-- When a ring write is called for: a trigger, or 1 s with a record that no write has taken (R654). -/
def writeTrigger (s : State) : Option Nat :=
  match s.mor.trigger, s.mor.waiting with
  | some t, _ => some t
  | none, some w => if w + 1000000000 ≤ s.now then some (w + 1000000000) else none
  | none, none => none

/-- RING_WRITE (R654): with a trigger standing and no write running, a write of the whole buffer begins. -/
def execRingWrite (s : State) : Result :=
  match writeTrigger s, s.mor.writing with
  | some t, none => onlyIf (running s && ! s.mor.buffer.isEmpty) (fun s => { s with mor := beginWrite s.mor t }) s
  | _, _ => .next s

/-- Event 0x0041 once places have returned (R655). -/
def reportLost (s : State) : State :=
  match s.mor.lostRun with
  | some l =>
    if s.mor.buffer.length < bufferSize - 64 then
      record 0x0041 pathPkg (le 4 l.count ++ le 2 l.code0 ++ le 2 l.code1 ++ le 8 l.time0 ++ le 8 l.time1)
        { s with mor := { s.mor with lostRun := none } }
    else s
  | none => s

/-- RING_WRITE_COMPLETE (R654, R655, R643): the records taken are in the ring and in the first-failure area; the ring
is closed clean when none is left; a trigger that came meanwhile starts a further write. -/
def execRingWriteComplete (s : State) : Result :=
  match s.mor.writing with
  | some (n, _, _) => onlyIf (running s) (fun s => reportLost (onMor (fun m => endWrite m n) s)) s
  | none => .next s

/-- RING_WRITE_DEADLINE (R654): a write longer than 1 ms from its trigger records 0x9030 and goes on. -/
def execRingWriteDeadline (s : State) : Result :=
  match s.mor.writing with
  | some (n, t, false) =>
    onlyIf (running s && decide (t + 1000000 < s.now)) (fun s =>
      record 0x9030 (pathMonitor 0) [] { s with mor := { s.mor with writing := some (n, t, true) } }) s
  | _ => .next s

/-- SUMMARY_RECORD_TIMER (R650): a suppressed code whose bucket has held a token for 1 s with no further occurrence
gets its summary record. -/
def execSummaryRecordTimer (code : Nat) (s : State) : Result :=
  match s.mor.supp.find? (fun x => x.last.code = code) with
  | some x => onlyIf (running s && summaryDue (limOf s) s.mor s.now x) (onMor (fun m => summarize m s.now x)) s
  | none => .next s

end Sys2Proof.Machine
end

