-- ==== Sys2Proof/Machine/NetFamily.lean ====
section
/-! DEFINITION. The commands of the network unit: frames, links, flow control, counters, neighbours, PTP (chapter 9). -/

namespace Sys2Proof.Machine

/-! ### Receive (R376) -/

/-- A group frame passes the hash filter: its bin holds a joined group (R377). -/
def hashPasses (s : State) (a : Nat) : Bool := (joined s).any (fun g => groupBin g == groupBin a)

/-- The counter of the first failing row of Table 9.3, none for a frame that passes. -/
def dropCounter (s : State) (f : Frame) : Option Nat :=
  let d := destKind s f.mac f.dest
  if f.len < 64 then some (if f.fcsOk then 16 else 17)
  else if 9216 < f.len then some (if f.fcsOk then 18 else 19)
  else if ! f.fcsOk then some 20
  else if ! f.symbolOk then some 21
  else if f.bufferFull then some 22
  else if d = .service ∧ ¬ (s.start.service ∧ f.mac < 16) then some 23
  else if d = .group ∧ ! hashPasses s f.dest then some 24
  else if d = .other then some 23
  else if (match f.vlan with
      | some v => v != 0 && ! (match macCfg s f.mac with | some c => c.vlan == v | none => false)
      | none => false) then some 25
  else if ! [0x0800, 0x0806, 0x86DD, 0x88F7, 0x88CC, 0x8808].contains f.etherType then some 26
  else if ! f.ipOk ∨ (d = .broadcast ∧ f.etherType ≠ 0x0806) then some 27
  else if ! f.l4Ok then some 28
  else if d = .group ∧ (¬ (joined s).contains f.dest ∨ (f.milmo ∧ acceptingPort s ≠ some f.mac)) then some 29
  else none

/-- FRAME_RECEIVE (R376, R385): dropped and counted in the first failing row of Table 9.3, or delivered and counted. -/
def execFrameReceive (f : Frame) (s : State) : Result :=
  onlyIf (macTakes s f.mac && isUp s f.mac) (fun s =>
    match dropCounter s f with
    | some c => noteSat (bump f.mac c 1 s)
    | none =>
      let rem := match macOf s f.mac with | some m => m.rxRem + f.len | none => f.len
      let kind := match destKind s f.mac f.dest with | .group => 3 | .broadcast => 4 | _ => 2
      noteSat (onMac f.mac (fun m =>
        bumpMac (32 + f.prio) 1 (bumpMac (8 + sizeBand f.len) 1 (bumpMac 5 (if f.vlan.isSome then 1 else 0)
          (bumpMac kind 1 (bumpMac 1 (rem / 64) (bumpMac 0 1
            { m with rxRem := rem % 64, progressAt := s.now, stalled := false })))))) s)) s

/-! ### Links (R364, R394) -/

/-- LINK_DOWN (R364): `fault` 0 loss of block lock or alignment, 1 local, 2 remote fault. -/
def execLinkDown (mac fault : Nat) (s : State) : Result :=
  onlyIf (linkRuns s mac && isUp s mac) (fun s =>
    if running s then macDown mac (fault != 0) s else onMac mac (fun m => { m with up := false, downAt := s.now }) s) s

/-- LINK_UP (R364, R379): 100 ms without a fault; group memberships are reported where the accepting port may change. -/
def execLinkUp (mac : Nat) (s : State) : Result :=
  match macOf s mac with
  | some m =>
    onlyIf (linkRuns s mac && ! m.up && ! m.laneRetired && decide (m.downAt + 100000000 ≤ s.now) &&
        ! s.twin.parked && ! (decide (mac < 16) && s.pace.clocksLost.contains 0)) (fun s =>
      let t := if running s then record 0x3011 (pathMac mac) [] (noteNone (onMac mac (fun m => { m with up := true }) s))
        else onMac mac (fun m => { m with up := true }) s
      if (mcastPorts t).contains mac then
        t.ice.groups.foldl (fun u b => txFrame mac 7 true (.groupReport mac b) u) t
      else t) s
  | none => .next s

/-- NREFCLK_LOSS (R394): every MAC of G0 to G3 goes down, 0x3020, and the twin learns it from the Status frame. -/
def execNrefclkLoss (s : State) : Result :=
  onlyIf (running s && (! s.pace.clocksLost.contains 0 || ! (macsUp s).isEmpty)) (fun s =>
    sendStatus (record 0x3020 (pathX 0x30 0) []
      (portsDown { s with pace := { s.pace with clocksLost := sIns 0 s.pace.clocksLost } }))) s

/-! ### Priority flow control (R381 to R383) -/

/-- Rate of a MAC in Gb/s. -/
def macRate (m : Mac) : Nat := match m.mode with | 1 => 400 | 2 => 200 | 3 => 100 | _ => 1

/-- End a pause of a priority: the time paused is counted in microseconds. -/
def endPause (now p : Nat) (s : State) (m : Mac) : Mac :=
  match m.paused.find? (fun x => x.1 == p) with
  | some x =>
    let us := (min now x.2.2 - x.2.1) / 1000
    ((List.range 8).filter (fun q => pcpOf s q == p)).foldl (fun m q => bumpMac (72 + q) us m)
      { m with paused := m.paused.filter (fun y => y.1 != p) }
  | none => m

/-- One priority of a received PFC frame: quanta of 512 bit times pause it, 0 ends the pause (R381). -/
def onePfc (now p quanta : Nat) (s : State) (m : Mac) : Mac :=
  if quanta = 0 then endPause now p s m
  else
    let until_ := now + ceilDiv (quanta * 512) (macRate m)
    let m1 := bumpMac (40 + p) 1 m
    match m1.paused.find? (fun x => x.1 == p) with
    | some x =>
      if now ≤ x.2.2 then { m1 with paused := putIf (fun y => y.1 == p) (p, x.2.1, until_) m1.paused }
      else let m2 := endPause now p s m1; { m2 with paused := m2.paused ++ [(p, now, until_)] }
    | none => { m1 with paused := m1.paused ++ [(p, now, until_)] }

/-- PFC_FRAME_RECEIVE (R381): each named priority pauses the queue that carries it. MM runs no PFC (Table 9.8). -/
def execPfcFrameReceive (mac : Nat) (quanta : List (Nat × Nat)) (s : State) : Result :=
  onlyIf (takesFrames s && isUp s mac && decide (mac < 16)) (fun s =>
    drainMac mac (onMac mac (fun m => quanta.foldl (fun m q => onePfc s.now q.1 q.2 s m) (bumpMac 6 1 m)) s)) s

/-- PFC_XOFF_REFRESH (R381, R383): `share` of the receive buffer 2 at the limit less headroom, 0 below half of it. XOFF
goes out and is refreshed every 20 µs, XON below half; a stalled MAC sends no PFC. -/
def execPfcXoffRefresh (mac prio share : Nat) (s : State) : Result :=
  match macOf s mac with
  | some m =>
    let lossless := match netOf s with | some n => n.lossless.contains prio | none => false
    onlyIf (running s && m.up && decide (mac < 16) && lossless && ! m.stalled) (fun s =>
      let due := match aGet prio m.xoff with | some t => decide (t + 20000 ≤ s.now) | none => decide (share = 2)
      if share = 0 then
        if (aGet prio m.xoff).isSome then
          emitNow (.pfc mac prio false) (onMac mac (fun m => bumpMac 53 1 { m with xoff := aDel prio m.xoff }) s)
        else s
      else if due then
        emitNow (.pfc mac prio true) (onMac mac (fun m => bumpMac (80 + prio) 1 (bumpMac 53 1 { m with xoff := aSet prio s.now m.xoff })) s)
      else s) s
  | none => .next s

/-- PFC_PAUSE_DEADLINE (R383): a queue paused for 100 ms without a break records 0x9411, and its priority disregards PFC
on that MAC for 1 s. -/
def execPfcPauseDeadline (mac prio : Nat) (s : State) : Result :=
  match macOf s mac with
  | some m =>
    match m.paused.find? (fun x => x.1 == prio) with
    | some x =>
      onlyIf (running s && decide (x.2.1 + 100000000 ≤ s.now) && decide (s.now ≤ x.2.2)) (fun s =>
        drainMac mac (record 0x9411 (pathMonitor 0) []
          (onMac mac (fun m => { endPause s.now prio s m with
            ignore := aSet prio (s.now + 1000000000) m.ignore }) s))) s
    | none => .next s
  | none => .next s

/-- RECEIVE_BUFFER_STALL (R383): a buffer that asked for a pause and shows no progress for 100 ms: 0x3030, no PFC from
this MAC. -/
def execReceiveBufferStall (mac : Nat) (s : State) : Result :=
  match macOf s mac with
  | some m =>
    onlyIf (running s && m.up && ! m.stalled && ! m.xoff.isEmpty && decide (m.progressAt + 100000000 ≤ s.now)) (fun s =>
      record 0x3030 (pathMac mac) [] (onMac mac (fun m => { m with stalled := true, xoff := [] }) s)) s
  | none => .next s

/-- PAUSE_FRAME (R383): counted and ignored. -/
def execPauseFrame (mac : Nat) (s : State) : Result :=
  onlyIf (takesFrames s && isUp s mac) (fun s => noteSat (bump mac 7 1 s)) s

/-- TX_FRAME_AGE (R375): the oldest frame of a queue at 100 ms is discarded, counted, 0x9410, and counts as a
critical-path miss (Table 10.10). -/
def execTxFrameAge (mac queue : Nat) (s : State) : Result :=
  match macOf s mac with
  | some m =>
    match m.txq.find? (fun x => x.queue == queue) with
    | some x =>
      onlyIf (running s && decide (x.at_ + 100000000 ≤ s.now)) (fun s =>
        missAndJudge (record 0x9410 (pathMonitor 0) []
          (onMac mac (fun m => bumpMac 95 1 (bumpMac 62 (if x.multi then 1 else 0)
            { m with txq := m.txq.erase x })) s))) s
    | none => .next s
  | none => .next s

/-! ### Counters (R386) -/

/-- COUNTER_BIT31 (R386): firmware reads a counter whose bit 31 has set into its total, which clears it. -/
def execCounterBit31 (mac counter : Nat) (s : State) : Result :=
  match macOf s mac with
  | some m =>
    onlyIf (running s && decide (2 ^ 31 ≤ (aGet counter m.counts).getD 0)) (fun s =>
      onMac mac (fun m => { m with
        counts := aDel counter m.counts
        totals := aSet counter ((aGet counter m.totals).getD 0 + (aGet counter m.counts).getD 0) m.totals }) (noteSat s)) s
  | none => .next s

/-- COUNTER_SWEEP (R386): once per second every counter is read into its total. -/
def execCounterSweep (s : State) : Result :=
  onlyIf (running s && decide (s.net.sweptAt + 1000000000 ≤ s.now)) (fun s =>
    let t := noteSat s
    { t with net := { t.net with sweptAt := t.now, macs := t.net.macs.map sweepMac } }) s

/-! ### Neighbours and echo (R369) -/

/-- ARP_REQUEST (R369): answered for an address held on that MAC. -/
def execArpRequest (mac target : Nat) (s : State) : Result :=
  onlyIf (macTakes s mac && isUp s mac && (held4 s mac).contains target) (fun s =>
    txFrame mac (if mac = macMM then 0 else 7) false (.arpReply mac target) s) s

/-- NEIGHBOUR_SOLICITATION (R369). -/
def execNeighbourSolicitation (mac target : Nat) (s : State) : Result :=
  onlyIf (macTakes s mac && isUp s mac && (held6 s mac).contains target) (fun s =>
    txFrame mac (if mac = macMM then 0 else 7) false (.neighbourAdvert mac target) s) s

/-- ECHO_REQUEST (R369): one whose answer would be beyond the 9 000 bytes of R372 is not answered (log 149); up to 100 answers in any second per MAC; further ones are dropped and counted. -/
def execEchoRequest (mac : Nat) (v6 : Bool) (target : Nat) (bytes : List Byte) (s : State) : Result :=
  match macOf s mac with
  | some m =>
    onlyIf (macTakes s mac && m.up && (if v6 then held6 s mac else held4 s mac).contains target &&
        decide (ipHeader v6 + 8 + bytes.length ≤ maxPacket)) (fun s =>
      let recent := m.echo.filter (fun t => decide (s.now < t + 1000000000))
      if recent.length < 100 then
        txFrame mac 0 false (.echoReply mac v6 target bytes) (onMac mac (fun m => { m with echo := recent ++ [s.now] }) s)
      else noteSat (onMac mac (fun m => bumpMac 30 1 { m with echo := recent }) s)) s
  | none => .next s

/-! ### Repeats (R384, R395) -/

/-- LLDP_TRANSMIT (R395): every 30 s on each MAC, on queue 7, or 0 while that is paused (Table 9.2). -/
def execLldpTransmit (s : State) : Result :=
  onlyIf (running s && decide (s.net.lldpAt + 30000000000 ≤ s.now)) (fun s =>
    (s.net.macs.map (·.idx)).foldl (fun t k =>
      txFrame k (if k = macMM ∨ pausedAt t k 7 then 0 else 7) true (.lldp k) t)
      { s with net := { s.net with lldpAt := s.now } }) s

/-- ANNOUNCEMENT_REPEAT (R384): announcements at 1 s up to 3 times, group reports once more (log 15). -/
def execAnnouncementRepeat (s : State) : Result :=
  onlyIf (running s && (s.start.service && decide (0 < s.net.annLeft) || decide (0 < s.net.repLeft)) &&
      decide (s.net.annAt + 1000000000 ≤ s.now)) (fun s =>
    let a := if 0 < s.net.annLeft then announceNow s else s
    let b := if 0 < s.net.repLeft then a.ice.groups.foldl (fun t g => reportGroup g t) a else a
    { b with net := { b.net with annLeft := b.net.annLeft - 1, repLeft := b.net.repLeft - 1, annAt := b.now } }) s

/-! ### PTP (R388 to R391) -/

/-- A MAC takes part in PTP in the configured domain. -/
def ptpOn (s : State) (mac domain : Nat) : Bool :=
  takesFrames s && isUp s mac && decide (mac < 16) && (match macCfg s mac with | some c => c.ptp | none => false) &&
    (match netOf s with | some n => n.ptpDomain == domain | none => false)

/-- Device time follows PTP time, steps on lock acquisition only, and never runs backwards (R389, R640). -/
def stepTime (offset : Int) (s : State) : State :=
  if offset < 0 then { s with now := s.now + offset.natAbs } else s

/-- PTP_SYNC (R390): an offset estimate in ns from the selected parent; 16 in a row within 250 ns gain the lock, 4 in a
row beyond 500 ns lose it. -/
def execPtpSync (mac domain : Nat) (offset : Int) (parent : Nat) (s : State) : Result :=
  onlyIf (ptpOn s mac domain && (match s.ptp.parent with | some p => p.1 == mac && p.2.1 == parent | none => false)) (fun s =>
    let good := if offset.natAbs ≤ 250 then min 16 (s.ptp.good + 1) else 0
    let bad := if 500 < offset.natAbs then min 4 (s.ptp.bad + 1) else 0
    let t := bump mac 88 1 { s with ptp := { s.ptp with offset := offset, good := good, bad := bad, syncAt := s.now } }
    if ! s.ptp.locked ∧ good = 16 then
      record 0x3110 (pathX 0x34 0) [] (stepTime offset { t with ptp := { t.ptp with locked := true } })
    else if s.ptp.locked ∧ bad = 4 then
      record 0x3111 (pathX 0x34 0) [] { t with ptp := { t.ptp with locked := false } }
    else t) s

/-- PTP_SYNC_TIMEOUT (R390): 2 s without a Sync loses the lock. -/
def execPtpSyncTimeout (s : State) : Result :=
  onlyIf (running s && s.ptp.locked && decide (s.ptp.syncAt + 2000000000 ≤ s.now)) (fun s =>
    record 0x3111 (pathX 0x34 0) [] { s with ptp := { s.ptp with locked := false, good := 0, bad := 0 } }) s

/-- PTP_ANNOUNCE (R388, R390): the better of parent and announced master by its data set, compared as one value and then
by identity, becomes or stays the parent; a change records 0x3112. -/
def execPtpAnnounce (mac domain : Nat) (prio parent : Nat) (s : State) : Result :=
  onlyIf (ptpOn s mac domain) (fun s =>
    let better : Bool := match s.ptp.parent with
      | some p => (decide (prio < p.2.2) || (prio == p.2.2 && decide (parent < p.2.1))) || (p.1 == mac && p.2.1 == parent)
      | none => true
    if ! better then s
    else
      let changed : Bool := match s.ptp.parent with | some p => ! (p.1 == mac && p.2.1 == parent) | none => true
      let t := { s with ptp := { s.ptp with parent := some (mac, parent, prio) } }
      if changed then
        record 0x3112 (pathX 0x34 0) [] { t with ptp := { t.ptp with good := 0, bad := 0 } }
      else t) s

end Sys2Proof.Machine
end

