-- ==== Sys2Proof/Machine/PaceFamily.lean ====
section
/-! DEFINITION. The pace loop, the AVSBus, the reference clocks and the restart deadline after a quarantine (R27, R35 to
R40). -/

namespace Sys2Proof.Machine

/-- The request may rise to 0.90 V (Table 1.9). -/
def vddMax : Nat := 900

/-- The request may fall to 0.65 V (Table 1.9). -/
def vddMin : Nat := 650

/-- A new voltage request within the range of Table 1.9 goes out on the AVSBus (R37). -/
def requestVdd (v : Nat) (s : State) : State :=
  let w := max vddMin (min vddMax v)
  emitNow (.avs w) { s with pace := { s.pace with vdd := w } }

/-- Pace below target while the request stands at 0.90 V or the loop is frozen counts as a deficit from then (R40). -/
def noteDeficit (pace : Nat) (s : State) : State :=
  if pace < paceTarget ∧ (s.pace.vdd = vddMax ∨ s.pace.frozen) then
    { s with pace := { s.pace with deficitSince := some (s.pace.deficitSince.getD s.now) } }
  else { s with pace := { s.pace with deficitSince := none, deficits := 0 } }

/-- The lowest pace measured among the regions that are not quarantined (R36), none where no region is left. -/
def lowestPace (paces out : List Nat) : Option Nat :=
  (((List.range 4).filter (fun r => ! out.contains r)).filterMap (fun r => paces[r]?)).foldl (fun m p => some (min (m.getD p) p)) none

/-- What a window with the lowest pace `pace` does: it counts in the running decision, and one below target steps up 20 mV at
once unless the loop is frozen (R36). -/
def takeWindow (pace : Nat) (s : State) : State :=
  let t := { s with pace := { s.pace with
    windows := s.pace.windows + 1
    lowest := some (match s.pace.lowest with | some l => min l pace | none => pace) } }
  noteDeficit pace (if pace < paceTarget ∧ ¬ t.pace.frozen then requestVdd (t.pace.vdd + 20) t else t)

/-- PACE_WINDOW (R36): a measurement window of 10 µs has ended with these paces of regions 0 to 3. -/
def execPaceWindow (paces : List Nat) (s : State) : Result :=
  onlyIf (running s && decide (s.pace.windowAt + 10000 ≤ s.now)) (fun s =>
    let t := { s with pace := { s.pace with paces := paces, windowAt := s.now } }
    match lowestPace paces s.mem.qRegions with
    | some p => takeWindow p t
    | none => t) s

/-- PACE_DECISION (R36, Table 1.9): after 10 windows, which make 100 µs, up 5 mV below the working setpoint; down 5 mV after 10
decisions in a row above 1.04 times it. DESIGN CHOICE: the step down begins the count of 10 anew, as Table 1.9 does not say
(log 128). -/
def execPaceDecision (s : State) : Result :=
  match s.pace.lowest with
  | some l =>
    onlyIf (running s && decide (10 ≤ s.pace.windows)) (fun s =>
      let sp := workingSetpoint s
      let highs := if 104 * sp < 100 * l then s.pace.highs + 1 else 0
      let t := { s with pace := { s.pace with windows := 0, lowest := none, highs := if 10 ≤ highs then 0 else highs } }
      if s.pace.frozen then t
      else if l < sp then requestVdd (t.pace.vdd + 5) t
      else if 10 ≤ highs then requestVdd (t.pace.vdd - 5) t
      else t) s
  | none => .next s

/-- AVSBUS_TRANSACTION (R37): the request is written and voltage and current are read back; a failed transaction only
counts (R39). -/
def execAvsbusTransaction (ok : Bool) (v i : Nat) (s : State) : Result :=
  onlyIf (running s && ! s.pace.frozen) (fun s =>
    if ok then
      { s with pace := { s.pace with avsFails := 0, avsAt := s.now, readV := v, readI := i, accepted := s.pace.vdd } }
    else { s with pace := { s.pace with avsFails := s.pace.avsFails + 1, avsAt := s.now } }) s

/-- AVSBUS_FAILURE (R39): three failed transactions in a row freeze the loop at the last accepted voltage and record an error
event, whose code is a free value (log 13). -/
def execAvsbusFailure (s : State) : Result :=
  onlyIf (running s && ! s.pace.frozen && decide (3 ≤ s.pace.avsFails)) (fun s =>
    recordRule 39 4 (pathGauge 0)
      { s with pace := { s.pace with frozen := true, vdd := s.pace.accepted, retryAt := s.now + 10000000 } }) s

/-- AVSBUS_RETRY (R39): every 10 ms one retry; the loop resumes after the first success. -/
def execAvsbusRetry (ok : Bool) (v i : Nat) (s : State) : Result :=
  onlyIf (running s && s.pace.frozen && decide (s.pace.retryAt ≤ s.now)) (fun s =>
    if ok then
      { s with pace := { s.pace with frozen := false, avsFails := 0, avsAt := s.now, readV := v, readI := i } }
    else { s with pace := { s.pace with avsAt := s.now, retryAt := s.now + 10000000 } }) s

/-- PACE_DEFICIT (R40): a deficit longer than 1 ms records 0x9040, and again each further 1 ms, which then counts as a
critical-path miss. DESIGN CHOICE: the record names timer instance 0, as every deadline record of the model does; the spec numbers
no timers (log 124). -/
def execPaceDeficit (s : State) : Result :=
  match s.pace.deficitSince with
  | some t =>
    onlyIf (running s && decide (t + (s.pace.deficits + 1) * 1000000 < s.now)) (fun s =>
      let n := s.pace.deficits
      let a := record 0x9040 (pathMonitor 0) [] { s with pace := { s.pace with deficits := n + 1 } }
      if n = 0 then a else missAndJudge a) s
  | none => .next s

/-- REFCLOCK_LOSS (R35): 0 NREFCLK, 1 HREFCLK, 2 FREFCLK, 3 MREFCLK. The last two are faults of die X (Table 10.10), at once
or, before the device has a role, when it takes one (clockFault); HREFCLK takes the hinge link down (Table 10.14); NREFCLK is
handled by its own row (R394). -/
def execRefclockLoss (clock : Nat) (s : State) : Result :=
  onlyIf (decide (clock < 4)) (fun s =>
    let t := { s with pace := { s.pace with clocksLost := sIns clock s.pace.clocksLost } }
    if ! running t then t
    else if clock = 1 then (if t.twin.linkUp then linkDownNow 3 t else t)
    else if clock = 2 ∨ clock = 3 then criterionTrue 3 (clock - 1) t
    else t) s

/-- COMMAND_RESTART_DEADLINE (R27): a restart of commands beyond 50 µs from the detection of the fault records 0x9010
and counts as a critical-path miss (Table 10.10). -/
def execCommandRestartDeadline (element : Nat) (s : State) : Result :=
  match aGet element s.mem.restarts with
  | some t =>
    onlyIf (running s && decide (t + 50000 < s.now)) (fun s =>
      missAndJudge (record 0x9010 (pathMonitor 0) []
        { s with mem := { s.mem with restarts := aDel element s.mem.restarts } })) s
  | none => .next s

end Sys2Proof.Machine
end

