-- ==== Sys2Proof/Machine/PowerFamily.lean ====
section
/-! DEFINITION. Power failure and flush, thermal actions, caps, tokens, energy intervals and power states (chapter 11). -/

namespace Sys2Proof.Machine

/-! ### Power failure and flush -/

/-- UNHELD_POWER_FAIL (R695): Moraine is written, 0x6010 recorded, then down without supply or the warm start; a device
in RECOVERY powers down at once. A holding device without any C_g ends the same way (R460). -/
def unheldFail (cause : Nat) (s : State) : State :=
  if s.keeper.phase = .recovery then powerDown false s
  else
    let a := record 0x6010 pathPkg (le 2 cause) s
    afterPowerFail .unheldPowerFail (if running s then moraineFlush a else a)

/-- Whether a cause of detection holds (R453): the HOLD sag means nothing while a gauge test runs, and needs a voltage
1.0 V below V_full_min. -/
def detected (cause v : Nat) (s : State) : Bool :=
  match cause with
  | 0 => true
  | 1 => true
  | 2 => s.gauge.test.isNone && decide (v + 1000000 ≤ (powOf s).vFull * 1000)
  | _ => false

/-- POWER_FAIL_DETECTED (R453, R467, R468, R476, R695): the holding device flushes, a STANDBY parks, any other device
has nothing to flush; in DORMANT nothing happens but the loss of supply is noted. -/
def execPowerFailDetected (cause v : Nat) (s : State) : Result :=
  onlyIf (detected cause v s && s.power.flush.isNone && s.keeper.phase != .off && s.keeper.phase != .down) (fun s =>
    let t := { s with keeper := { s.keeper with pfail := true, pfailAt := s.now } }
    if t.keeper.phase = .dormant ∨ t.keeper.phase = .stopped then t
    else if running t ∧ holdsPair t then
      let u := if t.start.lend = 2 then releaseHold t else t
      if t.gauge.cg.isNone then unheldFail cause (dropTest u)
      else record 0x6010 pathPkg (le 2 cause) (beginFlush cause 0 v u)
    else if running t ∧ t.twin.roleState = .standby then park (dropTest t)
    else unheldFail cause t) s

/-- FLUSH_COMPLETE (R454, R466, R467, R479). -/
def execFlushComplete (vEnd : Nat) (wrote : Bool) (s : State) : Result :=
  match s.power.flush with
  | some f => .next (endFlush vEnd wrote f s)
  | none => .next s

/-- FLUSH_DEADLINE (R469): beyond D_f fault 0x9610 is recorded with the grain index reached; the flush goes on. -/
def execFlushDeadline (s : State) : Result :=
  match s.power.flush with
  | some f => onlyIf (! f.missed && decide (f.at_ + flushLimit f.bytes < s.now)) (fun s =>
      record 0x9610 (pathMonitor 0) (le 4 f.index) { s with power := { s.power with flush := some { f with missed := true } } }) s
  | none => .next s

/-- INPUT_SUPPLY_RETURN (R454, R466): PFAIL_N rises; a flush that runs goes on and is not measured. -/
def execInputSupplyReturn (s : State) : Result :=
  let t := { s with keeper := { s.keeper with pfail := false, pfailAt := s.now } }
  .next { t with power := { t.power with flush := t.power.flush.map (fun f => { f with measured := false }) } }

/-! ### Power, caps, temperature -/

/-- POWER_MEASUREMENT (R470, R471, Table 11.9): core power from the AVSBus readings, rails measured or modelled, flash
from its own input, all in mW over 1 ms; the cap loop lowers or raises the setpoint by 2 % of the target. -/
def execPowerMeasurement (core rails flash : Nat) (modelled : Bool) (s : State) : Result :=
  onlyIf (running s) (fun s =>
    let w := core + rails
    let cap := powerCap s
    let overs := if cap < w then s.power.overs + 1 else 0
    let lowered :=
      if (2 ≤ overs ∨ s.power.actions.contains 2) ∧ ¬ atFloor s then s.power.lowered + 2
      else if w * 100 < 95 * cap ∧ ¬ s.power.actions.contains 2 then s.power.lowered - 2
      else s.power.lowered
    let p := { s.power with overs := overs, lowered := lowered, watts := w }
    let t := { s with power := p }
    let throttled := decide (workingSetpoint t < paceSetpoint t)
    let fl := if cap < w ∧ atFloor t then some (s.power.floorSince.getD s.now) else none
    { t with power := { p with
        floorSince := fl
        floorNoted := s.power.floorNoted && fl.isSome
        open_ := p.open_.map (fun i => { i with
          device := i.device + w / 1000
          byTokens := i.byTokens + granted p * 25 / 1000
          measured := i.measured + flash / 1000
          peak := max i.peak w
          throttle := i.throttle + (if throttled then 1000 else 0)
          flags := i.flags ||| bit modelled 4 ||| bit throttled 5 }) } }) s

/-- CAP_EXCEEDED_DEADLINE (R471): the cap exceeded for 100 ms at the floor of the setpoint records 0x9640. -/
def execCapExceededDeadline (s : State) : Result :=
  match s.power.floorSince with
  | some t => onlyIf (running s && ! s.power.floorNoted && decide (t + 100000000 ≤ s.now)) (fun s =>
      record 0x9640 (pathMonitor 0) (le 4 s.power.watts ++ le 4 (powerCap s))
        { s with power := { s.power with floorNoted := true } }) s
  | none => .next s

/-- Thresholds of Table 11.5 rows 1 to 3 in tenths of a degree. -/
def thermalAt (row : Nat) : Int := match row with | 1 => 1150 | 2 => 1260 | _ => 1270

/-- What the 127 °C row does (R472): planned takeover, flush and stop, Join Stage 0 and stop, or stop, as any
device does that does not serve yet (R592, R600). -/
def hotStop (s : State) : State :=
  if ! s.start.serving ∧ s.twin.roleState ≠ .standby then stopDevice s
  else match s.twin.roleState with
  | .active =>
    if hasStandby s then beginPlanned ownConn 0 { s with twin := { s.twin with thermalHandover := some s.now } }
    else beginFlush 3 3 s.gauge.v s
  | .solo => beginFlush 3 3 s.gauge.v s
  | .standby => stopDevice (sendFrame (.joinStage 0 0) s)
  | _ => stopDevice s

/-- A row of Table 11.5 begins. -/
def thermalBegin (row : Nat) (h : Int) (s : State) : State :=
  let t := record (0x604F + row) (pathGauge 64) (le 4 h.toNat)
    { s with power := { s.power with actions := sIns row s.power.actions, coolSince := aDel row s.power.coolSince } }
  match row with
  | 1 => raiseAsync 0 1 t
  | 2 => t
  | _ => if t.power.flush.isSome then t else hotStop t

/-- A row ends once the hottest sensor has been 3 °C below its threshold for 1 s (R472). -/
def thermalCool (row : Nat) (h : Int) (s : State) : State :=
  if s.power.actions.contains row then
    if h ≤ thermalAt row - 30 then
      match aGet row s.power.coolSince with
      | some t => if t + 1000000000 ≤ s.now then
          { s with power := { s.power with actions := s.power.actions.filter (· != row), coolSince := aDel row s.power.coolSince } }
        else s
      | none => { s with power := { s.power with coolSince := aSet row s.now s.power.coolSince } }
    else { s with power := { s.power with coolSince := aDel row s.power.coolSince } }
  else s

/-- One row under a new reading. -/
def thermalRow (h : Int) (s : State) (row : Nat) : State :=
  if thermalAt row ≤ h then (if s.power.actions.contains row then { s with power := { s.power with coolSince := aDel row s.power.coolSince } }
    else thermalBegin row h s)
  else thermalCool row h s

/-- THERMAL_ACTION (R472, Table 11.5): the hottest sensor in tenths of a degree. A stopped device only watches for the
105 °C of its restart. -/
def execThermalAction (hottest : Int) (s : State) : Result :=
  let t := { s with power := { s.power with hottest := hottest } }
  if s.keeper.phase = .stopped then
    .next { t with power := { t.power with
      coldSince := if hottest < 1050 then some (s.power.coldSince.getD s.now) else none } }
  else onlyIf (running s) (fun s => [1, 2, 3].foldl (thermalRow hottest) s) t

/-- THERMAL_TRIP (R472): hold released, THERMTRIP_N low, every enable dropped; 0x6053 is latched for the next start. -/
def execThermalTrip (s : State) : Result :=
  onlyIf (s.keeper.phase != .off && s.keeper.phase != .down && s.keeper.phase != .dormant) (fun s =>
    let t := if s.keeper.holdOut then releaseHold s else s
    let r := { newRec s.now s.ptp.locked 0x6053 6 (pathGauge 0) (le 4 s.power.hottest.toNat) with carried := true }
    let u := powerDown false { t with mor := { t.mor with carried := t.mor.carried ++ [r] } }
    { u with keeper := { u.keeper with thermtrip := true, latched := u.keeper.latched ++ [0x6053] } }) s

/-- THERMAL_RESTART (R472): every sensor below 105 °C for 10 s, the keeper begins a warm start. -/
def execThermalRestart (s : State) : Result :=
  match s.power.coldSince with
  | some t => onlyIf (s.keeper.phase == .stopped && decide (t + 10000000000 ≤ s.now)) (dueWarm .thermalStop) s
  | none => .next s

/-- THERMAL_HANDOVER_TIMEOUT (R472): 1 s after the 127 °C planned takeover, a device still at or above 127 °C stops as a
STANDBY does. -/
def execThermalHandoverTimeout (s : State) : Result :=
  match s.twin.thermalHandover with
  | some t => onlyIf (running s && s.twin.roleState == .standby && decide (t + 1000000000 ≤ s.now)) (fun s =>
      let u := { s with twin := { s.twin with thermalHandover := none } }
      if 1270 ≤ u.power.hottest then stopDevice (sendFrame (.joinStage 0 0) u) else u) s
  | none => .next s

/-! ### Tokens -/

/-- TOKEN_REQUEST (R473): an operation asks for the tokens of `count` uses. -/
def execTokenRequest (use count rank : Nat) (s : State) : Result :=
  onlyIf (running s) (askTokens use count rank 65535 65535 s.power.tokenId) s

/-- TOKEN_GRANT (R24, R474, R475): the next waiting request in rank order is granted whole once budget, thaw limiter and its class
allow; time spent waiting is accounted. -/
def execTokenGrant (s : State) : Result :=
  match nextWaiting s with
  | some r => onlyIf (running s && fits s r.tokens && thawAllows s r.tokens && classGranted s (rankClass r.rank)) (fun s =>
      grant r { s with power := { s.power with
        waiting := s.power.waiting.filter (fun w => w.id != r.id)
        thawWait := s.power.thawWait + (s.now - r.at_) / 1000 } }) s
  | none => .next s

/-! ### Energy intervals and power states -/

/-- ENERGY_INTERVAL_CLOSE (R477): the interval ends at its length and the next one opens. -/
def execEnergyIntervalClose (s : State) : Result :=
  match s.power.open_ with
  | some i => onlyIf (running s && s.power.flush.isNone && decide (i.start + (powOf s).intervalMs * 1000000 ≤ s.now))
      (fun s => openInterval (closeInterval 0 s)) s
  | none => onlyIf (running s && s.power.flush.isNone) openInterval s

/-- POWER_STATE_ADOPT (R108, R475, R478): the requested state's limits are adopted; a running flush freezes them (R467). -/
def execPowerStateAdopt (s : State) : Result :=
  match s.power.asked with
  | some (p, _) => onlyIf (running s && s.power.flush.isNone) (fun s =>
      { s with power := { s.power with
        pstate := p, asked := none
        open_ := s.power.open_.map (fun i => { i with flags := i.flags ||| 8, ps1 := p }) } }) s
  | none => .next s

end Sys2Proof.Machine
end

