-- ==== Sys2Proof/Machine/WardFamily.lean ====
section
/-! DEFINITION. Scrub, shadow rebuild and relocation of the Ward table (R209 to R215). -/

namespace Sys2Proof.Machine

/-- What upsets have done to the table and the shadow since the last tick: entries that read otherwise, shadow words that are
uncorrectable (log 92). -/
def takeUpsets (flips : List (Nat × WardEntry)) (lost : List Nat) (s : State) : State :=
  { s with ward := { s.ward with
      rows := flips.foldl (fun t f => putEntryIn f.1 f.2 t) s.ward.rows
      lostWords := lost.foldl (fun l g => sIns g l) s.ward.lostWords } }

/-- WARD_SCRUB_TICK (R209, R212): every 2 µs one entry number is compared in every bank; a shadow word that is uncorrectable is rebuilt
first and its entry not compared. What upsets did since the last tick, `flips` and `lost`, stands before it. -/
def execWardScrubTick (flips : List (Nat × WardEntry)) (lost : List Nat) (s : State) : Result :=
  onlyIf (running s && s.ward.loaded && decide (s.ward.tickAt + 2000 ≤ s.now)) (fun s0 =>
    let s := takeUpsets flips lost s0
    let e := s.ward.pos
    let here := (List.range 64).map (fun b => 1024 * b + e)
    let a := (here.filter s.ward.lostWords.contains).foldl beginRebuild s
    let skipped := here.filter (fun g => (aGet g a.ward.rebuilding).isSome)
    let upset := here.filter (fun g => ! skipped.contains g && entryIn a.ward.rows g != entryIn a.ward.shadow g)
    let b := upset.foldl wardMismatch a
    let stale := skipped.map (fun g => (g, lastClean a g))
    { b with ward := { b.ward with
      tickAt := s.now
      pos := (e + 1) % 1024
      passAt := if e = 1023 then s.now else b.ward.passAt
      cleanAt := aSet e s.now b.ward.cleanAt
      dirtyAt := stale.foldl (fun d x => aSet x.1 x.2 d) (b.ward.dirtyAt.filter (fun x => x.1 % 1024 != e || upset.contains x.1)) } }) s

/-- WARD_SHADOW_REBUILT (R212): the entry's shadow is back from the DRAM copy; 0x1211; the searches that waited are taken again in
their order. -/
def execWardShadowRebuilt (bank entry : Nat) (s : State) : Result :=
  let g := 1024 * bank + entry
  onlyIf (running s && (aGet g s.ward.rebuilding).isSome) (fun s =>
    let e : WardEntry := match (wardOf s).images.find? (fun i => 1024 * placedBank s i.bank + i.entry == g) with
      | some i => i.e
      | none => emptyEntry
    let t := record 0x1211 (pathX 0x18 bank) (le 1 bank ++ le 2 entry)
      { s with ward := { s.ward with rebuilding := aDel g s.ward.rebuilding, shadow := putEntryIn g e s.ward.shadow } }
    settle (t.ward.waits.foldl runCap { t with ward := { t.ward with waits := [] } })) s

/-- WARD_SCRUB_PASS_DEADLINE (R213): a pass longer than 4.096 ms records 0x9211 and the bank's fault is lasting. -/
def execWardScrubPassDeadline (bank : Nat) (s : State) : Result :=
  onlyIf (running s && s.ward.loaded && decide (bank < 64) && ! s.ward.lasting.contains bank &&
      ! s.mem.qUnits.contains (pathX 0x18 bank) && decide (s.ward.passAt + 4096000 < s.now)) (fun s =>
    record 0x9211 (pathMonitor 0) [] { s with ward := { s.ward with lasting := sIns bank s.ward.lasting } }) s

/-- A Ward bank is out for good: an entry of the retirement list, which every later start reads (R26, R215, R535). DESIGN CHOICE: the
cause of an entry made here is 0 (log 134). -/
def retireWardBank (s : State) (bank : Nat) : State :=
  let t : Site := { mem := 255, path := pathX 0x18 bank, idx := bank, kind := 10, addr := 0 }
  let a := { s with mem := { s.mem with qUnits := sIns t.path s.mem.qUnits } }
  if a.mem.retire.any (fun e => e.state == 2 && sameSite e.site t) then a
  else putEntry { site := t, state := 2, transients := [], cause := 0, lastingAt := nowS a, replacement := none } a

/-- The rows of a group as the shadow has them, in the places of another group of its width (R214 step 1). -/
def movedRows (t : List (Nat × WardEntry)) (old new l : Nat) : List (Nat × WardEntry) :=
  (t.filter (fun x => decide (old ≤ x.1 / 1024) && decide (x.1 / 1024 < old + l))).map (fun x => (x.1 + 1024 * new - 1024 * old, x.2))

/-- WARD_GROUP_RELOCATION (R214, R215): the group of a bank with a lasting fault is copied from the shadow into a free group of its width,
which takes its place, and is quarantined with 0x0210; without one it is quarantined with 0x0211 and firmware classifies. -/
def execWardGroupRelocation (bank : Nat) (s : State) : Result :=
  onlyIf (running s && s.ward.loaded && s.ward.lasting.contains bank) (fun s =>
    let w := wardOf s
    let placed := groupHead w bank
    let l := groupWidth w placed
    let h := ((s.ward.moved.find? (fun p => p.2 == placed)).map (·.1)).getD placed
    let banks := (List.range l).map (placed + ·)
    let q := banks.foldl retireWardBank { s with ward := { s.ward with lasting := s.ward.lasting.filter (fun b => ! banks.contains b) } }
    match freeGroup s l placed with
    | some g =>
      let new := movedRows s.ward.shadow placed g l
      record 0x0210 (pathX 0x18 placed) (le 1 placed ++ le 1 g)
        { q with ward := { q.ward with
            moved := aSet h g q.ward.moved
            rows := new.foldl (fun t x => putEntryIn x.1 x.2 t) q.ward.rows
            shadow := new.foldl (fun t x => putEntryIn x.1 x.2 t) q.ward.shadow } }
    | none => record 0x0211 (pathX 0x18 placed) (le 1 placed)
        { q with ward := { q.ward with firmware := sIns h q.ward.firmware } }) s

end Sys2Proof.Machine
end

