-- ==== Sys2Proof/Machine/Dispatch.lean ====
section
/-! DEFINITION. The meaning of every command: one arm for each constructor of Instr. -/

namespace Sys2Proof.Machine

def exec (i : Instr) (s : State) : Host.Outcome State Fault Refusal :=
  match i with
  | .coldStart role testEn dram => Sys2Proof.Machine.execColdStart role testEn dram s
  | .wakeStart => Sys2Proof.Machine.execWakeStart s
  | .warmStart => Sys2Proof.Machine.execWarmStart s
  | .powerGoodRise step frefOk mrefOk => Sys2Proof.Machine.execPowerGoodRise step frefOk mrefOk s
  | .sequencingTimeout step => Sys2Proof.Machine.execSequencingTimeout step s
  | .sequencingRetry => Sys2Proof.Machine.execSequencingRetry s
  | .powerGoodFall step => Sys2Proof.Machine.execPowerGoodFall step s
  | .fillDeadline => Sys2Proof.Machine.execFillDeadline s
  | .bankCopyDeadline written => Sys2Proof.Machine.execBankCopyDeadline written s
  | .coreRelease env => Sys2Proof.Machine.execCoreRelease env s
  | .unconfiguredRetry => Sys2Proof.Machine.execUnconfiguredRetry s
  | .helloWaitTimeout => Sys2Proof.Machine.execHelloWaitTimeout s
  | .keywayReloadDeadline => Sys2Proof.Machine.execKeywayReloadDeadline s
  | .lendDeadline trained => Sys2Proof.Machine.execLendDeadline trained s
  | .servingDeadline => Sys2Proof.Machine.execServingDeadline s
  | .vddKeepLoss => Sys2Proof.Machine.execVddKeepLoss s
  | .controllerShutdown a => Sys2Proof.Machine.execControllerShutdown a s
  | .orderlyShutdown a => Sys2Proof.Machine.execOrderlyShutdown a s
  | .abruptShutdown a => Sys2Proof.Machine.execAbruptShutdown a s
  | .shutdownDeadline => Sys2Proof.Machine.execShutdownDeadline s
  | .controllerEnable a => Sys2Proof.Machine.execControllerEnable a s
  | .propertySet a off val => Sys2Proof.Machine.execPropertySet a off val s
  | .propertyGet a off wide => Sys2Proof.Machine.execPropertyGet a off wide s
  | .wakeFrame f => Sys2Proof.Machine.execWakeFrame f s
  | .pfailWakeHold => Sys2Proof.Machine.execPfailWakeHold s
  | .tcpConnectionAttempt mgmt port peer => Sys2Proof.Machine.execTcpConnectionAttempt mgmt port peer s
  | .roceConnectionRequest r => Sys2Proof.Machine.execRoceConnectionRequest r s
  | .tlsHandshake conn => Sys2Proof.Machine.execTlsHandshake conn s
  | .initializeConnection conn hdgst ddgst align other => Sys2Proof.Machine.execInitializeConnection conn hdgst ddgst align other s
  | .connectionLost conn => Sys2Proof.Machine.execConnectionLost conn s
  | .connect a nqn subnqnOk cntl qid qsize kato => Sys2Proof.Machine.execConnect a nqn subnqnOk cntl qid qsize kato s
  | .disconnect a => Sys2Proof.Machine.execDisconnect a s
  | .authenticationSend a => Sys2Proof.Machine.execAuthenticationSend a s
  | .authenticationReceive a => Sys2Proof.Machine.execAuthenticationReceive a s
  | .unsupportedOpcode a opcode => Sys2Proof.Machine.execUnsupportedOpcode a opcode s
  | .getLogPage a lid off len rae lsp lsi => Sys2Proof.Machine.execGetLogPage a lid off len rae lsp lsi s
  | .identify a cns nsid cntid csi => Sys2Proof.Machine.execIdentify a cns nsid cntid csi s
  | .abort a sqid cid => Sys2Proof.Machine.execAbort a sqid cid s
  | .getFeatures a fid sel => Sys2Proof.Machine.execGetFeatures a fid sel s
  | .setPowerManagement a dw11 => Sys2Proof.Machine.execSetPowerManagement a dw11 s
  | .setNumberOfQueues a dw11 => Sys2Proof.Machine.execSetNumberOfQueues a dw11 s
  | .setAsyncEventConfiguration a dw11 => Sys2Proof.Machine.execSetAsyncEventConfiguration a dw11 s
  | .setKeepAliveTimer a dw11 => Sys2Proof.Machine.execSetKeepAliveTimer a dw11 s
  | .setStoreAdmissionTimeout a dw11 => Sys2Proof.Machine.execSetStoreAdmissionTimeout a dw11 s
  | .setFeaturesInvalid a fid save => Sys2Proof.Machine.execSetFeaturesInvalid a fid save s
  | .asynchronousEventRequest a => Sys2Proof.Machine.execAsynchronousEventRequest a s
  | .keepAlive a => Sys2Proof.Machine.execKeepAlive a s
  | .formatNvm a nsid dw10 => Sys2Proof.Machine.execFormatNvm a nsid dw10 s
  | .purgePassComplete ns => Sys2Proof.Machine.execPurgePassComplete ns s
  | .filterRegister a dw10 bytes => Sys2Proof.Machine.execFilterRegister a dw10 bytes s
  | .filterRelease a handle => Sys2Proof.Machine.execFilterRelease a handle s
  | .plannedTakeover a => Sys2Proof.Machine.execPlannedTakeover a s
  | .firmwareImageDownload a numd off data => Sys2Proof.Machine.execFirmwareImageDownload a numd off data s
  | .commitConfiguration a action bank => Sys2Proof.Machine.execCommitConfiguration a action bank s
  | .commitStage a slot opts => Sys2Proof.Machine.execCommitStage a slot opts s
  | .commitStageActivate a slot opts => Sys2Proof.Machine.execCommitStageActivate a slot opts s
  | .commitActivateStaged a slot opts => Sys2Proof.Machine.execCommitActivateStaged a slot opts s
  | .commitActivateRestart a slot opts => Sys2Proof.Machine.execCommitActivateRestart a slot opts s
  | .bankEraseComplete => Sys2Proof.Machine.execBankEraseComplete s
  | .bankEraseDeadline => Sys2Proof.Machine.execBankEraseDeadline s
  | .trialConfirm => Sys2Proof.Machine.execTrialConfirm s
  | .confirmationMonitor => Sys2Proof.Machine.execConfirmationMonitor s
  | .rollbackFuseTimer => Sys2Proof.Machine.execRollbackFuseTimer s
  | .tftpWriteRequest peer read octet => Sys2Proof.Machine.execTftpWriteRequest peer read octet s
  | .tftpData peer block len raw => Sys2Proof.Machine.execTftpData peer block len raw s
  | .flush q => Sys2Proof.Machine.execFlush q s
  | .store q valueLen data => Sys2Proof.Machine.execStore q valueLen data s
  | .retrieve q => Sys2Proof.Machine.execRetrieve q s
  | .list q => Sys2Proof.Machine.execList q s
  | .delete q => Sys2Proof.Machine.execDelete q s
  | .exist q => Sys2Proof.Machine.execExist q s
  | .longStore q valueLen data => Sys2Proof.Machine.execLongStore q valueLen data s
  | .longRetrieve q => Sys2Proof.Machine.execLongRetrieve q s
  | .longDelete q => Sys2Proof.Machine.execLongDelete q s
  | .longExist q => Sys2Proof.Machine.execLongExist q s
  | .filteredRetrieve q => Sys2Proof.Machine.execFilteredRetrieve q s
  | .patternList q cursor => Sys2Proof.Machine.execPatternList q cursor s
  | .keyCarrier k => Sys2Proof.Machine.execKeyCarrier k s
  | .durabilityQuery q => Sys2Proof.Machine.execDurabilityQuery q s
  | .shed q off len => Sys2Proof.Machine.execShed q off len s
  | .corniceAdmissionGrant => Sys2Proof.Machine.execCorniceAdmissionGrant s
  | .admissionTimeout conn cid => Sys2Proof.Machine.execAdmissionTimeout conn cid s
  | .keywayPendingWaitEnd ns chunk key => Sys2Proof.Machine.execKeywayPendingWaitEnd ns chunk key s
  | .checkpointGranuleWrite ok => Sys2Proof.Machine.execCheckpointGranuleWrite ok s
  | .deltaLogSegmentWrite ok => Sys2Proof.Machine.execDeltaLogSegmentWrite ok s
  | .granuleRebuild granule => Sys2Proof.Machine.execGranuleRebuild granule s
  | .ledgerDeltaRunWrite ns => Sys2Proof.Machine.execLedgerDeltaRunWrite ns s
  | .ledgerMerge ns => Sys2Proof.Machine.execLedgerMerge ns s
  | .tombstoneRelease ns key => Sys2Proof.Machine.execTombstoneRelease ns key s
  | .versionRecordLapse ns key version => Sys2Proof.Machine.execVersionRecordLapse ns key version s
  | .wardScrubTick flips lost => Sys2Proof.Machine.execWardScrubTick flips lost s
  | .wardShadowRebuilt bank entry => Sys2Proof.Machine.execWardShadowRebuilt bank entry s
  | .wardScrubPassDeadline bank => Sys2Proof.Machine.execWardScrubPassDeadline bank s
  | .wardGroupRelocation bank => Sys2Proof.Machine.execWardGroupRelocation bank s
  | .rimeStringEnd engine => Sys2Proof.Machine.execRimeStringEnd engine s
  | .rimeEngineStall engine => Sys2Proof.Machine.execRimeEngineStall engine s
  | .programUnitTimeout sb => Sys2Proof.Machine.execProgramUnitTimeout sb s
  | .flashProgramComplete die block wl ok => Sys2Proof.Machine.execFlashProgramComplete die block wl ok s
  | .flashReadComplete id step bits decoded tagOk crcOk levels => Sys2Proof.Machine.execFlashReadComplete id step bits decoded tagOk crcOk levels s
  | .flashEraseComplete die block ok => Sys2Proof.Machine.execFlashEraseComplete die block ok s
  | .readingLadderDeadline id => Sys2Proof.Machine.execReadingLadderDeadline id s
  | .dieReadyTimeout die => Sys2Proof.Machine.execDieReadyTimeout die s
  | .spillSetErase set ok => Sys2Proof.Machine.execSpillSetErase set ok s
  | .backgroundLevelRise kind id id2 => Sys2Proof.Machine.execBackgroundLevelRise kind id id2 s
  | .backgroundDeadline kind id id2 => Sys2Proof.Machine.execBackgroundDeadline kind id id2 s
  | .sweepVisit die block bits bitsDefault failed => Sys2Proof.Machine.execSweepVisit die block bits bitsDefault failed s
  | .sweepPassEnd => Sys2Proof.Machine.execSweepPassEnd s
  | .readCounterCopy => Sys2Proof.Machine.execReadCounterCopy s
  | .rewrite die block => Sys2Proof.Machine.execRewrite die block s
  | .garbageCollection => Sys2Proof.Machine.execGarbageCollection s
  | .staticWearLevelling die => Sys2Proof.Machine.execStaticWearLevelling die s
  | .shedRecord from_ ns key version off len => Sys2Proof.Machine.execShedRecord from_ ns key version off len s
  | .powerFailDetected cause v => Sys2Proof.Machine.execPowerFailDetected cause v s
  | .flushComplete vEnd wrote => Sys2Proof.Machine.execFlushComplete vEnd wrote s
  | .flushDeadline => Sys2Proof.Machine.execFlushDeadline s
  | .gaugePeriodTimer => Sys2Proof.Machine.execGaugePeriodTimer s
  | .gaugeRetryTimer => Sys2Proof.Machine.execGaugeRetryTimer s
  | .gaugeTestStart v0 => Sys2Proof.Machine.execGaugeTestStart v0 s
  | .gaugeTestComplete iT step fit => Sys2Proof.Machine.execGaugeTestComplete iT step fit s
  | .gaugeTestDeadline => Sys2Proof.Machine.execGaugeTestDeadline s
  | .gaugeReading v => Sys2Proof.Machine.execGaugeReading v s
  | .readOnlyExit => Sys2Proof.Machine.execReadOnlyExit s
  | .admissionExcessDeadline => Sys2Proof.Machine.execAdmissionExcessDeadline s
  | .powerMeasurement core rails flash modelled => Sys2Proof.Machine.execPowerMeasurement core rails flash modelled s
  | .capExceededDeadline => Sys2Proof.Machine.execCapExceededDeadline s
  | .thermalAction hottest => Sys2Proof.Machine.execThermalAction hottest s
  | .thermalTrip => Sys2Proof.Machine.execThermalTrip s
  | .thermalRestart => Sys2Proof.Machine.execThermalRestart s
  | .tokenRequest use count rank => Sys2Proof.Machine.execTokenRequest use count rank s
  | .tokenGrant => Sys2Proof.Machine.execTokenGrant s
  | .energyIntervalClose => Sys2Proof.Machine.execEnergyIntervalClose s
  | .powerStateAdopt => Sys2Proof.Machine.execPowerStateAdopt s
  | .paceWindow paces => Sys2Proof.Machine.execPaceWindow paces s
  | .paceDecision => Sys2Proof.Machine.execPaceDecision s
  | .avsbusTransaction ok v amps => Sys2Proof.Machine.execAvsbusTransaction ok v amps s
  | .avsbusFailure => Sys2Proof.Machine.execAvsbusFailure s
  | .avsbusRetry ok v amps => Sys2Proof.Machine.execAvsbusRetry ok v amps s
  | .paceDeficit => Sys2Proof.Machine.execPaceDeficit s
  | .refclockLoss clock => Sys2Proof.Machine.execRefclockLoss clock s
  | .commandRestartDeadline element => Sys2Proof.Machine.execCommandRestartDeadline element s
  | .gets r => Sys2Proof.Machine.execGets r s
  | .getm r => Sys2Proof.Machine.execGetm r s
  | .upgrade r => Sys2Proof.Machine.execUpgrade r s
  | .putm c w => Sys2Proof.Machine.execPutm c w s
  | .pute c => Sys2Proof.Machine.execPute c s
  | .puts c => Sys2Proof.Machine.execPuts c s
  | .fwdgets c req evicting ws => Sys2Proof.Machine.execFwdgets c req evicting ws s
  | .fwdgetm c req evicting ws => Sys2Proof.Machine.execFwdgetm c req evicting ws s
  | .inv c evicting => Sys2Proof.Machine.execInv c evicting s
  | .recall c evicting ws => Sys2Proof.Machine.execRecall c evicting ws s
  | .crossedevict c => Sys2Proof.Machine.execCrossedevict c s
  | .data c toDir ws excl => Sys2Proof.Machine.execData c toDir ws excl s
  | .invack c => Sys2Proof.Machine.execInvack c s
  | .putack c => Sys2Proof.Machine.execPutack c s
  | .coreLoadUncorrectable core site poison struct_ arg => Sys2Proof.Machine.execCoreLoadUncorrectable core site poison struct_ arg s
  | .instructionFetchUncorrectable cluster site poison => Sys2Proof.Machine.execInstructionFetchUncorrectable cluster site poison s
  | .dmaReadUncorrectable channel site poison => Sys2Proof.Machine.execDmaReadUncorrectable channel site poison s
  | .dmaChannelRestart channel => Sys2Proof.Machine.execDmaChannelRestart channel s
  | .correctableRead site => Sys2Proof.Machine.execCorrectableRead site s
  | .narrowWrite core site => Sys2Proof.Machine.execNarrowWrite core site s
  | .bucketLeak bank => Sys2Proof.Machine.execBucketLeak bank s
  | .memoryScrub single bad => Sys2Proof.Machine.execMemoryScrub single bad s
  | .selfTestComplete site failed => Sys2Proof.Machine.execSelfTestComplete site failed s
  | .selfTestDeadline site => Sys2Proof.Machine.execSelfTestDeadline site s
  | .retirementEntryExpiry site => Sys2Proof.Machine.execRetirementEntryExpiry site s
  | .knownAnswerTest path ok => Sys2Proof.Machine.execKnownAnswerTest path ok s
  | .drbgReseed => Sys2Proof.Machine.execDrbgReseed s
  | .maskReseed => Sys2Proof.Machine.execMaskReseed s
  | .entropyHealthFail source test => Sys2Proof.Machine.execEntropyHealthFail source test s
  | .keyEpochChange epoch => Sys2Proof.Machine.execKeyEpochChange epoch s
  | .probeTimer targets => Sys2Proof.Machine.execProbeTimer targets s
  | .probeAckTimeout pid helpers => Sys2Proof.Machine.execProbeAckTimeout pid helpers s
  | .probeRequestTimeout pid => Sys2Proof.Machine.execProbeRequestTimeout pid s
  | .lossTimeout slot => Sys2Proof.Machine.execLossTimeout slot s
  | .digestTimer slot => Sys2Proof.Machine.execDigestTimer slot s
  | .viewSyncRetry => Sys2Proof.Machine.execViewSyncRetry s
  | .placingReannounce => Sys2Proof.Machine.execPlacingReannounce s
  | .probe h b => Sys2Proof.Machine.execProbe h b s
  | .probeAck h b => Sys2Proof.Machine.execProbeAck h b s
  | .probeRequest h b => Sys2Proof.Machine.execProbeRequest h b s
  | .viewDigest h d => Sys2Proof.Machine.execViewDigest h d s
  | .viewSync h us => Sys2Proof.Machine.execViewSync h us s
  | .fragment h b => Sys2Proof.Machine.execFragment h b s
  | .fragmentAck h b => Sys2Proof.Machine.execFragmentAck h b s
  | .d2DispatchTimeout storeId chunk => Sys2Proof.Machine.execD2DispatchTimeout storeId chunk s
  | .fragmentResend storeId chunk pos => Sys2Proof.Machine.execFragmentResend storeId chunk pos s
  | .commitRequest h b => Sys2Proof.Machine.execCommitRequest h b s
  | .commitIntent h b => Sys2Proof.Machine.execCommitIntent h b s
  | .intentAck h b => Sys2Proof.Machine.execIntentAck h b s
  | .commitConfirm h b => Sys2Proof.Machine.execCommitConfirm h b s
  | .commitNotice h b => Sys2Proof.Machine.execCommitNotice h b s
  | .abortNotice h b => Sys2Proof.Machine.execAbortNotice h b s
  | .statusQuery h b => Sys2Proof.Machine.execStatusQuery h b s
  | .versionAbortTimer ns key version => Sys2Proof.Machine.execVersionAbortTimer ns key version s
  | .abortNoticeResend ns key version => Sys2Proof.Machine.execAbortNoticeResend ns key version s
  | .storeLevelTimeout storeId => Sys2Proof.Machine.execStoreLevelTimeout storeId s
  | .commitRequestResend storeId => Sys2Proof.Machine.execCommitRequestResend storeId s
  | .holderStatusQuery storeId chunk => Sys2Proof.Machine.execHolderStatusQuery storeId chunk s
  | .locate h b => Sys2Proof.Machine.execLocate h b s
  | .locateReply h result hint rs => Sys2Proof.Machine.execLocateReply h result hint rs s
  | .readRequest h b => Sys2Proof.Machine.execReadRequest h b s
  | .readData h b => Sys2Proof.Machine.execReadData h b s
  | .readRequestTimeout id chunk pos => Sys2Proof.Machine.execReadRequestTimeout id chunk pos s
  | .recordQuery h b => Sys2Proof.Machine.execRecordQuery h b s
  | .recordReply h rs floor => Sys2Proof.Machine.execRecordReply h rs floor s
  | .floorNotice h bin floor => Sys2Proof.Machine.execFloorNotice h bin floor s
  | .floorAck h bin floor => Sys2Proof.Machine.execFloorAck h bin floor s
  | .floorNoticeResend bin => Sys2Proof.Machine.execFloorNoticeResend bin s
  | .milmoDurabilityQuery h b => Sys2Proof.Machine.execMilmoDurabilityQuery h b s
  | .durabilityReply h result hint r => Sys2Proof.Machine.execDurabilityReply h result hint r s
  | .orphanNotice h b => Sys2Proof.Machine.execOrphanNotice h b s
  | .handoverRecord h b floor => Sys2Proof.Machine.execHandoverRecord h b floor s
  | .handoverFinal bin => Sys2Proof.Machine.execHandoverFinal bin s
  | .holderReturn h b keep => Sys2Proof.Machine.execHolderReturn h b keep s
  | .holderReturnTimeout ns key => Sys2Proof.Machine.execHolderReturnTimeout ns key s
  | .repairOrder h b pos => Sys2Proof.Machine.execRepairOrder h b pos s
  | .repairRetry ns key => Sys2Proof.Machine.execRepairRetry ns key s
  | .rebalance slot => Sys2Proof.Machine.execRebalance slot s
  | .leaseRequest h b => Sys2Proof.Machine.execLeaseRequest h b s
  | .permit h b => Sys2Proof.Machine.execPermit h b s
  | .permitTimer => Sys2Proof.Machine.execPermitTimer s
  | .leaseExpiry id => Sys2Proof.Machine.execLeaseExpiry id s
  | .calendarSlot frame slot => Sys2Proof.Machine.execCalendarSlot frame slot s
  | .listingGatherRequest h b => Sys2Proof.Machine.execListingGatherRequest h b s
  | .listingGatherReply h b => Sys2Proof.Machine.execListingGatherReply h b s
  | .listingGatherResend id slot => Sys2Proof.Machine.execListingGatherResend id slot s
  | .milmoInvalidType h body => Sys2Proof.Machine.execMilmoInvalidType h body s
  | .updateOffer h b => Sys2Proof.Machine.execUpdateOffer h b s
  | .updatePull h b => Sys2Proof.Machine.execUpdatePull h b s
  | .updateSegment h b => Sys2Proof.Machine.execUpdateSegment h b s
  | .updateStaged h b => Sys2Proof.Machine.execUpdateStaged h b s
  | .updateRefused h b => Sys2Proof.Machine.execUpdateRefused h b s
  | .updateConfirmed h b => Sys2Proof.Machine.execUpdateConfirmed h b s
  | .offerTimer => Sys2Proof.Machine.execOfferTimer s
  | .pullProgressTimeout => Sys2Proof.Machine.execPullProgressTimeout s
  | .chainGiveUp => Sys2Proof.Machine.execChainGiveUp s
  | .confirmedTimer => Sys2Proof.Machine.execConfirmedTimer s
  | .frameReceive f => Sys2Proof.Machine.execFrameReceive f s
  | .linkDown mac fault => Sys2Proof.Machine.execLinkDown mac fault s
  | .linkUp mac => Sys2Proof.Machine.execLinkUp mac s
  | .pfcFrameReceive mac quanta => Sys2Proof.Machine.execPfcFrameReceive mac quanta s
  | .pfcXoffRefresh mac prio share => Sys2Proof.Machine.execPfcXoffRefresh mac prio share s
  | .pfcPauseDeadline mac prio => Sys2Proof.Machine.execPfcPauseDeadline mac prio s
  | .receiveBufferStall mac => Sys2Proof.Machine.execReceiveBufferStall mac s
  | .txFrameAge mac queue => Sys2Proof.Machine.execTxFrameAge mac queue s
  | .counterBit31 mac counter => Sys2Proof.Machine.execCounterBit31 mac counter s
  | .counterSweep => Sys2Proof.Machine.execCounterSweep s
  | .arpRequest mac target => Sys2Proof.Machine.execArpRequest mac target s
  | .neighbourSolicitation mac target => Sys2Proof.Machine.execNeighbourSolicitation mac target s
  | .echoRequest mac v6 target bytes => Sys2Proof.Machine.execEchoRequest mac v6 target bytes s
  | .pauseFrame mac => Sys2Proof.Machine.execPauseFrame mac s
  | .ptpSync mac domain offset parent => Sys2Proof.Machine.execPtpSync mac domain offset parent s
  | .ptpSyncTimeout => Sys2Proof.Machine.execPtpSyncTimeout s
  | .lldpTransmit => Sys2Proof.Machine.execLldpTransmit s
  | .announcementRepeat => Sys2Proof.Machine.execAnnouncementRepeat s
  | .nrefclkLoss => Sys2Proof.Machine.execNrefclkLoss s
  | .holdInRise => Sys2Proof.Machine.execHoldInRise s
  | .holdCollisionTimeout => Sys2Proof.Machine.execHoldCollisionTimeout s
  | .keeperFeed => Sys2Proof.Machine.execKeeperFeed s
  | .beatEdge => Sys2Proof.Machine.execBeatEdge s
  | .holdDriverTimer => Sys2Proof.Machine.execHoldDriverTimer s
  | .beatInEdge => Sys2Proof.Machine.execBeatInEdge s
  | .beatInSilent => Sys2Proof.Machine.execBeatInSilent s
  | .takeoverTrigger => Sys2Proof.Machine.execTakeoverTrigger s
  | .takeoverMonitor => Sys2Proof.Machine.execTakeoverMonitor s
  | .standbyRoleRetake => Sys2Proof.Machine.execStandbyRoleRetake s
  | .yieldCriterion crit detail => Sys2Proof.Machine.execYieldCriterion crit detail s
  | .yieldReturnTimeout => Sys2Proof.Machine.execYieldReturnTimeout s
  | .keeperReleaseRestart => Sys2Proof.Machine.execKeeperReleaseRestart s
  | .twinPresentPoll fitted => Sys2Proof.Machine.execTwinPresentPoll fitted s
  | .linkLaneFail lane => Sys2Proof.Machine.execLinkLaneFail lane s
  | .linkRetrainTimeout => Sys2Proof.Machine.execLinkRetrainTimeout s
  | .linkRetrainRetry => Sys2Proof.Machine.execLinkRetrainRetry s
  | .flitReceive seq ack kind credits crcOk => Sys2Proof.Machine.execFlitReceive seq ack kind credits crcOk s
  | .replayRequest lastGood => Sys2Proof.Machine.execReplayRequest lastGood s
  | .idleFlitTimer => Sys2Proof.Machine.execIdleFlitTimer s
  | .hingeStatusTimer => Sys2Proof.Machine.execHingeStatusTimer s
  | .healthReportTimer => Sys2Proof.Machine.execHealthReportTimer s
  | .hello fseq b => Sys2Proof.Machine.execHello fseq b s
  | .joinRetry => Sys2Proof.Machine.execJoinRetry s
  | .status fseq b => Sys2Proof.Machine.execStatus fseq b s
  | .healthReport fseq b => Sys2Proof.Machine.execHealthReport fseq b s
  | .journal fseq first rs => Sys2Proof.Machine.execJournal fseq first rs s
  | .corniceWrite fseq idx gs => Sys2Proof.Machine.execCorniceWrite fseq idx gs s
  | .corniceRelease fseq runs => Sys2Proof.Machine.execCorniceRelease fseq runs s
  | .transport fseq es => Sys2Proof.Machine.execTransport fseq es s
  | .operation fseq es gone => Sys2Proof.Machine.execOperation fseq es gone s
  | .milmoState fseq ms => Sys2Proof.Machine.execMilmoState fseq ms s
  | .settings fseq fs pstate feats => Sys2Proof.Machine.execSettings fseq fs pstate feats s
  | .counters fseq cs => Sys2Proof.Machine.execCounters fseq cs s
  | .flushProgress fseq set idx => Sys2Proof.Machine.execFlushProgress fseq set idx s
  | .mirrorAck fseq held jseq => Sys2Proof.Machine.execMirrorAck fseq held jseq s
  | .mirrorAckDeadline => Sys2Proof.Machine.execMirrorAckDeadline s
  | .copyFirn fseq rs es ops ms => Sys2Proof.Machine.execCopyFirn fseq rs es ops ms s
  | .copyCornice fseq gs => Sys2Proof.Machine.execCopyCornice fseq gs s
  | .copyGranule fseq granule tag ws => Sys2Proof.Machine.execCopyGranule fseq granule tag ws s
  | .joinStage fseq stage units => Sys2Proof.Machine.execJoinStage fseq stage units s
  | .yield fseq crit detail time => Sys2Proof.Machine.execYield fseq crit detail time s
  | .handoff fseq last => Sys2Proof.Machine.execHandoff fseq last s
  | .hingeInvalidFrame type => Sys2Proof.Machine.execHingeInvalidFrame type s
  | .ringWrite => Sys2Proof.Machine.execRingWrite s
  | .ringWriteComplete => Sys2Proof.Machine.execRingWriteComplete s
  | .ringWriteDeadline => Sys2Proof.Machine.execRingWriteDeadline s
  | .summaryRecordTimer code => Sys2Proof.Machine.execSummaryRecordTimer code s
  | .keepAliveTimeout cntl => Sys2Proof.Machine.execKeepAliveTimeout cntl s
  | .hostToControllerData conn cid off bytes digestOk => Sys2Proof.Machine.execHostToControllerData conn cid off bytes digestOk s
  | .nvmeMiBasicManagement cmd len => Sys2Proof.Machine.execNvmeMiBasicManagement cmd len s
  | .nvmeMiCommand msg opcode args => Sys2Proof.Machine.execNvmeMiCommand msg opcode args s
  | .inputSupplyReturn => Sys2Proof.Machine.execInputSupplyReturn s
  | .ptpAnnounce mac domain prio parent => Sys2Proof.Machine.execPtpAnnounce mac domain prio parent s
  | .holdInFall => Sys2Proof.Machine.execHoldInFall s
  | .hingeTrainingComplete width => Sys2Proof.Machine.execHingeTrainingComplete width s
  | .healthReportTimeout => Sys2Proof.Machine.execHealthReportTimeout s
  | .transportProgressTimer => Sys2Proof.Machine.execTransportProgressTimer s
  | .retransmissionTimeout conn => Sys2Proof.Machine.execRetransmissionTimeout conn s
  | .thermalHandoverTimeout => Sys2Proof.Machine.execThermalHandoverTimeout s
  | .localMediaFailureReport slot b pos => Sys2Proof.Machine.execLocalMediaFailureReport slot b pos s

end Sys2Proof.Machine
end

