-- ==== Sys2Proof/Machine/Tick.lean ====
section
/-! DEFINITION. What happens by itself as time passes, with no command waiting: one timer resolution of R41, and whatever a start,
a shutdown, a takeover, an update or a yield waits for goes on (log 1). -/

namespace Sys2Proof.Machine

/-- Apply a step of progress while a condition holds. -/
def when (b : Bool) (f : State → State) (s : State) : State := if b then f s else s

/-- A device that gave way or left a collision unresolved takes its role afresh once its second has passed (R404). -/
def retake (s : State) : State :=
  match s.twin.retakeAt with
  | some t => when (running s && decide (t ≤ s.now)) (fun s => takeRole { s with twin := { s.twin with retakeAt := none } }) s
  | none => s

/-- A channel is in a program gap: no program is on its way there. -/
def inGap (s : State) (channel : Nat) : Bool :=
  ! s.twin.ops.any (fun o => decide (o.die / 64 = channel) && o.op != 3 && decide (o.state ≤ 2))

/-- A channel's write timing is trained; with the last one the 20 ms are met. -/
def trainOne (channel : Nat) (s : State) : State :=
  let w := sIns channel s.twin.writeTrained
  { flashOuts [.trainChannel channel] s with twin := { s.twin with writeTrained := w, trainBy := if 128 ≤ w.length then none else s.twin.trainBy } }

/-- Training for writes that a takeover put off goes on one program gap at a time, the lowest channel in a gap first; what is left is
trained at the end of the 20 ms (R236, Table 10.12; log 145). -/
def trainLate (s : State) : State :=
  match s.twin.trainBy with
  | some t =>
    if ! (running s && holdsPair s && flashDriven s) then s
    else if t ≤ s.now then trainAll s
    else match (List.range 128).find? (fun c => ! s.twin.writeTrained.contains c && inGap s c) with
      | some c => trainOne c s
      | none => s
  | none => s

/-- A criterion that the state alone shows, and no longer does, is over (R427): 1, 4 and 5. -/
def criterionOver (s : State) : Bool :=
  (s.twin.criterion == 1 || s.twin.criterion == 4 || s.twin.criterion == 5) && ! criterionShown s.twin.criterion s

/-- The tests of a yielded device found the faults of its die transient (R431). -/
def foundTransient (s : State) : Bool :=
  decide (s.twin.criterion = 2) && ! (yieldSites s).isEmpty &&
    (yieldSites s).all (fun x => ! s.mem.retire.any (fun e => e.site == x && e.state == 2))

/-- A criterion that is over is forgotten: a STANDBY may be healthy again. -/
def forgetCriterion (s : State) : State := becomeHealthy { s with twin := { s.twin with criterion := 0, detail := 0 } }

/-- An ACTIVE under a criterion yields as soon as a healthy STANDBY exists and the link does not retrain (R428). -/
def yieldLate (s : State) : State :=
  when (running s && s.twin.roleState == .active && decide (s.twin.criterion ≠ 0) && s.twin.trainSince.isNone && mayYield s)
    (fun s => doYield s.twin.criterion s.twin.detail s) s

/-- A yielded device whose twin took over and whose tests have ended joins as STANDBY when no criterion holds (R431). -/
def rejoin (s : State) : State :=
  let t := if foundTransient s then { s with twin := { s.twin with criterion := 0, detail := 0 } } else s
  when (decide (t.twin.criterion = 0)) joinStandby t

/-- A yielded device is ready to join again: not kept from a role, HOLD_IN has risen, no test runs. -/
def mayRejoin (s : State) : Bool :=
  running s && s.twin.roleState == .yielded && ! s.twin.noRole && s.twin.yieldAt.isNone && ! s.twin.yields.isEmpty && s.mem.tests.isEmpty &&
    s.cfg.isSome && hasKeys s

/-- The device has a role whose criteria it judges, and none holds yet. -/
def judgesAnew (s : State) : Bool :=
  running s && decide (s.twin.criterion = 0) &&
    (s.twin.roleState == .active || s.twin.roleState == .standby || s.twin.roleState == .solo)

/-- A reference clock of die X that was lost before the device took its role is its die-X fault from then on (R35, Table 10.10). -/
def clockFault (s : State) : State :=
  when (judgesAnew s && s.pace.clocksLost.any (fun c => c == 2 || c == 3))
    (fun s => criterionTrue 3 (if s.pace.clocksLost.contains 2 then 1 else 2) s) s

/-- Regions that a start found lasting are judged like those quarantined since (R26, R28). -/
def regionFault (s : State) : State :=
  when (judgesAnew s && decide (1 < s.mem.qRegions.length) ||
    running s && holdsPair s && decide (3 ≤ s.mem.qRegions.length) && ! s.mem.stopped) judgeRegions s

/-- Commands in flight on an element that went out go on from their journal points on healthy ones of a region in service: the
entries of Stores, reads and gathers stand at those points. The restart has then ended (R25, R27, log 129). -/
def moveCommands (s : State) : State :=
  if (List.range 4).all (regionOut s) then s else { s with mem := { s.mem with restarts := [] } }

/-- Criteria as time passes (R27, R35, R427, R428, R431). -/
def criteriaProgress (s : State) : State :=
  let b := when (running s) moveCommands (regionFault (clockFault s))
  let a := when (running b && criterionOver b) forgetCriterion b
  when (mayRejoin a) rejoin (yieldLate a)

/-- An erase of a bank that the last run's end interrupted begins again once the device serves (R635). -/
def eraseProgress (s : State) : State :=
  match s.boot.erase with
  | some (x, t, act, noted) =>
    when (running s && s.start.serving && decide (t = 0)) (fun s => { s with boot := { s.boot with erase := some (x, s.now, act, noted) } }) s
  | none => s

/-- The conditions of R432 no longer hold: the millisecond they must have held begins anew. -/
def forgetRetake (s : State) : State :=
  when (! mayTake s && s.twin.retakeSince.isSome) (fun s => { s with twin := { s.twin with retakeSince := none } }) s

/-- One timer resolution passes (R41): 10 ns. -/
def passTime (s : State) : State := { s with now := s.now + 10 }

/-- Hold, role and criteria. -/
def roleProgress (s : State) : State :=
  let a := when (running s) (fun s => checkSignals (waitJoin (retake (borrowProgress s)))) (followGate s)
  forgetRetake (criteriaProgress a)

/-- Start, takeover, planned takeover and shutdown. -/
def runProgress (s : State) : State :=
  ctrlProgress (shutdownProgress (when (running s) (fun s => plannedProgress (takeProgress (trainLate (startProgress s)))) s))

/-- Update and activation. -/
def updateProgress (s : State) : State := when (running s) (fun s => activationProgress (restartProgress (eraseProgress s))) s

/-- An empty queue: time passes, what waited for time goes on, and the ports send what they may. -/
def tick (s : State) : State := drainTx (updateProgress (runProgress (roleProgress (passTime s))))

end Sys2Proof.Machine
end

