-- ==== Sys2Proof/Safety.lean ====
section
/-! DEFINITION. What counts as a safe state and a safe run of a VK8, in the terms the statements use. -/

namespace Sys2Proof.Machine

/-- The flash drivers are enabled only while HOLD_OUT is driven and HOLD_IN is low (R401 to R403): with the same at the twin, the
drivers of the two devices are never enabled together. -/
def DriversHeld (s : State) : Prop := s.keeper.drivers = true → s.keeper.holdOut = true ∧ s.keeper.holdIn = false

/-- The device's addressed stores are in canonical form: Keyway slots by 4 × bucket + slot, Cornice grains by index, grains on flash
by grain address. -/
def storesWf (s : State) : Bool := aWf s.kw.slots && aWf s.kw.cornice && aWf s.media.flash

/-- A command stops the block: no command of this model does. -/
def stops (i : Instr) (s : State) : Prop := ∀ t, exec i s ≠ .next t

/-- An I/O command once its capsule is read: the command as it runs, with its policy and its filter, and the state it runs in; none where
the capsule is not read, the device is in shutdown, or its search waits for a shadow word (R65, R101, R103, R133, R212). `second` and
`compact` are those of the command. -/
def taken (r : CmdRule) (q : Sqe) (second compact : Bool) (s : State) : Option (Cmd × State) :=
  if ioAccepts q s && ! inShutdown s then
    let f := fuse q second s
    let key := if r.opc = 0x8A then [] else f.2.1.getD []
    let x := namedFilter r.opc q f.1
    let d := classifyCmd r.opc { q := q, key := key, fused := f.2.2, pol := none, filter := x }
      (takeCapsule { opc := r.opc, q := q, key := key, filter := x } compact f.1)
    d.1.map (fun c => (c, d.2))
  else none

/-- An I/O command begins: of what can fail nothing does (R111, Table 3.7); the command and the state it begins in, with its namespace's
salt drawn (R503). -/
def begins (r : CmdRule) (q : Sqe) (second compact : Bool) (s : State) : Option (Cmd × State) :=
  (taken r q second compact s).bind (fun x =>
    if (firstFail (r.fails x.1 x.2)).isSome then none else (withSalt x.1.q.nsid x.2).map (fun t => (x.1, t)))

/-- An I/O command ends at the earliest failing row of Table 3.7: the command, the state it is answered in and the status of that row (R111). -/
def failsAt (r : CmdRule) (q : Sqe) (second compact : Bool) (s : State) : Option (Cmd × State × Status) :=
  (taken r q second compact s).bind (fun x => (firstFail (r.fails x.1 x.2)).map (fun st => (x.1, x.2, st)))

/-- The I/O commands of Tables 3.8 and 3.10: the rule of each, its entry, whether it can end a fused pair and whether the compact form of
the mirror can say it. -/
def ioRule : Instr → Option (CmdRule × Sqe × Bool × Bool)
  | .flush q => some (ruleFlush, q, false, false)
  | .store q n d => some (ruleStore d, q.withDw 10 n, false, false)
  | .retrieve q => some (ruleRetrieve, q, false, true)
  | .list q => some (ruleList, q, false, false)
  | .delete q => some (ruleDelete, q, false, false)
  | .exist q => some (ruleExist, q, false, true)
  | .longStore q n d => some (ruleLongStore d, q.withDw 10 n, true, false)
  | .longRetrieve q => some (ruleLongRetrieve, q, true, true)
  | .longDelete q => some (ruleLongDelete, q, true, false)
  | .longExist q => some (ruleLongExist, q, true, true)
  | .filteredRetrieve q => some (ruleFilteredRetrieve, q, true, true)
  | .patternList q cursor => some (rulePatternList, q.withKeyField cursor, false, false)
  | .keyCarrier k => some (ruleKeyCarrier k.block, k.q, false, false)
  | .durabilityQuery q => some (ruleDurabilityQuery, q, true, true)
  | .shed q off len => some (ruleShed, (q.withDw 10 off).withDw 12 len, true, false)
  | _ => none

/-- An I/O command whose search waits for a shadow word being rebuilt (R212): the state it waits in. -/
def searchWaits (r : CmdRule) (q : Sqe) (second compact : Bool) (s : State) : Option (Cmd × State) :=
  if ioAccepts q s && ! inShutdown s then
    let f := fuse q second s
    let key := if r.opc = 0x8A then [] else f.2.1.getD []
    let x := namedFilter r.opc q f.1
    let d := classifyCmd r.opc { q := q, key := key, fused := f.2.2, pol := none, filter := x }
      (takeCapsule { opc := r.opc, q := q, key := key, filter := x } compact f.1)
    if d.1.isNone then some ({ q := q, key := key, fused := f.2.2, pol := none, filter := x }, d.2) else none
  else none

/-- The Milmo datagrams: header and body of each (Table 8.5); VIEW_SYNC, which a pair hears before it has a view, stands apart. -/
def gramRule : Instr → Option (Hdr × Body)
  | .probe h b => some (h, .probe b)
  | .probeAck h b => some (h, .probeAck b)
  | .probeRequest h b => some (h, .probeRequest b)
  | .viewDigest h d => some (h, .viewDigest d)
  | .fragment h b => some (h, .fragment b)
  | .fragmentAck h b => some (h, .fragmentAck b)
  | .commitRequest h b => some (h, .commitRequest b)
  | .commitIntent h b => some (h, .commitIntent b)
  | .intentAck h b => some (h, .intentAck b)
  | .commitConfirm h b => some (h, .commitConfirm b)
  | .commitNotice h b => some (h, .commitNotice b)
  | .abortNotice h b => some (h, .abortNotice b)
  | .statusQuery h b => some (h, .statusQuery b)
  | .locate h b => some (h, .locate b)
  | .locateReply h res hint rs => some (h, .locateReply res hint rs)
  | .readRequest h b => some (h, .readRequest b)
  | .readData h b => some (h, .readData b)
  | .milmoDurabilityQuery h b => some (h, .durabilityQuery b)
  | .durabilityReply h res hint r => some (h, .durabilityReply res hint r)
  | .listingGatherRequest h b => some (h, .gatherRequest b)
  | .listingGatherReply h b => some (h, .gatherReply b)
  | .recordQuery h b => some (h, .recordQuery b)
  | .recordReply h rs floor => some (h, .recordReply rs floor)
  | .floorNotice h bin floor => some (h, .floorNotice bin floor)
  | .floorAck h bin floor => some (h, .floorAck bin floor)
  | .orphanNotice h b => some (h, .orphanNotice b)
  | .handoverRecord h b floor => some (h, .handoverRecord b floor)
  | .holderReturn h b keep => some (h, .holderReturn b keep)
  | .repairOrder h b pos => some (h, .repairOrder b pos)
  | .leaseRequest h b => some (h, .leaseRequest b)
  | .permit h b => some (h, .permit b)
  | .updateOffer h b => some (h, .updateForward 1 b)
  | .updatePull h b => some (h, .updateForward 2 b)
  | .updateSegment h b => some (h, .updateForward 3 b)
  | .updateStaged h b => some (h, .updateForward 4 b)
  | .updateRefused h b => some (h, .updateForward 5 b)
  | .updateConfirmed h b => some (h, .updateForward 6 b)
  | _ => none

/-- The messages of the coherence protocol (Table 1.11). -/
def isCoherence : Instr → Bool
  | .gets _ | .getm _ | .upgrade _ | .putm _ _ | .pute _ | .puts _ | .fwdgets _ _ _ _ | .fwdgetm _ _ _ _ | .inv _ _ | .recall _ _ _
  | .crossedevict _ | .data _ _ _ _ | .invack _ | .putack _ => true
  | _ => false

/-- A message of a cluster about a coherent line that its own region `h` owns, with nothing of the cluster held at its port (R45, R46). -/
def atHome (h : Nat) (c : Coh) (s : State) : Bool :=
  inService s c && homeOf s c.line == some h && ! uncachedAt s h c.line c.cluster && ! s.coh.ports.any (fun p => p.2.cluster == c.cluster)

/-- An access without a copy: of an engine, of a cluster of another region, or to a line that is not cacheable (R44, R45); nothing of its
requester is held at a port. -/
def uncachedTo (h : Nat) (c : Coh) (s : State) : Bool :=
  inService s c && homeOf s c.line == some h && uncachedAt s h c.line c.cluster && ! s.coh.ports.any (fun p => p.2.cluster == c.cluster)

/-- Commands that take released cores (R582): firmware, or a unit that works under it, carries them out. -/
def needsCores : Instr → Bool
  | .unconfiguredRetry | .helloWaitTimeout | .lendDeadline _ | .servingDeadline | .shutdownDeadline | .connectionLost _ | .connect _ _ _ _ _ _ _
  | .purgePassComplete _ | .bankEraseComplete | .bankEraseDeadline | .trialConfirm | .confirmationMonitor | .rollbackFuseTimer
  | .admissionTimeout _ _ | .keywayPendingWaitEnd _ _ _ | .deltaLogSegmentWrite _ | .ledgerDeltaRunWrite _ | .tombstoneRelease _ _
  | .versionRecordLapse _ _ _ | .wardScrubTick _ _ | .wardShadowRebuilt _ _ | .wardScrubPassDeadline _ | .wardGroupRelocation _
  | .shedRecord _ _ _ _ _ _ | .gaugePeriodTimer | .gaugeRetryTimer | .gaugeTestStart _ | .gaugeTestComplete _ _ _ | .gaugeTestDeadline
  | .gaugeReading _ | .readOnlyExit | .admissionExcessDeadline | .powerMeasurement _ _ _ _ | .capExceededDeadline | .tokenRequest _ _ _ | .tokenGrant
  | .energyIntervalClose | .powerStateAdopt | .paceWindow _ | .paceDecision | .avsbusTransaction _ _ _ | .avsbusFailure | .avsbusRetry _ _ _
  | .paceDeficit | .commandRestartDeadline _ | .knownAnswerTest _ _ | .drbgReseed | .maskReseed | .entropyHealthFail _ _ | .keyEpochChange _
  | .probeTimer _ | .probeAckTimeout _ _ | .probeRequestTimeout _ | .lossTimeout _ | .digestTimer _ | .placingReannounce | .probe _ _ | .probeAck _ _
  | .probeRequest _ _ | .viewDigest _ _ | .fragment _ _ | .fragmentAck _ _ | .d2DispatchTimeout _ _ | .fragmentResend _ _ _ | .commitRequest _ _
  | .commitIntent _ _ | .intentAck _ _ | .commitConfirm _ _ | .commitNotice _ _ | .abortNotice _ _ | .statusQuery _ _ | .versionAbortTimer _ _ _
  | .abortNoticeResend _ _ _ | .storeLevelTimeout _ | .commitRequestResend _ | .holderStatusQuery _ _ | .locate _ _ | .locateReply _ _ _ _
  | .readRequest _ _ | .readData _ _ | .readRequestTimeout _ _ _ | .recordQuery _ _ | .recordReply _ _ _ | .floorNotice _ _ _ | .floorAck _ _ _
  | .floorNoticeResend _ | .milmoDurabilityQuery _ _ | .durabilityReply _ _ _ _ | .orphanNotice _ _ | .handoverRecord _ _ _ | .handoverFinal _
  | .holderReturn _ _ _ | .holderReturnTimeout _ _ | .repairOrder _ _ _ | .repairRetry _ _ | .rebalance _ | .leaseRequest _ _ | .permit _ _
  | .permitTimer | .leaseExpiry _ | .calendarSlot _ _ | .listingGatherRequest _ _ | .listingGatherReply _ _ | .listingGatherResend _ _
  | .milmoInvalidType _ _ | .updateOffer _ _ | .updatePull _ _ | .updateSegment _ _ | .updateStaged _ _ | .updateRefused _ _ | .updateConfirmed _ _
  | .confirmedTimer | .pfcFrameReceive _ _ | .pfcXoffRefresh _ _ _ | .receiveBufferStall _
  | .counterBit31 _ _ | .counterSweep | .pauseFrame _ | .ptpSyncTimeout
  | .lldpTransmit | .announcementRepeat | .nrefclkLoss | .holdCollisionTimeout | .keeperFeed | .beatEdge | .takeoverTrigger | .takeoverMonitor
  | .standbyRoleRetake | .yieldCriterion _ _ | .yieldReturnTimeout | .keeperReleaseRestart | .twinPresentPoll _ | .linkLaneFail _
  | .linkRetrainTimeout | .linkRetrainRetry | .healthReportTimer | .hello _ _ | .joinRetry | .status _ _ | .healthReport _ _ | .journal _ _ _
  | .corniceWrite _ _ _ | .corniceRelease _ _ | .transport _ _ | .operation _ _ _ | .milmoState _ _ | .settings _ _ _ _ | .counters _ _
  | .flushProgress _ _ _ | .mirrorAck _ _ _ | .mirrorAckDeadline | .copyFirn _ _ _ _ _ | .copyCornice _ _ | .copyGranule _ _ _ _ | .joinStage _ _ _
  | .yield _ _ _ _ | .handoff _ _ | .hingeInvalidFrame _ | .ringWrite | .ringWriteComplete | .ringWriteDeadline | .summaryRecordTimer _
  | .keepAliveTimeout _ | .nvmeMiCommand _ _ _ | .hingeTrainingComplete _ | .healthReportTimeout | .transportProgressTimer | .retransmissionTimeout _
  | .thermalHandoverTimeout | .localMediaFailureReport _ _ _ => true
  | _ => false

/-- Frames and link changes: released cores take them, and in RECOVERY the management port (R467, R624). -/
def needsLink : Instr → Bool
  | .frameReceive _ | .linkDown _ _ | .linkUp _ | .arpRequest _ _ | .neighbourSolicitation _ _ | .echoRequest _ _ _ _ => true
  | _ => false

/-- Commands that may change HOLD_OUT, HOLD_IN or the drivers: starts and ends of a run, role changes, what brings a criterion of
yield about, restarts, and the HOLD lines themselves. -/
def movesHold : Instr → Bool
  | .coldStart _ _ _ | .warmStart | .powerGoodFall _ | .coreRelease _ | .unconfiguredRetry | .helloWaitTimeout | .lendDeadline _ | .vddKeepLoss
  | .orderlyShutdown _ | .abruptShutdown _ | .shutdownDeadline | .commitConfiguration _ _ _ | .commitStage _ _ _ | .commitStageActivate _ _ _
  | .commitActivateStaged _ _ _ | .commitActivateRestart _ _ _ | .bankEraseComplete | .confirmationMonitor | .rimeEngineStall _
  | .readingLadderDeadline _ | .powerFailDetected _ _ | .flushComplete _ _ | .thermalAction _ | .thermalTrip | .paceDeficit | .refclockLoss _
  | .commandRestartDeadline _ | .coreLoadUncorrectable _ _ _ _ _ | .instructionFetchUncorrectable _ _ _ | .dmaReadUncorrectable _ _ _
  | .correctableRead _ | .memoryScrub _ _ | .selfTestComplete _ _ | .selfTestDeadline _ | .knownAnswerTest _ _ | .updateConfirmed _ _
  | .txFrameAge _ _ | .holdInRise | .holdCollisionTimeout | .beatEdge | .holdDriverTimer | .takeoverTrigger | .standbyRoleRetake
  | .yieldCriterion _ _ | .yieldReturnTimeout | .hello _ _ | .mirrorAck _ _ _ | .joinStage _ _ _ | .holdInFall | .hingeTrainingComplete _
  | .thermalHandoverTimeout => true
  | _ => false

/-- The numbers of a recorder are in order: those of the buffer rise, every number in use is below the next, and the next is no
greater than the mark M (R641, R642). -/
def NumbersOk (m : Moraine) : Prop :=
  m.buffer.Pairwise (fun a b => a.seq < b.seq) ∧ (∀ r ∈ m.buffer, r.seq < m.next) ∧ (∀ r ∈ m.ring, r.seq < m.next) ∧ 1 ≤ m.next ∧ m.next ≤ m.mark

end Sys2Proof.Machine
end

