-- ==== Sys2Proof/WellFormed.lean ====
section
/-! DEFINITION. Which terms of Instr are commands of the VK8: their numbers lie in the ranges of the numbered resources (R16) and of
the fields that carry them. What a command may say wrongly, and the device then answers, is no matter of form. -/

namespace Sys2Proof

/-! ### Ranges of R16 and of field widths -/

/-- MACs M0 to M15, and 16 for MM (R16, R362). -/
def macOk (n : Nat) : Bool := decide (n ≤ 16)
/-- A flash die of up to 8 192 (R231, Table 0.3). -/
def dieOk (n : Nat) : Bool := decide (n < 8192)
/-- Pair slots 0 to 4095 (R16). -/
def slotOk (n : Nat) : Bool := decide (n < 4096)
/-- Bins of the rendezvous ranking, 2^20 of them (R344). -/
def binOk (n : Nat) : Bool := decide (n < 2 ^ 20)
/-- A namespace identifier as datagrams and entries carry it, 16 bits. -/
def nsOk (n : Nat) : Bool := decide (n < 65536)
/-- A chunk number, 16 bits. -/
def chunkOk (n : Nat) : Bool := decide (n < 65536)
/-- A stripe position, or 0xFFFF where a body names none. -/
def posOk (n : Nat) : Bool := decide (n < 32) || n == 0xFFFF
/-- Cores 0 to 255 (R16). -/
def coreOk (n : Nat) : Bool := decide (n < 256)
/-- Clusters 0 to 31 (R16). -/
def clusterOk (n : Nat) : Bool := decide (n < 32)
/-- Hinge lanes HL0 to HL15 (R16). -/
def laneOk (n : Nat) : Bool := decide (n < 16)
/-- Priorities 0 to 7 of a tagged frame (R381). -/
def prioOk (n : Nat) : Bool := decide (n < 8)
/-- Criterion codes 1 to 5, and 0 for none (R415). -/
def critOk (n : Nat) : Bool := decide (n ≤ 5)
/-- The ROLE strap: 0 A, 1 B (R399). -/
def roleOk (n : Nat) : Bool := decide (n ≤ 1)
/-- A key has 1 to 255 bytes (R55). -/
def keyOk (k : Key) : Bool := decide (1 ≤ k.length) && decide (k.length ≤ 255)

/-! ### Operand forms -/

/-- A Milmo header: slot, role bit, epoch byte (Table 8.4). -/
def Hdr.wf (h : Hdr) : Bool :=
  decide (h.bytes.length = 32) && decide (h.tag.length = 16) && slotOk h.slot && roleOk h.role

/-- A coherence message of a cluster 0 to 31 (R16, R43). -/
def Coh.wf (c : Coh) : Bool := clusterOk c.cluster

/-- An access: of a core 0 to 7 of a cluster, or of an engine or DMA channel (R45). -/
def CoreReq.accessOk (r : CoreReq) : Bool := decide (r.at_.cluster < 256) && decide (r.core < 8)

/-- A write-back or a write: a cluster's whole line or its words, an engine's segments; eight words at most (R45, R523). -/
def Coh.writeOk (c : Coh) (w : PutData) : Bool :=
  decide (c.cluster < 256) && decide (w.first + w.words.length ≤ 8) && decide (8 * w.first + w.segs.flatten.length ≤ 64) &&
    (if c.cluster < 32 then w.segs.isEmpty else w.words.isEmpty)

/-- An I/O submission entry: 16 dwords whose first byte is the opcode (Table 3.9). -/
def Sqe.wf (op : Nat) (q : Sqe) : Bool :=
  decide (q.dws.length = 16) && q.dws.all (fun d => decide (d < 2 ^ 32)) && q.dws.headD 0 % 256 == op

/-- Origin of an admin command: a 16-bit command identifier. -/
def Adm.wf (a : Adm) : Bool := decide (a.cid < 65536)

/-- A site: a memory of Table 13.5 (0 SRAM, 1 DRAM, 2 Firn, 255 none) and a one-byte kind. -/
def Site.wf (s : Site) : Bool := (decide (s.mem < 3) || s.mem == 255) && decide (s.kind < 256)

/-- A received frame: on a MAC of the device, a destination of 48 bits, priority 0 to 7 (R369, Table 9.3). -/
def Frame.wf (f : Frame) : Bool := macOk f.mac && decide (f.dest < 2 ^ 48) && prioOk f.prio && decide (f.etherType < 65536)

/-- A term of Instr is a command of the VK8. -/
def Instr.wf (i : Instr) : Bool :=
  match i with
  | .coldStart role _ _ => roleOk role
  | .controllerShutdown a => Adm.wf a
  | .orderlyShutdown a => Adm.wf a
  | .abruptShutdown a => Adm.wf a
  | .controllerEnable a => Adm.wf a
  | .propertySet a _ _ => Adm.wf a
  | .propertyGet a _ _ => Adm.wf a
  | .wakeFrame f => Frame.wf f
  | .tcpConnectionAttempt _ port p => decide (port < 65536) && macOk p.mac && decide (p.mss < 65536)
  | .roceConnectionRequest r => decide (r.udp < 65536) && decide (r.port < 65536) && macOk r.mac && decide (1024 ≤ r.mtu)
  | .connect a _ _ _ _ _ _ => Adm.wf a
  | .disconnect a => Adm.wf a
  | .authenticationSend a => Adm.wf a
  | .authenticationReceive a => Adm.wf a
  | .unsupportedOpcode a _ => Adm.wf a
  | .getLogPage a _ _ _ _ _ _ => Adm.wf a
  | .identify a _ _ _ _ => Adm.wf a
  | .abort a _ _ => Adm.wf a
  | .getFeatures a _ _ => Adm.wf a
  | .setPowerManagement a _ => Adm.wf a
  | .setNumberOfQueues a _ => Adm.wf a
  | .setAsyncEventConfiguration a _ => Adm.wf a
  | .setKeepAliveTimer a _ => Adm.wf a
  | .setStoreAdmissionTimeout a _ => Adm.wf a
  | .setFeaturesInvalid a _ _ => Adm.wf a
  | .asynchronousEventRequest a => Adm.wf a
  | .keepAlive a => Adm.wf a
  | .formatNvm a _ _ => Adm.wf a
  | .purgePassComplete ns => nsOk ns
  | .filterRegister a _ _ => Adm.wf a
  | .filterRelease a _ => Adm.wf a
  | .plannedTakeover a => Adm.wf a
  | .firmwareImageDownload a _ _ _ => Adm.wf a
  | .commitConfiguration a _ _ => Adm.wf a
  | .commitStage a _ _ => Adm.wf a
  | .commitStageActivate a _ _ => Adm.wf a
  | .commitActivateStaged a _ _ => Adm.wf a
  | .commitActivateRestart a _ _ => Adm.wf a
  | .flush q => Sqe.wf 0x00 q
  | .store q n _ => Sqe.wf 0x01 q && decide (n < 2 ^ 32)
  | .retrieve q => Sqe.wf 0x02 q
  | .list q => Sqe.wf 0x06 q
  | .delete q => Sqe.wf 0x10 q
  | .exist q => Sqe.wf 0x14 q
  | .longStore q n _ => Sqe.wf 0x81 q && decide (n < 2 ^ 32)
  | .longRetrieve q => Sqe.wf 0x82 q
  | .longDelete q => Sqe.wf 0x84 q
  | .longExist q => Sqe.wf 0x88 q
  | .filteredRetrieve q => Sqe.wf 0x86 q
  | .patternList q c => Sqe.wf 0x8A q && decide (c.length = 16)
  | .keyCarrier k => Sqe.wf 0x8D k.q
  | .durabilityQuery q => Sqe.wf 0x8E q
  | .shed q off len => Sqe.wf 0x90 q && decide (off < 2 ^ 32) && decide (len < 2 ^ 32)
  | .keywayPendingWaitEnd ns chunk key => nsOk ns && chunkOk chunk && keyOk key
  | .ledgerDeltaRunWrite ns => nsOk ns
  | .ledgerMerge ns => nsOk ns
  | .tombstoneRelease ns key => nsOk ns && keyOk key
  | .versionRecordLapse ns key _ => nsOk ns && keyOk key
  | .flashProgramComplete die _ _ _ => dieOk die
  | .flashEraseComplete die _ _ => dieOk die
  | .dieReadyTimeout die => dieOk die
  | .sweepVisit die _ _ _ _ => dieOk die
  | .rewrite die _ => dieOk die
  | .staticWearLevelling die => dieOk die
  | .shedRecord from_ ns key _ _ _ => slotOk from_ && nsOk ns && keyOk key
  | .powerMeasurement core _ _ _ => coreOk core
  | .gets r => r.accessOk
  | .getm r => r.accessOk
  | .upgrade r => r.accessOk
  | .putm c w => Coh.writeOk c w
  | .pute c => Coh.wf c
  | .puts c => Coh.wf c
  | .fwdgets c _ _ _ => Coh.wf c
  | .fwdgetm c _ _ _ => Coh.wf c
  | .inv c _ => Coh.wf c
  | .recall c _ _ => Coh.wf c
  | .crossedevict c => Coh.wf c
  | .data c _ _ _ => Coh.wf c
  | .invack c => Coh.wf c
  | .putack c => Coh.wf c
  | .coreLoadUncorrectable core site _ _ _ => coreOk core && Site.wf site
  | .instructionFetchUncorrectable cluster site _ => clusterOk cluster && Site.wf site
  | .dmaReadUncorrectable _ site _ => Site.wf site
  | .correctableRead site => Site.wf site
  | .narrowWrite core site => coreOk core && Site.wf site
  | .selfTestComplete site _ => Site.wf site
  | .selfTestDeadline site => Site.wf site
  | .retirementEntryExpiry site => Site.wf site
  | .lossTimeout slot => slotOk slot
  | .digestTimer slot => slotOk slot
  | .probe h _ => Hdr.wf h
  | .probeAck h _ => Hdr.wf h
  | .probeRequest h _ => Hdr.wf h
  | .viewDigest h _ => Hdr.wf h
  | .viewSync h _ => Hdr.wf h
  | .fragment h _ => Hdr.wf h
  | .fragmentAck h _ => Hdr.wf h
  | .d2DispatchTimeout _ chunk => chunkOk chunk
  | .fragmentResend _ chunk pos => chunkOk chunk && posOk pos
  | .commitRequest h _ => Hdr.wf h
  | .commitIntent h _ => Hdr.wf h
  | .intentAck h _ => Hdr.wf h
  | .commitConfirm h _ => Hdr.wf h
  | .commitNotice h _ => Hdr.wf h
  | .abortNotice h _ => Hdr.wf h
  | .statusQuery h _ => Hdr.wf h
  | .versionAbortTimer ns key _ => nsOk ns && keyOk key
  | .abortNoticeResend ns key _ => nsOk ns && keyOk key
  | .holderStatusQuery _ chunk => chunkOk chunk
  | .locate h _ => Hdr.wf h
  | .locateReply h _ _ _ => Hdr.wf h
  | .readRequest h _ => Hdr.wf h
  | .readData h _ => Hdr.wf h
  | .readRequestTimeout _ chunk pos => chunkOk chunk && posOk pos
  | .recordQuery h _ => Hdr.wf h
  | .recordReply h _ _ => Hdr.wf h
  | .floorNotice h bin _ => Hdr.wf h && binOk bin
  | .floorAck h bin _ => Hdr.wf h && binOk bin
  | .floorNoticeResend bin => binOk bin
  | .milmoDurabilityQuery h _ => Hdr.wf h
  | .durabilityReply h _ _ _ => Hdr.wf h
  | .orphanNotice h _ => Hdr.wf h
  | .handoverRecord h _ _ => Hdr.wf h
  | .handoverFinal bin => binOk bin
  | .holderReturn h _ _ => Hdr.wf h
  | .holderReturnTimeout ns key => nsOk ns && keyOk key
  | .repairOrder h _ pos => Hdr.wf h && posOk pos
  | .repairRetry ns key => nsOk ns && keyOk key
  | .rebalance slot => slotOk slot
  | .leaseRequest h _ => Hdr.wf h
  | .permit h _ => Hdr.wf h
  | .listingGatherRequest h _ => Hdr.wf h
  | .listingGatherReply h _ => Hdr.wf h
  | .listingGatherResend _ slot => slotOk slot
  | .milmoInvalidType h _ => Hdr.wf h
  | .updateOffer h _ => Hdr.wf h
  | .updatePull h _ => Hdr.wf h
  | .updateSegment h _ => Hdr.wf h
  | .updateStaged h _ => Hdr.wf h
  | .updateRefused h _ => Hdr.wf h
  | .updateConfirmed h _ => Hdr.wf h
  | .frameReceive f => Frame.wf f
  | .linkDown mac _ => macOk mac
  | .linkUp mac => macOk mac
  | .pfcFrameReceive mac _ => macOk mac
  | .pfcXoffRefresh mac prio _ => macOk mac && prioOk prio
  | .pfcPauseDeadline mac prio => macOk mac && prioOk prio
  | .receiveBufferStall mac => macOk mac
  | .txFrameAge mac _ => macOk mac
  | .counterBit31 mac _ => macOk mac
  | .arpRequest mac _ => macOk mac
  | .neighbourSolicitation mac _ => macOk mac
  | .echoRequest mac _ _ _ => macOk mac
  | .pauseFrame mac => macOk mac
  | .ptpSync mac _ _ _ => macOk mac
  | .yieldCriterion crit _ => critOk crit
  | .linkLaneFail lane => laneOk lane
  | .yield _ crit _ _ => critOk crit
  | .ptpAnnounce mac _ prio _ => macOk mac && prioOk prio
  | .tftpData _ _ len raw => decide (len ≤ raw.length)
  | .localMediaFailureReport slot _ pos => slotOk slot && posOk pos
  | .wakeStart | .warmStart | .powerGoodRise _ _ _ | .sequencingTimeout _ | .sequencingRetry | .powerGoodFall _
  | .fillDeadline | .bankCopyDeadline _ | .coreRelease _ | .unconfiguredRetry | .helloWaitTimeout
  | .keywayReloadDeadline | .lendDeadline _ | .servingDeadline | .vddKeepLoss | .shutdownDeadline | .pfailWakeHold
  | .tlsHandshake _ | .initializeConnection _ _ _ _ _ | .connectionLost _ | .bankEraseComplete | .bankEraseDeadline
  | .trialConfirm | .confirmationMonitor | .rollbackFuseTimer | .tftpWriteRequest _ _ _
  | .corniceAdmissionGrant | .admissionTimeout _ _ | .checkpointGranuleWrite _ | .deltaLogSegmentWrite _
  | .granuleRebuild _ | .wardScrubTick _ _ | .wardShadowRebuilt _ _ | .wardScrubPassDeadline _ | .wardGroupRelocation _
  | .rimeStringEnd _ | .rimeEngineStall _ | .programUnitTimeout _ | .flashReadComplete _ _ _ _ _ _ _
  | .readingLadderDeadline _ | .spillSetErase _ _ | .backgroundLevelRise _ _ _ | .backgroundDeadline _ _ _
  | .sweepPassEnd | .readCounterCopy | .garbageCollection | .powerFailDetected _ _ | .flushComplete _ _
  | .flushDeadline | .gaugePeriodTimer | .gaugeRetryTimer | .gaugeTestStart _ | .gaugeTestComplete _ _ _
  | .gaugeTestDeadline | .gaugeReading _ | .readOnlyExit | .admissionExcessDeadline | .capExceededDeadline
  | .thermalAction _ | .thermalTrip | .thermalRestart | .tokenRequest _ _ _ | .tokenGrant | .energyIntervalClose
  | .powerStateAdopt | .paceWindow _ | .paceDecision | .avsbusTransaction _ _ _ | .avsbusFailure | .avsbusRetry _ _ _
  | .paceDeficit | .refclockLoss _ | .commandRestartDeadline _ | .dmaChannelRestart _ | .bucketLeak _
  | .memoryScrub _ _ | .knownAnswerTest _ _ | .drbgReseed | .maskReseed | .entropyHealthFail _ _ | .keyEpochChange _
  | .probeTimer _ | .probeAckTimeout _ _ | .probeRequestTimeout _ | .viewSyncRetry | .placingReannounce
  | .storeLevelTimeout _ | .commitRequestResend _ | .permitTimer | .leaseExpiry _ | .calendarSlot _ _ | .offerTimer
  | .pullProgressTimeout | .chainGiveUp | .confirmedTimer | .counterSweep | .ptpSyncTimeout | .lldpTransmit
  | .announcementRepeat | .nrefclkLoss | .holdInRise | .holdCollisionTimeout | .keeperFeed | .beatEdge
  | .holdDriverTimer | .beatInEdge | .beatInSilent | .takeoverTrigger | .takeoverMonitor | .standbyRoleRetake
  | .yieldReturnTimeout | .keeperReleaseRestart | .twinPresentPoll _ | .linkRetrainTimeout | .linkRetrainRetry
  | .flitReceive _ _ _ _ _ | .replayRequest _ | .idleFlitTimer | .hingeStatusTimer | .healthReportTimer | .hello _ _
  | .joinRetry | .status _ _ | .healthReport _ _ | .journal _ _ _ | .corniceWrite _ _ _ | .corniceRelease _ _
  | .transport _ _ | .operation _ _ _ | .milmoState _ _ | .settings _ _ _ _ | .counters _ _ | .flushProgress _ _ _
  | .mirrorAck _ _ _ | .mirrorAckDeadline | .copyFirn _ _ _ _ _ | .copyCornice _ _ | .copyGranule _ _ _ _
  | .joinStage _ _ _ | .handoff _ _ | .hingeInvalidFrame _ | .ringWrite | .ringWriteComplete | .ringWriteDeadline
  | .summaryRecordTimer _ | .keepAliveTimeout _ | .hostToControllerData _ _ _ _ _ | .nvmeMiBasicManagement _ _
  | .nvmeMiCommand _ _ _ | .inputSupplyReturn | .holdInFall | .hingeTrainingComplete _ | .healthReportTimeout
  | .transportProgressTimer | .retransmissionTimeout _ | .thermalHandoverTimeout => true

end Sys2Proof
end

