-- ==== Sys2Proof/Certificates/Slice0/Obligations.lean ====
section
/-! DEFINITION. The statements for the provers. -/

open Sys2Proof Sys2Proof.Machine

/-- A step runs the command at the front of the queue. For every command and state, a step of the state with that command in front of its queue is exec of the command on the state with the queue's rest; on an empty queue a step answers the state that the passing of 10 ns makes (the model's own tick, log entry 1). -/
def Obligations.StepRunsFront : Prop :=
  (∀ (i : Instr) (rest : List Instr) (s : State), step { s with pending := i :: rest } = exec i { s with pending := rest }) ∧
  (∀ s : State, s.pending = [] → step s = .next (tick s))

/-- No command stops the block. Whatever the command and the state, exec answers a next state: no fault and no refusal. The spec gives every row of its table an effect, and a row whose condition does not hold leaves the device as it is (the model's reading of R12). -/
def Obligations.NoCommandStops : Prop :=
  ∀ (i : Instr) (s : State), ∃ t, exec i s = .next t

/-- The flash drivers are disabled at reset. Right after reset the device drives neither HOLD_OUT nor the flash drivers, and its stores are in canonical form (the release of both outputs before VDD_KEEP rises is the model's reset state). -/
def Obligations.DriversHeldAtReset : Prop :=
  DriversHeld State.reset ∧ State.reset.keeper.drivers = false ∧ State.reset.keeper.holdOut = false ∧ storesWf State.reset = true

/-- The flash drivers are enabled only while HOLD_OUT is driven and HOLD_IN is low. Every step keeps it: if the drivers of a state are enabled only under HOLD_OUT driven and HOLD_IN low, and a step answers a next state, the same holds there, whichever command ran or with none waiting (R401, R402, R403). -/
def Obligations.DriversHeldInvariant : Prop :=
  ∀ s t : State, DriversHeld s → step s = .next t → DriversHeld t

/-- Cold and wake starts begin the rail sequence. COLD_START, with the keeper off and a ROLE of 0 or 1, takes ROLE, TEST_EN and the DRAM size as given, counts a power cycle, asserts the enable of step 1 with HOLD_OUT, the drivers and their terminations off, and forgets the yields, the collisions and the state without a role; WAKE_START, in DORMANT with a wake match due and no power fail, asserts the enable of step 2 with step 1 good, ROLE, TEST_EN and HOLD_OUT as they stand, and counts a power cycle. Each counts an unsafe shutdown where the last run ended in one, and each leaves the recorder, the banks, the configuration, the flash and the clock as they are. -/
def Obligations.ColdAndWakeStarts : Prop :=
  (∀ (role dram : Nat) (te : Bool) (s : State), s.keeper.phase = .off → role ≤ 1 →
    ∃ t, exec (.coldStart role te dram) s = .next t ∧ t.keeper.phase = .sequencing ∧ t.keeper.role = role ∧ t.keeper.testEn = te ∧
      t.kw.dram = dram ∧ t.keeper.en = 1 ∧ t.keeper.pg = 0 ∧ t.keeper.kind = .cold ∧ t.keeper.start0 = s.now ∧ t.keeper.holdOut = false ∧
      t.keeper.drivers = false ∧ t.keeper.terms = false ∧ t.keeper.failures = 0 ∧ t.keeper.cause = none ∧
      t.start.powerCycles = s.start.powerCycles + 1 ∧ t.twin.noRole = false ∧ t.twin.yields = [] ∧ t.twin.collisions = [] ∧
      t.start.unsafeShutdowns = s.start.unsafeShutdowns + (if s.start.unsafeEnd then 1 else 0) ∧ t.start.unsafeEnd = false ∧
      t.mor = s.mor ∧ t.boot = s.boot ∧ t.cfg = s.cfg ∧ t.media = s.media ∧ t.now = s.now ∧ t.out = s.out) ∧
  (∀ s : State, s.keeper.phase = .dormant → s.keeper.wakeDue = true → s.keeper.pfail = false →
    ∃ t, exec .wakeStart s = .next t ∧ t.keeper.phase = .sequencing ∧ t.keeper.en = 2 ∧ t.keeper.pg = 1 ∧ t.keeper.kind = .wake ∧
      t.keeper.role = s.keeper.role ∧ t.keeper.testEn = s.keeper.testEn ∧ t.keeper.wakeDue = false ∧ t.keeper.holdOut = s.keeper.holdOut ∧
      t.start.powerCycles = s.start.powerCycles + 1 ∧
      t.start.unsafeShutdowns = s.start.unsafeShutdowns + (if s.start.unsafeEnd then 1 else 0) ∧ t.start.unsafeEnd = false ∧
      t.twin = s.twin ∧ t.mor = s.mor ∧ t.boot = s.boot ∧ t.cfg = s.cfg ∧ t.media = s.media ∧ t.now = s.now ∧ t.out = s.out)

/-- The keeper sequences the rails, and retries. A power-good of the step last enabled, below 5, asserts the next enable; that of step 5 begins the keeper phase with the fill; FREFCLK or MREFCLK absent at the power-good of step 2 fails that step, and at another it is noted as lost. A power-good missing for 20 ms fails its step: every enable drops and 0x6040 is recorded with the step and the attempt, for a clock with its number after them (that form is the model's, log entry 153). 1 s later the sequence begins again, and after three failures the keeper stays with SEQ_EN1 alone, or with nothing where step 1 itself failed. A power-good of steps 2 to 5 that falls records 0x6041, with no further effect before the cores run; while they run it makes criterion 2 true for step 3 and criterion 3 for the others, with both DDR5 channels as detail for step 4. -/
def Obligations.RailSequencing : Prop :=
  (∀ (n : Nat) (f m : Bool) (s : State), s.keeper.phase = .sequencing → n = s.keeper.pg + 1 → n = s.keeper.en → n < 5 →
      (n = 2 → f = true ∧ m = true) →
    exec (.powerGoodRise n f m) s = .next
      { s with
        pace := { s.pace with clocksLost := (clocksOut f m).foldl (fun l c => sIns c l) (if n = 2 then s.pace.clocksLost.filter (fun c => decide (c < 2)) else s.pace.clocksLost) }
        keeper := { s.keeper with pg := n, en := n + 1, seqAt := s.now } }) ∧
  (∀ (f m : Bool) (s : State), s.keeper.phase = .sequencing → s.keeper.pg = 1 → s.keeper.en = 2 → (f = false ∨ m = false) →
    ∃ t, exec (.powerGoodRise 2 f m) s = .next (record 0x6040 pathKeeper (le 1 2 ++ le 1 (s.keeper.failures + 1) ++
        ((if f then [] else le 1 2) ++ (if m then [] else le 1 3))) t) ∧ t.keeper.phase = .retry ∧ t.keeper.en = 0 ∧ t.keeper.pg = 0 ∧
      t.keeper.failures = s.keeper.failures + 1 ∧ t.keeper.failStep = 2 ∧ t.keeper.seqAt = s.now ∧ t.mor = s.mor ∧ t.twin = s.twin) ∧
  (∀ (f m : Bool) (s : State), s.keeper.phase = .sequencing → s.keeper.pg = 4 → s.keeper.en = 5 →
    ∃ t, exec (.powerGoodRise 5 f m) s = .next t ∧ t.keeper.phase = .keeper ∧ t.keeper.pg = 5 ∧ t.keeper.fillAt = some s.now ∧
      t.keeper.fillMissed = false ∧ t.keeper.holdOut = s.keeper.holdOut ∧ t.mor = s.mor) ∧
  (∀ (n : Nat) (s : State), s.keeper.phase = .sequencing → n = s.keeper.pg + 1 → n = s.keeper.en → s.keeper.seqAt + 20000000 ≤ s.now →
    exec (.sequencingTimeout n) s = .next (record 0x6040 pathKeeper (le 1 n ++ le 1 (s.keeper.failures + 1))
      { s with keeper := { s.keeper with phase := .retry, en := 0, pg := 0, failures := s.keeper.failures + 1, failStep := n, seqAt := s.now } })) ∧
  (∀ s : State, s.keeper.phase = .retry → s.keeper.seqAt + 1000000000 ≤ s.now →
    ∃ t, exec .sequencingRetry s = .next t ∧
      (s.keeper.failures < 3 → t.keeper.phase = .sequencing ∧ t.keeper.en = 1 ∧ t.keeper.pg = 0 ∧ t.keeper.seqAt = s.now) ∧
      (3 ≤ s.keeper.failures → t.keeper.phase = .failed ∧ t.keeper.en = if s.keeper.failStep = 1 then 0 else 1)) ∧
  (∀ (n : Nat) (s : State), 2 ≤ n → n ≤ 5 → n ≤ s.keeper.en → running s = false →
    exec (.powerGoodFall n) s = .next (record 0x6041 pathKeeper (le 1 n) s)) ∧
  (∀ (n : Nat) (s : State), 2 ≤ n → n ≤ 5 → n ≤ s.keeper.en → running s = true →
    exec (.powerGoodFall n) s = .next
      (criterionTrue (if n = 3 then 2 else 3) (if n = 4 then 3 else 0) (record 0x6041 pathKeeper (le 1 n) s)))

/-- A warm start, the keeper's monitors and the loss of VDD_KEEP. WARM_START, in a device that runs, has stopped or is in RECOVERY and does not flush, begins the keeper phase with the cause that was due: no serving, no service, no role, no commands held back, HOLD_OUT released, the release beat, the enables as they stand, the Keyway as it is. FILL_DEADLINE and BANK_COPY_DEADLINE record their fault and note it, and then leave the device as it is. VDD_KEEP_LOSS leaves the keeper off with every enable low, HOLD_OUT and the drivers off and no shutdown in progress; the causes latched for the next start, the Keyway and the flash stand. -/
def Obligations.WarmStartAndKeeper : Prop :=
  (∀ (k : WarmCause) (s : State), s.keeper.warmDue = some k →
      (running s = true ∨ s.keeper.phase = .stopped ∨ s.keeper.phase = .recovery) → s.power.flush = none →
    ∃ t, exec .warmStart s = .next t ∧ t.keeper.phase = .keeper ∧ t.keeper.kind = .warm ∧ t.keeper.cause = some k ∧
      t.keeper.warmDue = none ∧ t.keeper.beatOut = .release ∧ t.keeper.start0 = s.now ∧ t.keeper.holdOut = false ∧ t.keeper.en = s.keeper.en ∧
      t.start.serving = false ∧ t.start.service = false ∧ t.twin.roleState = .unassigned ∧ t.held = [] ∧ t.kw = s.kw) ∧
  (∀ (t0 : Nat) (s : State), s.keeper.fillAt = some t0 → s.keeper.phase = .keeper → s.keeper.fillMissed = false → t0 + 5000000000 ≤ s.now →
    exec .fillDeadline s = .next (record 0x9110 (pathMonitor 0) [] { s with keeper := { s.keeper with fillMissed := true } })) ∧
  (∀ s : State, s.keeper.fillMissed = true → exec .fillDeadline s = .next s) ∧
  (∀ (n x t0 : Nat) (s : State), s.boot.copying = some (x, t0, false) → s.keeper.phase = .keeper →
    t0 + (bankOf s.boot x).length * 500 + 2000000000 < s.now →
    exec (.bankCopyDeadline n) s = .next (record 0x9812 (pathMonitor 0) (le 4 n) { s with boot := { s.boot with copying := some (x, t0, true) } })) ∧
  (∀ (n x t0 : Nat) (s : State), s.boot.copying = some (x, t0, true) → exec (.bankCopyDeadline n) s = .next s) ∧
  (∀ s : State, s.keeper.phase ≠ .off →
    ∃ t, exec .vddKeepLoss s = .next t ∧ t.keeper.phase = .off ∧ t.keeper.porst = false ∧ t.keeper.holdOut = false ∧ t.keeper.drivers = false ∧
      t.keeper.en = 0 ∧ t.start.serving = false ∧ t.start.service = false ∧ t.start.shutdown = none ∧ t.keeper.latched = s.keeper.latched ∧
      t.kw = s.kw ∧ t.media = s.media)

/-- A wake frame in DORMANT signals the keeper, or is held while PFAIL_N is low. A frame that matches (R392) starts a wake at once with PFAIL_N high, and is held with PFAIL_N low; a held match starts the wake once PFAIL_N has been high for 1 s. -/
def Obligations.WakingFromDormant : Prop :=
  (∀ (f : Frame) (s : State), s.keeper.phase = .dormant → wakes f s = true → s.keeper.pfail = false →
    exec (.wakeFrame f) s = .next { s with keeper := { s.keeper with wakeDue := true, wakeAt := s.now, start0 := s.now } }) ∧
  (∀ (f : Frame) (s : State), s.keeper.phase = .dormant → wakes f s = true → s.keeper.pfail = true →
    exec (.wakeFrame f) s = .next { s with keeper := { s.keeper with wakeHeld := true, wakeAt := s.now } }) ∧
  (∀ s : State, s.keeper.phase = .dormant → s.keeper.wakeHeld = true → s.keeper.pfail = false → s.keeper.pfailAt + 1000000000 ≤ s.now →
    exec .pfailWakeHold s = .next { s with keeper := { s.keeper with wakeHeld := false, wakeDue := true, start0 := s.now } })

/-- Core release, RECOVERY and the wait for a twin. CORE_RELEASE of a device not in test mode ends the copies of its banks (finishCopy): with a bank to run the cores are released and the state is that of releaseRun after the first records of a fresh run; without one it is that of enterRecovery, which is the phase RECOVERY with the release beat, HOLD_OUT as it stands and a latched event 0x8217. Without a copy in progress a bank is to run exactly where one was chosen. UNCONFIGURED_RETRY of a device without a configuration, 60 s after its last try, tries both slots again (retrySlots). HELLO_WAIT_TIMEOUT, after 10 s of waiting with HOLD_IN low, starts a device with a complete journal as first of its pair, with reason 2 where no Hello came; a device without one records 0x4080 with reason 3, at first and then every 60 s, and goes on waiting. TWIN_PRESENT_POLL keeps what it read, and a change of it is an event of R400, whose code and severity are free (log entry 13). -/
def Obligations.CoreReleaseAndRole : Prop :=
  (∀ (env : ReleaseEnv) (s : State), s.keeper.phase = .keeper → s.keeper.testEn = false →
    exec (.coreRelease env) s = .next (if (finishCopy env s).2
      then releaseRun env (firstRecords (finishCopy env s).1.mor.carried (finishCopy env s).1.mor.phase env.katFails env.badEntries
        (freshRun env (finishCopy env s).1))
      else enterRecovery (finishCopy env s).1)) ∧
  (∀ (env : ReleaseEnv) (s : State), (freshRun env s).keeper.phase = .released ∧ (freshRun env s).keeper.holdOut = s.keeper.holdOut) ∧
  (∀ (env : ReleaseEnv) (s : State), s.boot.copying = none → finishCopy env s = (s, s.boot.runs.isSome)) ∧
  (∀ s : State, (enterRecovery s).keeper.phase = .recovery ∧ (enterRecovery s).keeper.beatOut = .release ∧
    (enterRecovery s).keeper.holdOut = s.keeper.holdOut ∧ (enterRecovery s).twin = s.twin ∧
    ∃ r : EvRec, r.code = 0x8217 ∧ r.carried = true ∧ (enterRecovery s).mor.carried = s.mor.carried ++ [r]) ∧
  (∀ s : State, running s = true → s.start.unconfigured = true → s.cfg = none → s.start.triedAt + 60000000000 ≤ s.now →
    exec .unconfiguredRetry s = .next (retrySlots s)) ∧
  (∀ (t0 : Nat) (s : State), s.start.waitSince = some t0 → running s = true → t0 + 10000000000 ≤ s.now → s.keeper.holdIn = false →
    s.twin.complete = true →
    exec .helloWaitTimeout s = .next (startProgress (startFirst (if s.twin.twinHello.isSome then none else some 2) s))) ∧
  (∀ (t0 : Nat) (s : State), s.start.waitSince = some t0 → running s = true → t0 + 10000000000 ≤ s.now → s.keeper.holdIn = false →
    s.twin.complete = false → (s.start.waitNoted = 0 ∨ s.start.waitNoted + 60000000000 ≤ s.now) →
    exec .helloWaitTimeout s = .next (record 0x4080 pathTwin (le 1 3) { s with start := { s.start with waitNoted := s.now } })) ∧
  (∀ (b : Bool) (s : State), running s = true →
    exec (.twinPresentPoll b) s = .next (if b = s.keeper.twinFitted then { s with keeper := { s.keeper with twinFitted := b } }
      else recordRule 400 (Config.eventSeverity 400).val pathKeeper { s with keeper := { s.keeper with twinFitted := b } }))

/-- The monitors of a start record their deadline faults. KEYWAY_RELOAD_DEADLINE, 8 s after the first image read of a first start in step 6, records 0x9363 and notes that it did; once noted it leaves the state as it is. SERVING_DEADLINE, at the bound of a device that does not serve, records 0x9020 with the step reached and ends its bound. LEND_DEADLINE, 40 ms after the borrower drove HOLD_OUT, releases HOLD_OUT and the drivers, tells the twin that the lend is over, beats normally and records 0x9022 with the number of channels trained. -/
def Obligations.StartMonitors : Prop :=
  (∀ (t0 : Nat) (s : State), s.start.reloadAt = some t0 → firstStarting s = true → s.start.step = 6 → s.start.reloadMissed = false →
    t0 + 8000000000 ≤ s.now →
    exec .keywayReloadDeadline s = .next (record 0x9363 (pathMonitor 0) [] { s with start := { s.start with reloadMissed := true } })) ∧
  (∀ s : State, s.start.reloadMissed = true → exec .keywayReloadDeadline s = .next s) ∧
  (∀ (t0 : Nat) (s : State), s.start.servingBy = some t0 → running s = true → s.start.serving = false → t0 ≤ s.now →
    exec .servingDeadline s = .next (record 0x9020 (pathMonitor 0) (le 1 s.start.step) { s with start := { s.start with servingBy := none } })) ∧
  (∀ (n : Nat) (s : State), running s = true → s.start.lend = 2 → s.start.lendAt + 40000000 ≤ s.now →
    ∃ t, exec (.lendDeadline n) s = .next (record 0x9022 (pathMonitor 0) (le 1 n) (returnLend t)) ∧
      t = { s with twin := { s.twin with writeTrained := List.range (min n 128) } }) ∧
  (∀ s : State, (returnLend s).keeper.holdOut = false ∧ (returnLend s).keeper.drivers = false ∧ (returnLend s).keeper.beatOut = .normal ∧
    returnLend s = (let t := sendFrame (.joinStage 0x11 0) (releaseHold { s with start := { s.start with lend := 0 } })
      { t with keeper := { t.keeper with beatOut := .normal } }))

/-- Shutdown notifications and the controller's properties. On a connected admin queue: CONTROLLER_SHUTDOWN at a service address completes with success and has that controller's shutdown in progress (endController). ORDERLY_SHUTDOWN and ABRUPT_SHUTDOWN at a management address complete with success, the notification kept in CC, and then notify the device (notifyShutdown): with no shutdown and no flush in progress it begins or, before the device can act on it, is held. CONTROLLER_ENABLE completes with success with CC.EN set (enabledAgain says what more it does). PROPERTY_SET of another property than CC completes with success and keeps the value; of CC without a shutdown notification it writes CC, and with EN it enables. PROPERTY_GET of CC answers CC. Each leaves its controller mirrored with its connection. SHUTDOWN_DEADLINE, 15 s after an orderly notification in steps 1 to 3, records 0x9021 with the step reached and goes on in step 4, the planned takeover and the closed door dropped. -/
def Obligations.ShutdownCommands : Prop :=
  (∀ (a : Adm) (s : State), admAccepts a s = true → atMgmt s a = false →
    exec (.controllerShutdown a) s = .next (mirrorConn a.conn (ctrlProgress (done a stOk (onCtrl a.conn (fun c => { withShn 1 c with shst := 1 })
      (takeAdmin a 0x7F 0 [0, offCc, 2 ^ 14] [] s)))))) ∧
  (∀ (a : Adm) (s : State), admAccepts a s = true → atMgmt s a = true →
    exec (.orderlyShutdown a) s = .next (notifyShutdown false (done a stOk (onCtrl a.conn (withShn 1) (takeAdmin a 0x7F 0 [0, offCc, 2 ^ 14] [] s)))) ∧
    exec (.abruptShutdown a) s = .next (notifyShutdown true (done a stOk (onCtrl a.conn (withShn 2) (takeAdmin a 0x7F 0 [0, offCc, 2 ^ 15] [] s))))) ∧
  (∀ (b : Bool) (s : State), s.start.shutdown = none → s.power.flush = none →
    notifyShutdown b s = if actsOnShutdown s then beginShutdown b s
      else { s with start := { s.start with shutdown := some ⟨b, s.now, 0, false, false, false, 0, []⟩ } }) ∧
  (∀ (x : Shutdown) (s : State), s.start.shutdown = some x → running s = true → x.abrupt = false → 1 ≤ x.step → x.step ≤ 3 → x.missed = false →
    x.at_ + 15000000000 ≤ s.now →
    exec .shutdownDeadline s = .next (shutdownProgress (onShutdown (fun y => { y with step := 4, missed := true, takeover := false })
      (record 0x9021 (pathMonitor 0) (le 1 x.step) { s with twin := { s.twin with planned := none, closedDoor := false } })))) ∧
  (∀ (a : Adm) (s : State), admAccepts a s = true →
    exec (.controllerEnable a) s = .next (mirrorConn a.conn (enabledAgain a.conn
      (done a stOk (onCtrl a.conn (fun c => { c with cc := c.cc / 2 % 2 ^ 13 * 2 + 1, shst := 0 }) (takeAdmin a 0x7F 0 [0, offCc, 1] [] s)))))) ∧
  (∀ (a : Adm) (off val : Nat) (s : State), admAccepts a s = true → off ≠ offCc →
    exec (.propertySet a off val) s = .next (mirrorConn a.conn (done a stOk (onCtrl a.conn (fun c => { c with props := aSet off val c.props })
      (takeAdmin a 0x7F 0 [0, off, val % 2 ^ 32, val / 2 ^ 32] [] s))))) ∧
  (∀ (a : Adm) (val : Nat) (s : State), admAccepts a s = true → shnOf val = 0 →
    exec (.propertySet a offCc val) s = .next (mirrorConn a.conn ((fun t => if val % 2 = 1 then enabledAgain a.conn t else t)
      (done a stOk (onCtrl a.conn (fun c => { c with cc := val }) (takeAdmin a 0x7F 0 [0, offCc, val % 2 ^ 32, val / 2 ^ 32] [] s)))))) ∧
  (∀ (a : Adm) (wide : Bool) (c : Ctrl) (s : State), admAccepts a s = true → ctrlOf (takeAdmin a 0x7F 4 [bit wide 0, offCc] [] s) a.conn = some c →
    exec (.propertyGet a offCc wide) s = .next (mirrorConn a.conn
      (complete a.conn a.cid 0 stOk (c.cc % 2 ^ 32) (if wide then c.cc / 2 ^ 32 else 0) [] (takeAdmin a 0x7F 4 [bit wide 0, offCc] [] s))))

/-- Connections are opened, initialised, refused and lost. A TCP attempt at the port a management port or a service MAC listens on opens a connection (openConn), of the discovery service at port 8009; a RoCE request at UDP port 4791 for the service port opens one with a path MTU of at most 4 096. In a shutdown that refuses connections, or at the limit of 16 384 TCP or 8 192 RoCE connections, the TCP attempt is reset and the RoCE request rejected; the management port has no such limit. TLS is not served: its connection is reset and dropped. The first unit of a TCP connection that asks nothing beyond Table 3.2 is answered with version 0, the digests asked, alignment 0 and 262 144 bytes, the digests and the host's alignment kept and the connection mirrored; with another option the connection is ended with a termination and dropped. A lost connection is taken down by loseConn. -/
def Obligations.ConnectionsOpenAndClose : Prop :=
  (∀ (v6 : Bool) (port mac mss : Nat) (s : State), mgmtUp s = true → (match netOf s with | some n => n.port | none => 4420) = port →
    exec (.tcpConnectionAttempt true port ⟨mac, v6, mss⟩) s =
      .next (if refusing s then emit (.connReset noConn) s else openConn false true false mac v6 mss s)) ∧
  (∀ (v6 : Bool) (port mac mss : Nat) (n : NetRec) (s : State), serves s = true → isUp s mac = true → netOf s = some n → n.tcp = true →
    (port = n.port ∨ port = 8009) →
    exec (.tcpConnectionAttempt false port ⟨mac, v6, mss⟩) s =
      .next (if refusing s ∨ 16384 ≤ (s.host.conns.filter (fun c => ! c.rdma && ! c.mgmt)).length then emit (.connReset noConn) s
        else openConn false false (decide (port = 8009)) mac v6 mss s)) ∧
  (∀ (v6 : Bool) (mac mtu : Nat) (n : NetRec) (s : State), serves s = true → isUp s mac = true → netOf s = some n → n.rdma = true →
    exec (.roceConnectionRequest ⟨v6, 4791, n.port, mac, mtu⟩) s =
      .next (if refusing s ∨ 8192 ≤ (s.host.conns.filter (·.rdma)).length then emit (.connReject false) s
        else openConn true false false mac v6 (min mtu 4096) s)) ∧
  (∀ (conn : Nat) (s : State), fresh s conn = true → exec (.tlsHandshake conn) s = .next (emit (.connReset conn) (dropConn conn s))) ∧
  (∀ (conn align : Nat) (hd dd : Bool) (s : State), fresh s conn = true →
    exec (.initializeConnection conn hd dd align false) s = .next (emit (.icResp conn 0 hd dd 0 262144)
      (mirrorConn conn (onConn conn (fun c => { c with inited := true, hdgst := hd, ddgst := dd, align := align }) s))) ∧
    exec (.initializeConnection conn hd dd align true) s = .next (dropConn conn (emit (.c2hTerm conn 5) s))) ∧
  (∀ (conn : Nat) (s : State), running s = true → (connBy s conn).isSome = true → exec (.connectionLost conn) s = .next (settle (loseConn conn s)))

/-- Connect and Disconnect, and commands that no queue honours. Connect on an initialised connection that belongs to no queue yet: for an admin queue it creates a controller with the least free number, 64 queues, an admission timeout of 30 000 ms and no outstanding event request, and completes with its number; for an I/O queue it joins the controller named and completes with its number; where adminConnectFail or ioConnectFail names a failure it completes with that status. Disconnect completes with success: of an I/O queue, its queue is ended and its connection dropped; of an admin queue, the I/O queues of its controller are ended and then its association. Authentication Send and Receive complete with Invalid Field, and an opcode that the queue does not honour with Invalid Opcode, a key carrier before it broken. -/
def Obligations.ConnectAndDisconnect : Prop :=
  (∀ (a : Adm) (nqn : String) (ok : Bool) (cntl qsize kato : Nat) (k : Conn) (st : Status) (s : State), connBy s a.conn = some k →
    takesFrames s = true → k.inited = true → k.cntl = 0 → (k.mgmt = true ∨ serves s = true) → adminConnectFail s k nqn ok cntl qsize kato = some st →
    exec (.connect a nqn ok cntl 0 qsize kato) s = .next (done a st s)) ∧
  (∀ (a : Adm) (nqn : String) (ok : Bool) (cntl qsize kato : Nat) (k : Conn) (s : State), connBy s a.conn = some k →
    takesFrames s = true → k.inited = true → k.cntl = 0 → (k.mgmt = true ∨ serves s = true) → adminConnectFail s k nqn ok cntl qsize kato = none →
    ∃ x : Ctrl, x.id = freeCtrl s k.mgmt ∧ x.mgmt = k.mgmt ∧ x.disc = k.disc ∧ x.nqn = nqn ∧ x.kato = kato ∧ x.seenAt = s.now ∧ x.queues = 64 ∧
      x.sat = 30000 ∧ x.aers = [] ∧ x.shst = 0 ∧ x.cc = 0 ∧ x.changed = changedNs s nqn ∧
      exec (.connect a nqn ok cntl 0 qsize kato) s = .next (complete a.conn a.cid 0 stOk x.id 0 []
        (mirrorConn a.conn (onConn a.conn (fun y => { y with cntl := x.id, qid := 0, qsize := qsize })
          { s with host := { s.host with ctrls := s.host.ctrls ++ [x] } })))) ∧
  (∀ (a : Adm) (nqn : String) (ok : Bool) (cntl qid qsize kato : Nat) (k : Conn) (s : State), connBy s a.conn = some k → takesFrames s = true →
    k.inited = true → k.cntl = 0 → (k.mgmt = true ∨ serves s = true) → qid ≠ 0 →
    exec (.connect a nqn ok cntl qid qsize kato) s = .next (match ioConnectFail s k nqn ok cntl qid qsize with
      | some st => done a st s
      | none => complete a.conn a.cid 0 stOk cntl 0 []
          (mirrorConn a.conn (onConn a.conn (fun y => { y with cntl := cntl, qid := qid, qsize := qsize }) s)))) ∧
  (∀ (a : Adm) (k : Conn) (s : State), connected s a = true → connBy s a.conn = some k → k.qid ≠ 0 →
    exec (.disconnect a) s = .next (dropConn a.conn (done a stOk (endQueue a.conn s)))) ∧
  (∀ (a : Adm) (k : Conn) (s : State), connected s a = true → connBy s a.conn = some k → k.qid = 0 →
    exec (.disconnect a) s = .next (endAssociation k.cntl (done a stOk
      (((s.host.conns.filter (fun x => x.cntl == k.cntl && x.qid != 0)).map (·.idx)).foldl (fun t q => endQueue q t) s)))) ∧
  (∀ (a : Adm) (s : State), connected s a = true →
    exec (.authenticationSend a) s = .next (done a stInvalidField s) ∧ exec (.authenticationReceive a) s = .next (done a stInvalidField s)) ∧
  (∀ (a : Adm) (op : Nat) (k : Conn) (s : State), connected s a = true → connBy s a.conn = some k → k.qid = 0 → adminOpcodes.contains op = false →
    exec (.unsupportedOpcode a op) s = .next (done a stInvalidOpcode (breakCarrier a.conn s))) ∧
  (∀ (a : Adm) (op : Nat) (k : Conn) (s : State), connected s a = true → connBy s a.conn = some k → k.qid ≠ 0 → ioOpcodes.contains op = false →
    op ≠ 0x7F → exec (.unsupportedOpcode a op) s = .next (done a stInvalidOpcode (breakCarrier a.conn s)))

/-- Reading logs, identify data and features, and aborting. Each of these commands on a connected admin queue of a controller is taken (takeAdmin), and leaves the controller mirrored with its connection. Get Log Page replies with the bytes that logPage gives, or completes with Invalid Field where it gives none; where the page is one whose event was reported (kindOfLog) and the retain bit is 0, that kind is unmasked and, for the Changed Namespace List, the list emptied. Identify replies with the data of identifyData or completes with the status it gives. Abort runs abortCommand. Get Features, with a select of 0 to 2, completes with the value that featureValue gives, and with Invalid Field where it gives none or the select is greater. An asynchronous event request completes with the first waiting event, which is then masked; with none waiting it is kept where fewer than four are outstanding, and is Invalid Field otherwise. Keep Alive completes with success. -/
def Obligations.AdminQueries : Prop :=
  (∀ (a : Adm) (lid off len lsp lsi : Nat) (rae : Bool) (c : Ctrl) (s t : State), admAccepts a s = true →
    t = takeAdmin a 0x02 0 [lid + 2 ^ 8 * lsp + bit rae 15 + 2 ^ 16 * ((len / 4 - 1) % 65536), (len / 4 - 1) / 65536 + 2 ^ 16 * lsi,
      off % 2 ^ 32, off / 2 ^ 32] [] s → ctrlOf t a.conn = some c →
    exec (.getLogPage a lid off len rae lsp lsi) s = .next (mirrorConn a.conn (match logPage t c lid off len with
      | none => done a stInvalidField t
      | some bs => reply a bs (match kindOfLog lid with
          | some k => if rae then t
              else onCtrl a.conn (fun c => { c with masked := c.masked.filter (· != k), changed := if lid = 0x04 then [] else c.changed }) t
          | none => t)))) ∧
  (∀ (a : Adm) (cns nsid cntid csi : Nat) (c : Ctrl) (s t : State), admAccepts a s = true →
    t = takeAdmin a 0x06 nsid [cns + 2 ^ 16 * cntid, 2 ^ 24 * csi] [] s → ctrlOf t a.conn = some c →
    exec (.identify a cns nsid cntid csi) s = .next (mirrorConn a.conn (match identifyData t c cns nsid csi with
      | .ok bs => reply a bs t
      | .error st => done a st t))) ∧
  (∀ (a : Adm) (sqid cid : Nat) (s : State), admAccepts a s = true →
    exec (.abort a sqid cid) s = .next (mirrorConn a.conn (settle (abortCommand a sqid cid (takeAdmin a 0x08 0 [sqid + 2 ^ 16 * cid] [] s))))) ∧
  (∀ (a : Adm) (fid sel : Nat) (c : Ctrl) (s t : State), admAccepts a s = true → t = takeAdmin a 0x0A 0 [fid + 2 ^ 8 * sel] [] s →
    ctrlOf t a.conn = some c →
    exec (.getFeatures a fid sel) s = .next (mirrorConn a.conn (match featureValue t c fid (sel == 1) with
      | some v => if 2 < sel then done a stInvalidField t else complete a.conn a.cid 0 stOk v 0 [] t
      | none => done a stInvalidField t))) ∧
  (∀ (a : Adm) (c : Ctrl) (s t : State), admAccepts a s = true → t = takeAdmin a 0x0C 0 [] [] s → ctrlOf t a.conn = some c → c.waiting = [] →
    exec (.asynchronousEventRequest a) s = .next (mirrorConn a.conn (if 4 ≤ c.aers.length then done a stInvalidField t
      else onCtrl a.conn (fun c => { c with aers := c.aers ++ [a.cid] }) t))) ∧
  (∀ (a : Adm) (c : Ctrl) (k dw : Nat) (ws : List (Nat × Nat)) (s t : State), admAccepts a s = true → t = takeAdmin a 0x0C 0 [] [] s →
    ctrlOf t a.conn = some c → c.waiting = (k, dw) :: ws →
    exec (.asynchronousEventRequest a) s = .next (mirrorConn a.conn (complete a.conn a.cid 0 stOk dw 0 []
      (onCtrl a.conn (fun c => { c with waiting := ws, masked := sIns k c.masked }) t)))) ∧
  (∀ (a : Adm) (s : State), admAccepts a s = true → exec (.keepAlive a) s = .next (mirrorConn a.conn (done a stOk (takeAdmin a 0x18 0 [] [] s))))

/-- Set Features takes the values its table allows. Each on a connected admin queue, its controller mirrored with its connection: a power state of 0 to 3 is asked for (askPower) and another is Invalid Field; the queues granted are the least of both numbers asked plus one, 64, and what is left of 4 096, and 0xFFFF asked is Invalid Field, while a grant of 0 completes with a free value (log entry 30); an event configuration is taken and its notices follow; a keep-alive timeout of 0 or 1 000 to 600 000 and a Store Admission Timeout of 100 to 600 000 are taken, and another value is Invalid Field; the save bit is Feature Not Saveable and a feature of no table Invalid Field (with both the save bit decides, the model's choice, log entry 137). -/
def Obligations.SettingFeatures : Prop :=
  (∀ (a : Adm) (d : Nat) (s t : State), admAccepts a s = true → t = takeAdmin a 0x09 0 [0x02, d] [] s →
    exec (.setPowerManagement a d) s = .next (mirrorConn a.conn (if 3 < d % 32 then done a stInvalidField t else askPower a (d % 32) t))) ∧
  (∀ (a : Adm) (d : Nat) (s t : State), admAccepts a s = true → t = takeAdmin a 0x09 0 [0x07, d] [] s →
    (d % 65536 = 65535 ∨ d / 65536 % 65536 = 65535) →
    exec (.setNumberOfQueues a d) s = .next (mirrorConn a.conn (done a stInvalidField t))) ∧
  (∀ (a : Adm) (sq cq n : Nat) (s t : State), admAccepts a s = true → t = takeAdmin a 0x09 0 [0x07, sq + 65536 * cq] [] s →
    sq < 65535 → cq < 65535 → n = min (min sq cq + 1) (min 64 (4096 - ioQueues t)) →
    exec (.setNumberOfQueues a (sq + 65536 * cq)) s = .next (mirrorConn a.conn
      ((fun u => if n = 0 then doneSettings a ((Config.freeValue u.free).toNat % 2 ^ 32) { u with free := u.free + 1 }
        else doneSettings a ((n - 1) + 65536 * (n - 1)) u) (onCtrl a.conn (fun c => { c with queues := n }) t)))) ∧
  (∀ (a : Adm) (d : Nat) (s t : State), admAccepts a s = true → t = takeAdmin a 0x09 0 [0x0B, d] [] s →
    exec (.setAsyncEventConfiguration a d) s =
      .next (mirrorConn a.conn (notice a.conn (doneSettings a 0 (onCtrl a.conn (fun c => { c with aec := d }) t))))) ∧
  (∀ (a : Adm) (d : Nat) (s t : State), admAccepts a s = true → t = takeAdmin a 0x09 0 [0x0F, d] [] s →
    exec (.setKeepAliveTimer a d) s = .next (mirrorConn a.conn (if d = 0 ∨ (1000 ≤ d ∧ d ≤ 600000)
      then doneSettings a 0 (onCtrl a.conn (fun c => { c with kato := d }) t) else done a stInvalidField t))) ∧
  (∀ (a : Adm) (d : Nat) (s t : State), admAccepts a s = true → t = takeAdmin a 0x09 0 [0xC0, d] [] s →
    exec (.setStoreAdmissionTimeout a d) s = .next (mirrorConn a.conn (if 100 ≤ d ∧ d ≤ 600000
      then doneSettings a 0 (onCtrl a.conn (fun c => { c with sat := d }) t) else done a stInvalidField t))) ∧
  (∀ (a : Adm) (fid : Nat) (s : State), admAccepts a s = true →
    exec (.setFeaturesInvalid a fid true) s = .next (mirrorConn a.conn (done a stNotSaveable (takeAdmin a 0x09 0 [fid + bit true 31] [] s)))) ∧
  (∀ (a : Adm) (fid : Nat) (s : State), admAccepts a s = true → featureIds.contains fid = false →
    exec (.setFeaturesInvalid a fid false) s = .next (mirrorConn a.conn (done a stInvalidField (takeAdmin a 0x09 0 [fid + bit false 31] [] s))))

/-- Purging a namespace, filters and the planned takeover. On a connected admin queue, the controller mirrored with its connection: Format NVM of a namespace the controller sees, with the secure-erase setting 2 and all else 0 in Dword 10 and a configuration that permits erasing, abandons the namespace's Stores, discards what it has not laid down, draws its salt, journals the purge as pending, records 0x7040 and keeps the command with the pass; another Dword 10, or a configuration that does not permit it, is Invalid Field; a namespace not seen is Invalid Namespace; without a salt it ends with Internal Error. PURGE_PASS_COMPLETE deletes every item of the namespace with its Keyway entry, its grains in the Cornice and on flash and its ledger, clears the pending purge, records 0x7041, begins the guard window of the configuration (24 h without one) and completes the kept command with success. FILTER_REGISTER of a descriptor whose lengths agree gives a source that is accepted (automatonOf) the least free handle, and completes with Pattern Rejected and the reason where it is not, or with reason 6 where 1 023 filters stand. FILTER_RELEASE frees a registered handle, and of another completes with Invalid Filter Handle. PLANNED_TAKEOVER with a healthy STANDBY closes the door, keeps the command and sends the Handoff frame with its sequence number; without one, or with a takeover already planned, it completes with Invalid Field. -/
def Obligations.PurgeAndFilters : Prop :=
  (∀ (a : Adm) (nsid : Nat) (c : Cfg) (k : Ctrl) (s t b : State), admAccepts a s = true → s.cfg = some c → c.sec.erase = true →
    t = takeAdmin a 0x80 nsid [1024] [] s → ctrlOf t a.conn = some k → (seenNs t k).contains nsid = true → (drawSalt nsid t).isSome = true →
    b = discardUnlaid nsid (abandonStores nsid t) →
    exec (.formatNvm a nsid 1024) s = .next (mirrorConn a.conn (match drawSalt nsid b with
      | none => done a stInternal t
      | some d => settle (record 0x7040 (pathNs nsid) (le 2 nsid) ((fun e : State =>
          { e with kw := { e.kw with purging := (e.kw.purging.filter (fun p => p.1 != nsid)) ++ [(nsid, a.conn, a.cid)] } })
          (journal [.purge nsid true] d)))))) ∧
  (∀ (a : Adm) (nsid : Nat) (c : Cfg) (k : Ctrl) (s t : State), admAccepts a s = true → s.cfg = some c → c.sec.erase = true →
    t = takeAdmin a 0x80 nsid [1024] [] s → ctrlOf t a.conn = some k → (seenNs t k).contains nsid = true → drawSalt nsid t = none →
    exec (.formatNvm a nsid 1024) s = .next (mirrorConn a.conn (done a stInternal t))) ∧
  (∀ (a : Adm) (nsid dw : Nat) (s : State), admAccepts a s = true → (dw ≠ 1024 ∨ (match s.cfg with | some c => c.sec.erase | none => false) = false) →
    exec (.formatNvm a nsid dw) s = .next (mirrorConn a.conn (done a stInvalidField (takeAdmin a 0x80 nsid [dw] [] s)))) ∧
  (∀ (a : Adm) (nsid : Nat) (c : Cfg) (k : Ctrl) (s t : State), admAccepts a s = true → s.cfg = some c → c.sec.erase = true →
    t = takeAdmin a 0x80 nsid [1024] [] s → ctrlOf t a.conn = some k → (seenNs t k).contains nsid = false →
    exec (.formatNvm a nsid 1024) s = .next (mirrorConn a.conn (done a stInvalidNs t))) ∧
  (∀ (ns conn cid : Nat) (is : List Item) (s a t : State), s.kw.purging.find? (fun p => p.1 == ns) = some (ns, conn, cid) →
    running s = true → is = s.kw.items.filter (fun i => i.ns == ns) →
    a = deadGrains (is.flatMap (·.flash)) (corniceFree (is.flatMap (·.grains)) s) →
    t = deadMeta (runOf ns)
      (journal (kwRecs a 7 (is.flatMap (clearSlot (kwSecret s) s.kw)) ++
        is.map (fun i => .itemDel i.ns i.chunk i.key i.storeId i.pos) ++ [.ledgerPurge ns, .purge ns false]) a) →
    exec (.purgePassComplete ns) s = .next (settle (complete conn cid ns stOk 0 0 [] (record 0x7041 (pathNs ns) (le 2 ns)
      { t with sec := { t.sec with windows := aSet ns (t.now + (match a.cfg with | some c => c.sec.windowH | none => 24) * 3600 * 1000000000) t.sec.windows } })))) ∧
  (∀ (a : Adm) (image : Bool) (body bytes : List Byte) (s t : State), admAccepts a s = true → body.length < 2 ^ 32 →
    bytes = (if image then 1 else 0) :: List.replicate 7 0 ++ le 4 body.length ++ List.replicate 4 0 ++ body →
    t = takeAdmin a 0xC1 0 [16 + body.length] bytes s →
    exec (.filterRegister a (16 + body.length) bytes) s = .next (mirrorConn a.conn (match automatonOf image body with
      | .error r => complete a.conn a.cid 0 stPatternRejected r 0 [] t
      | .ok x => if 1023 ≤ t.host.filters.length then complete a.conn a.cid 0 stPatternRejected 6 0 [] t
          else doneSettings a (leastFree (t.host.filters.map (·.handle)) 1 (t.host.filters.length + 1))
            { t with host := { t.host with filters := t.host.filters ++ [⟨leastFree (t.host.filters.map (·.handle)) 1 (t.host.filters.length + 1), x⟩] } }))) ∧
  (∀ (a : Adm) (h : Nat) (s t : State), admAccepts a s = true → t = takeAdmin a 0xC4 0 [h] [] s →
    exec (.filterRelease a h) s = .next (mirrorConn a.conn (if t.host.filters.any (fun f => f.handle == h)
      then doneSettings a 0 { t with host := { t.host with filters := t.host.filters.filter (fun f => f.handle != h) } }
      else done a stBadHandle t))) ∧
  (∀ (a : Adm) (s t : State), admAccepts a s = true → t = takeAdmin a 0xC8 0 [] [] s →
    exec (.plannedTakeover a) s = .next (mirrorConn a.conn (if hasStandby t ∧ t.twin.planned.isNone
      then sendFrame (.handoff t.twin.txSeq) { t with twin := { t.twin with closedDoor := true, planned := some (t.twin.txSeq, a.conn, a.cid) } }
      else done a stInvalidField t)))

/-- Firmware Image Download and Firmware Commit. On a connected admin queue, the controller mirrored with its connection. FIRMWARE_IMAGE_DOWNLOAD at a service address, or not in multiples of 4 096 bytes, is Invalid Field; otherwise at offset 0 its bytes are taken into a fresh file, at the next offset of a download in progress into that one (takeBytes); a file already refused completes with its reason again, and another offset, or a greater one with no file begun, refuses with reason 4. takeBytes refuses with the reason of arrivalReason where that names one, and else, unless a configuration image passes 8 MiB, keeps the bytes and completes with success. The five commits are firmwareCommit with their action: at a service address that is Invalid Field; with a configuration image incoming, not refused, and action 0 or 1 it is commitImage; with none, with no slot or that of the bank not running, and chain activation only with Forward, it is commitIncoming for actions 0 and 1, commitStaged for 2 and commitRestart for 3. -/
def Obligations.DownloadsAndCommits : Prop :=
  (∀ (a : Adm) (numd off : Nat) (data bs : List Byte) (s t : State), admAccepts a s = true → t = takeAdmin a 0x11 0 [numd, off] [] s →
    bs = padTo (4 * (numd + 1)) (data.take (4 * (numd + 1))) →
    exec (.firmwareImageDownload a numd off data) s = .next (mirrorConn a.conn (
      if atMgmt t a = false ∨ 4 * (numd + 1) % 4096 ≠ 0 ∨ 4 * off % 4096 ≠ 0 then done a stInvalidField t
      else if off = 0 then takeBytes a bs (freshIncoming a t) t
      else match t.boot.incoming with
        | some i => match i.refused with
          | some r => refuseAdm a r t
          | none => if i.source = 0 ∧ 4 * off = i.bytes.length then takeBytes a bs i t else refuseIncoming a 4 i t
        | none => refuseIncoming a 4 (freshIncoming a t) t))) ∧
  (∀ (a : Adm) (data : List Byte) (i : Incoming) (t : State),
    (isCfg (i.bytes ++ data) = true → (i.bytes ++ data).length ≤ 8388608) → arrivalReason t i.bytes (i.bytes ++ data) = none →
    takeBytes a data i t = done a stOk { t with boot := { t.boot with incoming := some { i with bytes := i.bytes ++ data, at_ := t.now } } }) ∧
  (∀ (a : Adm) (data : List Byte) (i : Incoming) (r : Nat) (t : State),
    (isCfg (i.bytes ++ data) = true → (i.bytes ++ data).length ≤ 8388608) → arrivalReason t i.bytes (i.bytes ++ data) = some r →
    takeBytes a data i t = refuseIncoming a r { i with bytes := i.bytes ++ data, at_ := t.now } t) ∧
  (∀ (a : Adm) (action slot opts : Nat) (s : State), admAccepts a s = true →
    exec (.commitConfiguration a action slot) s = .next (mirrorConn a.conn (firmwareCommit a action slot 0 (takeAdmin a 0x10 0 [slot + 8 * action] [] s))) ∧
    exec (.commitStage a slot opts) s = .next (mirrorConn a.conn (firmwareCommit a 0 slot opts (takeAdmin a 0x10 0 [slot] [] s))) ∧
    exec (.commitStageActivate a slot opts) s = .next (mirrorConn a.conn (firmwareCommit a 1 slot opts (takeAdmin a 0x10 0 [slot + 8] [] s))) ∧
    exec (.commitActivateStaged a slot opts) s = .next (mirrorConn a.conn (firmwareCommit a 2 slot opts (takeAdmin a 0x10 0 [slot + 16] [] s))) ∧
    exec (.commitActivateRestart a slot opts) s = .next (mirrorConn a.conn (firmwareCommit a 3 slot opts (takeAdmin a 0x10 0 [slot + 24] [] s)))) ∧
  (∀ (a : Adm) (action slot opts : Nat) (t : State), atMgmt t a = false → firmwareCommit a action slot opts t = done a stInvalidField t) ∧
  (∀ (a : Adm) (action slot opts : Nat) (i : Incoming) (t : State), atMgmt t a = true → t.boot.incoming = some i → isCfg i.bytes = true →
    i.refused = none → action ≤ 1 →
    firmwareCommit a action slot opts t = commitImage a ⟨i.bytes.take (Image.mk i.bytes).length⟩ (wholeFile i.bytes) t) ∧
  (∀ (a : Adm) (slot opts : Nat) (t : State), atMgmt t a = true → (∀ i, t.boot.incoming = some i → isCfg i.bytes = false) →
    Machine.slotOk t slot = true → (opts.testBit 1 = true → opts.testBit 0 = true) →
    firmwareCommit a 0 slot opts t = commitIncoming a opts false t ∧ firmwareCommit a 1 slot opts t = commitIncoming a opts true t ∧
    firmwareCommit a 2 slot opts t = commitStaged a t ∧ firmwareCommit a 3 slot opts t = commitRestart a opts t) ∧
  (∀ (t : State) (slot : Nat), Machine.slotOk t slot = true ↔ slot = 0 ∨ slot = 2 - t.boot.bank)

/-- Bank erases, confirmation, the rollback fuse and RECOVERY by TFTP. BANK_ERASE_COMPLETE leaves the bank EMPTY, or, with activation asked and a package staged, marks it (markPending) and goes on with a restart that waits; BANK_ERASE_DEADLINE past 600 s records 0x9811 and notes it, and once noted leaves the state as it is. TRIAL_CONFIRM with no condition unmet marks the bank GOOD and active, clears the failed starts, releases the staged package to be spread, writes the boot pointer record and records 0x8215. CONFIRMATION_MONITOR at 120 s without confirmation records 0x9810 with the condition unmet, releases hold where it is driven, makes the warm start due and notes a TRIAL as reverted. ROLLBACK_FUSE_TIMER after 24 h clean raises the fuse to the running package's security version and records 0x8219. In RECOVERY a TFTP read or a transfer that is not octet gets error 4, a second transfer error 0, a first one is acknowledged; a block in order, of 512 bytes at most by its datagram's length, is refused with the reason of a header check that fails as the header block completes; else a full one is acknowledged, and a shorter one ends the transfer: refused with 1, 4 or 12 for a header block, a file or a digest that is not right, or acknowledged and written (tftpWrite). -/
def Obligations.BanksAndConfirmation : Prop :=
  (∀ (x t : Nat) (act n : Bool) (s : State), s.boot.erase = some (x, t, act, n) → running s = true → t ≠ 0 →
    exec .bankEraseComplete s = .next (if act = true ∧ s.boot.staged.isSome = true
      then restartProgress (markPending x { s with boot := { s.boot with erase := none } })
      else { s with boot := writeBp (putBank x Bank.empty { s.boot with erase := none }) })) ∧
  (∀ (x t : Nat) (act : Bool) (s : State), s.boot.erase = some (x, t, act, false) → running s = true → t ≠ 0 → t + 600000000000 < s.now →
    exec .bankEraseDeadline s = .next (record 0x9811 (pathMonitor 0) (le 1 x) { s with boot := { s.boot with erase := some (x, t, act, true) } })) ∧
  (∀ (x t : Nat) (act : Bool) (s : State), s.boot.erase = some (x, t, act, true) → exec .bankEraseDeadline s = .next s) ∧
  (∀ s : State, running s = true → s.boot.trial = true → s.boot.confirmed = false → unmet s = none →
    exec .trialConfirm s = .next (record 0x8215 pathPkg (le 1 s.boot.bank ++ le 4 s.boot.fwVer ++ le 8 (s.now - s.keeper.releasedAt))
      { s with boot := writeBp { bankState s.boot.bank 3 s.boot with active := s.boot.bank, failed := 0, trial := false, confirmed := true, confirmedAt := s.now, cleanSince := s.now, spread := s.boot.staged, staged := none } })) ∧
  (∀ (c : Nat) (s a b : State), running s = true → s.boot.confirmed = false → s.keeper.warmDue = none → s.keeper.releasedAt + 120000000000 ≤ s.now →
    c = (unmet s).getD 0 → a = record 0x9810 (pathMonitor 0) (le 1 c) s → b = (if a.keeper.holdOut then releaseHold a else a) →
    exec .confirmationMonitor s = .next (dueWarm .confirmation
      (if b.boot.trial then { b with boot := { b.boot with reverted := some (b.boot.bank, (bankOf b.boot b.boot.bank).pkgId, c) } } else b))) ∧
  (∀ (p : Package) (s : State), s.boot.runs = some p → running s = true → s.boot.confirmed = true → s.boot.cleanSince ≠ 0 →
    s.boot.cleanSince + 86400000000000 ≤ s.now → s.boot.fuseF < p.secVer →
    exec .rollbackFuseTimer s = .next (record 0x8219 pathPkg (le 1 s.boot.fuseF ++ le 1 p.secVer) { s with boot := { s.boot with fuseF := p.secVer } })) ∧
  (∀ (peer : Nat) (rd oc : Bool) (s : State), s.keeper.phase = .recovery →
    exec (.tftpWriteRequest peer rd oc) s = .next (if rd = true ∨ oc = false then tftpError peer 4 0 s
      else if s.boot.tftp.isSome then tftpError peer 0 0 s
      else tftpAck peer 0 { s with boot := { s.boot with tftp := some ⟨peer, 1, []⟩ } })) ∧
  (∀ (peer b len r : Nat) (got raw data : List Byte) (s : State), s.keeper.phase = .recovery → s.boot.tftp = some ⟨peer, b, got⟩ → len ≤ raw.length → len ≤ 512 →
    data = raw.take len →
    blockDone (got ++ data) = true → blockDone got = false → headerReason s.boot s.serial none ⟨got ++ data⟩ = some r →
    exec (.tftpData peer b len raw) s = .next (tftpRefuse peer r (got ++ data) s)) ∧
  (∀ (peer b len : Nat) (got raw data : List Byte) (s : State), s.keeper.phase = .recovery → s.boot.tftp = some ⟨peer, b, got⟩ → len ≤ raw.length → len ≤ 512 →
    data = raw.take len →
    (blockDone (got ++ data) = true → blockDone got = false → headerReason s.boot s.serial none ⟨got ++ data⟩ = none) →
    exec (.tftpData peer b len raw) s = .next (
      if data.length = 512 then tftpAck peer b { s with boot := { s.boot with tftp := some ⟨peer, (b + 1) % 65536, got ++ data⟩ } }
      else if blockDone (got ++ data) = false then tftpRefuse peer 1 (got ++ data) s
      else if wholeFile (got ++ data) = false then tftpRefuse peer 4 (got ++ data) s
      else if digestsOk (packageOf (got ++ data)) = false then tftpRefuse peer 12 (got ++ data) s
      else tftpWrite (packageOf (got ++ data)) (tftpAck peer b s)))

/-- The changing commands, FLUSH and KEY_CARRIER begin. An I/O command begins where its capsule is read, the device is not in shutdown, its search does not wait, no failing row applies to it, and its namespace has its salt or can draw it; its entry is the one given, with the operands that stand for Dwords 10 and 12 in their places. Then STORE and LONG_STORE begin a Store of the value of the length in Dword 10, DELETE and LONG_DELETE a tombstone, with the conditions their options give (DELETE none); SHED begins a read of kind 7 with the offset of Dword 10, the length of Dword 12 and, with option bit 2, its expected version; FLUSH completes with success; and KEY_CARRIER keeps the key of its block with its connection, its command identifier and whether the block and the key's size are right. -/
def Obligations.ChangingCommandsBegin : Prop :=
  (∀ (q : Sqe) (c : Cmd) (s u : State), begins ruleFlush q false false s = some (c, u) →
    exec (.flush q) s = .next (settle (answer c.q stOk 0 0 u))) ∧
  (∀ (q : Sqe) (n : Nat) (data : List Byte) (c : Cmd) (s u : State), begins (ruleStore data) (q.withDw 10 n) false false s = some (c, u) →
    exec (.store q n data) s = .next (settle (startStore c false (optsOf c.q) c.q.dw10 data u))) ∧
  (∀ (q : Sqe) (c : Cmd) (s u : State), begins ruleDelete q false false s = some (c, u) →
    exec (.delete q) s = .next (settle (startStore c true { ifExists := false, ifAbsent := false, ifVersion := false, expected := 0 } 0 [] u))) ∧
  (∀ (q : Sqe) (n : Nat) (data : List Byte) (c : Cmd) (s u : State), begins (ruleLongStore data) (q.withDw 10 n) true false s = some (c, u) →
    exec (.longStore q n data) s = .next (settle (startStore c false (optsOf c.q) c.q.dw10 data u))) ∧
  (∀ (q : Sqe) (c : Cmd) (s u : State), begins ruleLongDelete q true false s = some (c, u) →
    exec (.longDelete q) s = .next (settle (startStore c true (optsOf c.q) 0 [] u))) ∧
  (∀ (q : Sqe) (block : List Byte) (c : Cmd) (s u : State), begins (ruleKeyCarrier block) q false false s = some (c, u) →
    exec (.keyCarrier ⟨q, block⟩) s = .next (settle (onConn c.q.conn (fun x => { x with carrier := some (c.q.cid, c.q.nsid, (blockKey block).1,
      (blockKey block).2 && keySizeOk u c.q.nsid (blockKey block).1) }) u))) ∧
  (∀ (q : Sqe) (off len : Nat) (c : Cmd) (s u : State), begins ruleShed ((q.withDw 10 off).withDw 12 len) true false s = some (c, u) →
    exec (.shed q off len) s = .next (settle (startRead_ c 7 c.q.dw10 c.q.dw12 0 (if c.q.opts.testBit 2 then c.q.shedVersion else 0) u)))

/-- The reading and listing commands begin. Where it begins, each reading command starts its read of the key with the offset, the length and the buffer its entry gives: RETRIEVE the whole value, LONG_RETRIEVE and FILTERED_RETRIEVE the range of Dwords 12 and 13, EXIST, LONG_EXIST and DURABILITY_QUERY none; LIST starts a listing at its key, and PATTERN_LIST one at its cursor, which stands in its entry's key field, with the source of its filter. -/
def Obligations.ReadingCommandsBegin : Prop :=
  (∀ (q : Sqe) (c : Cmd) (s u : State), begins ruleRetrieve q false true s = some (c, u) →
    exec (.retrieve q) s = .next (settle (startRead_ c 0 0 0 c.q.dw10 0 u))) ∧
  (∀ (q : Sqe) (c : Cmd) (s u : State), begins ruleList q false false s = some (c, u) →
    exec (.list q) s = .next (settle (startList c false [] zeroCursor c.key u))) ∧
  (∀ (q : Sqe) (c : Cmd) (s u : State), begins ruleExist q false true s = some (c, u) →
    exec (.exist q) s = .next (settle (startRead_ c 1 0 0 0 0 u))) ∧
  (∀ (q : Sqe) (c : Cmd) (s u : State), begins ruleLongRetrieve q true true s = some (c, u) →
    exec (.longRetrieve q) s = .next (settle (startRead_ c 2 c.q.dw12 c.q.dw13 c.q.dw10 0 u))) ∧
  (∀ (q : Sqe) (c : Cmd) (s u : State), begins ruleLongExist q true true s = some (c, u) →
    exec (.longExist q) s = .next (settle (startRead_ c 3 0 0 0 0 u))) ∧
  (∀ (q : Sqe) (c : Cmd) (s u : State), begins ruleFilteredRetrieve q true true s = some (c, u) →
    exec (.filteredRetrieve q) s = .next (settle (startRead_ c 4 c.q.dw12 c.q.dw13 c.q.dw10 0 u))) ∧
  (∀ (q : Sqe) (cursor : List Byte) (c : Cmd) (s u : State), begins rulePatternList (q.withKeyField cursor) false false s = some (c, u) →
    exec (.patternList q cursor) s = .next (settle (startList c true (match c.filter with | some a => a.source | none => []) c.q.keyField [] u))) ∧
  (∀ (q : Sqe) (c : Cmd) (s u : State), begins ruleDurabilityQuery q true true s = some (c, u) →
    exec (.durabilityQuery q) s = .next (settle (startRead_ c 5 0 0 32 c.q.version u)))

/-- What ends or delays an I/O command before it begins. Of the fifteen I/O commands (`ioRule`): one to which a row of Table 3.7 applies completes with the status of the earliest such row and that row's dwords, and is counted in the host's statistics as a command of its class; one whose search waits is kept, as its entry, its key and its filter, after those that wait already; one whose namespace's salt cannot be drawn completes with Internal Error; and one that reaches a device in shutdown completes with Namespace Not Ready. -/
def Obligations.FailingCommandsAnswer : Prop :=
  (∀ (i : Instr) (r : CmdRule) (q : Sqe) (second compact : Bool) (c : Cmd) (st : Status) (s u : State),
    ioRule i = some (r, q, second, compact) → failsAt r q second compact s = some (c, u, st) →
    exec i s = .next (settle (countEnded r.opc (answer c.q st (failDwords c.q c.key st u).1 (failDwords c.q c.key st u).2 u)))) ∧
  (∀ (i : Instr) (r : CmdRule) (q : Sqe) (second compact : Bool) (c : Cmd) (s u : State),
    ioRule i = some (r, q, second, compact) → searchWaits r q second compact s = some (c, u) →
    exec i s = .next (settle { u with ward := { u.ward with waits := u.ward.waits ++ [{ opc := r.opc, q := c.q, key := c.key, filter := c.filter }] } })) ∧
  (∀ (i : Instr) (r : CmdRule) (q : Sqe) (second compact : Bool) (c : Cmd) (s u : State),
    ioRule i = some (r, q, second, compact) → taken r q second compact s = some (c, u) → firstFail (r.fails c u) = none → withSalt c.q.nsid u = none →
    exec i s = .next (settle (answer c.q stInternal 0 0 u))) ∧
  (∀ (i : Instr) (r : CmdRule) (q : Sqe) (second compact : Bool) (s : State),
    ioRule i = some (r, q, second, compact) → ioAccepts q s = true → inShutdown s = true →
    exec i s = .next (settle (answer q stNotReady 0 0 s)))

/-- Cornice admission, payload, and the end of versions. On a serving device, CORNICE_ADMISSION_GRANT grants the waiting Stores in rounds. A Store that still wants Cornice space when its timeout has passed ends at ADMISSION_TIMEOUT with Admission Timeout, and the slots it was sent to are told to abort it. HOST_TO_CONTROLLER_DATA at the offset reached, of 1 to 262 144 bytes within the granted chunks, is taken, and with a digest error it aborts the Store, which ends with Data Transfer Error. At KEYWAY_PENDING_WAIT_END a waiting Store that may proceed leaves the wait list and its fragment is handled. A tombstone that may be released raises the floor of its bin, and so does a lapsed version that is its record's only one; a lapsed version beside others only leaves the record. SHED_RECORD applies its record. -/
def Obligations.AdmissionAndRecords : Prop :=
  (∀ s : State, serves s = true → exec .corniceAdmissionGrant s = .next (settle (grantWaiting (grantRounds s) s))) ∧
  (∀ (conn cid : Nat) (e : EStore) (s : State), takesFrames s = true → holdsPair s = true → storeOf s conn cid = some e → wantsSpace e = true →
    e.at_ + 1000000 * e.timeout ≤ s.now →
    exec (.admissionTimeout conn cid) s = .next (settle (failStore e stAdmissionTimeout 0 (abortAt e (sentTo e) e.version 0xFFFF s)))) ∧
  (∀ (conn cid : Nat) (bytes : List Byte) (e : EStore) (s : State), serves s = true → storeOf s conn cid = some e → bytes ≠ [] →
    bytes.length ≤ 262144 → e.got + bytes.length ≤ sumL (e.chunks.map (·.len)) →
    exec (.hostToControllerData conn cid e.got bytes true) s = .next (settle (takePayload e bytes s)) ∧
    exec (.hostToControllerData conn cid e.got bytes false) s =
      .next (settle (failStore e stTransferError 0 (abortAt e (sentTo e) e.version 0xFFFF s)))) ∧
  (∀ (ns chunk : Nat) (key : Key) (w : WaitStore) (s : State), mayProceed s ns chunk key = some w → receives s = true →
    exec (.keywayPendingWaitEnd ns chunk key) s =
      .next (settle (onFragment w.from_ w.frag { s with kw := { s.kw with waits := s.kw.waits.filter (fun x => x != w) } }))) ∧
  (∀ (ns : Nat) (key : Key) (r : CoRec) (s : State), running s = true → holdsPair s = true → raising s ns key = false → recOf s ns key = some r →
    tombReleasable s r = true → exec (.tombstoneRelease ns key) s = .next (settle (raiseFloor r s))) ∧
  (∀ (ns : Nat) (key : Key) (version : Nat) (r : CoRec) (v : CoVer) (s : State), running s = true → holdsPair s = true → raising s ns key = false →
    recOf s ns key = some r → r.vers.find? (fun v => v.version == version) = some v → lapsed s v = true →
    exec (.versionRecordLapse ns key version) s = .next (if (r.vers.filter (fun x => x.version != version)).isEmpty then settle (raiseFloor r s)
      else setRec { r with vers := r.vers.filter (fun x => x.version != version) } s)) ∧
  (∀ (from_ ns : Nat) (key : Key) (version off len : Nat) (s : State), running s = true → holdsPair s = true →
    exec (.shedRecord from_ ns key version off len) s = .next (settle (onShedRecord from_ ns key version off len s)))

/-- The checkpoint, the delta log and the ledger runs. Where its level is granted, CHECKPOINT_GRANULE_WRITE writes the image of the next granule that is not incomplete, and with none left the generation ends. DELTA_LOG_SEGMENT_WRITE takes the oldest 64 MiB of Keyway records to a metadata superblock as one segment with the first sequence and the greatest, after which they are no longer in Firn and the covered segments are released; without room they stay, and with a failed verification (the row's operand) nothing changes. GRANULE_REBUILD gives every item whose buckets fall in the granule its entry again, and the granule is no longer incomplete. LEDGER_DELTA_RUN_WRITE of a due namespace writes its deltas as one sorted run, takes them out of Firn, and at eight delta runs queues the merge; without room they stay. LEDGER_MERGE makes one sorted base run of all runs of a namespace with eight delta runs, and the grains of the old ones are dead. -/
def Obligations.CheckpointAndLedger : Prop :=
  (∀ (g : Nat) (ok : Bool) (s : State), bgGranted (unitLevel s (ofKind 9)) s = true → nextGranule s = some g →
    exec (.checkpointGranuleWrite ok) s = .next (writeGranule g ok s)) ∧
  (∀ (ok : Bool) (s : State), bgGranted (unitLevel s (ofKind 9)) s = true → nextGranule s = none →
    exec (.checkpointGranuleWrite ok) s = .next (doneBg 9 0 0
      { s with kw := { s.kw with geometry := some (buckets s.kw.dram), nextGranule := 0, genAt := none } })) ∧
  (∀ (rs rest : List KwRec) (s : State), running s = true → holdsPair s = true → s.start.serving = true → takeSegment 0 s.kw.firn = some (rs, rest) →
    exec (.deltaLogSegmentWrite true) s = .next (match metaWrite (.segment ((rs.map (·.seq)).headD 0)) (rs.flatMap kwRecOut) s with
      | (some _, t) => releaseSegments (withDelta (t.kw.delta ++ [⟨(rs.map (·.seq)).headD 0, maxL (rs.map (·.seq)), rs⟩])
          { t with kw := { t.kw with firn := rest } })
      | (none, t) => t)) ∧
  (∀ s : State, exec (.deltaLogSegmentWrite false) s = .next s) ∧
  (∀ (granule : Nat) (s t : State), bgGranted (unitLevel s (isUnit 11 granule 0)) s = true → s.kw.incomplete.contains granule = true →
    t = (s.kw.items.filter (touches s granule)).foldl (rebuildEntry granule) s →
    exec (.granuleRebuild granule) s =
      .next (doneBg 11 granule 0 { t with kw := { t.kw with incomplete := t.kw.incomplete.filter (· != granule) } })) ∧
  (∀ (ns : Nat) (r : LRun) (s : State), running s = true → holdsPair s = true → s.start.serving = true → runDue s ns = true →
    r = ⟨ns, false, sortRun (deltasOf s ns)⟩ →
    exec (.ledgerDeltaRunWrite ns) s = .next (match metaWrite (.run ns false) (r.entries.flatMap ledgerOut) s with
      | (some _, a) => (fun t : State => if 8 ≤ (deltaRuns t ns).length then addBg 8 ns 0 (secNs 600) t else t)
          { a with kw := { a.kw with deltas := a.kw.deltas.filter (fun e => e.ns != ns), runs := a.kw.runs ++ [r] } }
      | (none, t) => t)) ∧
  (∀ (ns : Nat) (r : LRun) (old : List Nat) (s : State), bgGranted (unitLevel s (isUnit 8 ns 0)) s = true → 8 ≤ (deltaRuns s ns).length →
    r = ⟨ns, true, sortRun ((s.kw.runs.filter (fun r => r.ns == ns)).flatMap (·.entries))⟩ →
    old = (s.media.flash.filter (fun x => match x.2.owner with | some (.run n _) => n == ns | _ => false)).map (·.1) →
    exec (.ledgerMerge ns) s = .next (match metaWrite (.run ns true) (r.entries.flatMap ledgerOut) s with
      | (some _, t) => doneBg 8 ns 0 (journal [.metaMap [] old] (deadGrains old
          { t with kw := { t.kw with runs := t.kw.runs.filter (fun r => r.ns != ns) ++ [r] } }))
      | (none, t) => t))

/-- The scrub of the Ward and the end of Rime strings. A scrub tick, at the earliest 2 µs after the last, takes what upsets did, and of the entries of its number in the 64 banks: those whose shadow word is lost begin their rebuild, those being rebuilt are skipped, of the others those that differ from the shadow are mismatches (wardMismatch); the number advances by one of 1 024, and with the last the pass begins anew. WARD_SHADOW_REBUILT takes the shadow word from the record, records 0x1211, and the searches that waited are taken again. A bank not scrubbed within 4 096 µs of its pass is lasting, with 0x9211. The group of a lasting bank moves to a free group of its width, its rows copied from the shadow, its banks retired, with 0x0210; without a free group its banks are retired, 0x0211 is recorded and firmware classifies its keys. RIME_STRING_END delivers the string's result to its read, or to the listing it belongs to, and the engine takes the next string. RIME_ENGINE_STALL of a string of 10 µs or more records 0x9210 and a miss, the engine leaves the pool and its self-test begins. -/
def Obligations.WardAndRime : Prop :=
  (∀ (flips : List (Nat × WardEntry)) (lost here skipped upset : List Nat) (s u a b : State), running s = true → s.ward.loaded = true →
    s.ward.tickAt + 2000 ≤ s.now → u = takeUpsets flips lost s → here = (List.range 64).map (fun x => 1024 * x + u.ward.pos) →
    a = (here.filter u.ward.lostWords.contains).foldl beginRebuild u →
    skipped = here.filter (fun g => (aGet g a.ward.rebuilding).isSome) →
    upset = here.filter (fun g => ! skipped.contains g && entryIn a.ward.rows g != entryIn a.ward.shadow g) →
    b = upset.foldl wardMismatch a →
    exec (.wardScrubTick flips lost) s = .next { b with ward := { b.ward with
      tickAt := u.now, pos := (u.ward.pos + 1) % 1024, passAt := if u.ward.pos = 1023 then u.now else b.ward.passAt
      cleanAt := aSet u.ward.pos u.now b.ward.cleanAt
      dirtyAt := (skipped.map (fun g => (g, lastClean a g))).foldl (fun d x => aSet x.1 x.2 d)
        (b.ward.dirtyAt.filter (fun x => x.1 % 1024 != u.ward.pos || upset.contains x.1)) } }) ∧
  (∀ (bank entry g : Nat) (s t : State), g = 1024 * bank + entry → running s = true → (aGet g s.ward.rebuilding).isSome = true →
    t = record 0x1211 (pathX 0x18 bank) (le 1 bank ++ le 2 entry) { s with ward := { s.ward with
      rebuilding := aDel g s.ward.rebuilding
      shadow := putEntryIn g (match (wardOf s).images.find? (fun i => 1024 * placedBank s i.bank + i.entry == g) with
        | some i => i.e
        | none => emptyEntry) s.ward.shadow } } →
    exec (.wardShadowRebuilt bank entry) s = .next (settle (t.ward.waits.foldl runCap { t with ward := { t.ward with waits := [] } }))) ∧
  (∀ (bank : Nat) (s : State), running s = true → s.ward.loaded = true → bank < 64 → s.ward.lasting.contains bank = false →
    s.mem.qUnits.contains (pathX 0x18 bank) = false → s.ward.passAt + 4096000 < s.now →
    exec (.wardScrubPassDeadline bank) s = .next (record 0x9211 (pathMonitor 0) []
      { s with ward := { s.ward with lasting := sIns bank s.ward.lasting } })) ∧
  (∀ (bank placed l h : Nat) (s q : State), running s = true → s.ward.loaded = true → s.ward.lasting.contains bank = true →
    placed = groupHead (wardOf s) bank → l = groupWidth (wardOf s) placed →
    h = ((s.ward.moved.find? (fun p => p.2 == placed)).map (·.1)).getD placed →
    q = ((List.range l).map (placed + ·)).foldl retireWardBank
      { s with ward := { s.ward with lasting := s.ward.lasting.filter (fun b => ! ((List.range l).map (placed + ·)).contains b) } } →
    (∀ g : Nat, freeGroup s l placed = some g →
      exec (.wardGroupRelocation bank) s = .next (record 0x0210 (pathX 0x18 placed) (le 1 placed ++ le 1 g) { q with ward := { q.ward with
        moved := aSet h g q.ward.moved
        rows := (movedRows s.ward.shadow placed g l).foldl (fun t x => putEntryIn x.1 x.2 t) q.ward.rows
        shadow := (movedRows s.ward.shadow placed g l).foldl (fun t x => putEntryIn x.1 x.2 t) q.ward.shadow } })) ∧
    (freeGroup s l placed = none →
      exec (.wardGroupRelocation bank) s = .next (record 0x0211 (pathX 0x18 placed) (le 1 placed)
        { q with ward := { q.ward with firmware := sIns h q.ward.firmware } }))) ∧
  (∀ (engine : Nat) (x : RString) (s t u : State), aGet engine s.rime.busy = some x →
    t = { s with rime := { s.rime with busy := aDel engine s.rime.busy } } →
    u = (match x.owner with
      | .read id => (match readBy t id with | some r => filteredDone r x t | none => t)
      | .key scan i => settle (keyScanned scan i (rimeResult x).isSome t)) →
    exec (.rimeStringEnd engine) s = .next (nextStrings (u.rime.waiting.length + 1) u)) ∧
  (∀ (engine : Nat) (x : RString) (s : State), aGet engine s.rime.busy = some x → x.at_ + 10000 ≤ s.now →
    exec (.rimeEngineStall engine) s = .next (startTest { mem := 255, path := pathX 0x17 engine, idx := engine, kind := 9, addr := 0 } 0
      (engineOut engine (missAndJudge (record 0x9210 (pathMonitor 0) [] s)))))

/-- Programs, reads and erases of the flash end, or do not. On a device that holds its pair: an OPEN superblock's unit that has waited 50 ms is padded. A program that ends well makes its block row a unit of the sweep and its data unit done (unitDone) or the parity of its wordline programmed (parityDone); one that fails is handled as programFailed first, and its superblock goes on. A verification read verifies its grain where it decodes at step 1 with at most 116 bits and tag and CRC hold, and fails it otherwise; another read that decodes with tag and CRC ends, one that decodes without climbs from step 5 on with 0x2041 unless its namespace is being purged, and one that does not decode climbs to the next step. A read of steps 1 to 5 that is past 5 ms is marked, records 0x9230 and a miss, and climbs, or as a verification read fails its grain. An erase that ends leaves the sweep, clears the block row's read counter and raises its P/E count by one, takes the block row out of its superblock, and one that fails retires the block; what waits is laid down. A die silent for its longest operation time and 10 ms is lost. A spill set that is not erased, holds no complete flush and is no target of a running flush becomes, at SPILL_SET_ERASE, state 0, or state 2 where the erase failed, its P/E count one higher. A read for a die that runs a program or erase suspends it, and once it has been suspended 8 times waits; a suspended operation goes on once no other read of the die is out. -/
def Obligations.FlashOperationsEnd : Prop :=
  (∀ (sb t0 : Nat) (b : SbRec) (s : State), sbBy s sb = some b → b.waitSince = some t0 → b.state = 1 → running s = true → holdsPair s = true →
    t0 + 50000000 ≤ s.now → exec (.programUnitTimeout sb) s = .next (settle (padUnit false b s))) ∧
  (∀ (die block wl : Nat) (o : OpEntry) (b : SbRec) (s t : State), opAt s die block wl (fun o => o == 1 || o == 2) = some o →
    running s = true → holdsPair s = true → t = addSweep die block (endOp o s) → sbBy t o.sb = some b →
    (o.op ≠ 2 → exec (.flashProgramComplete die block wl true) s = .next (settle (unitDone b (unitOf b (posOf die) wl) t))) ∧
    (o.op = 2 → exec (.flashProgramComplete die block wl true) s = .next (settle (parityDone b t))) ∧
    (∀ c : SbRec, sbBy (programFailed b die block wl t) o.sb = some c →
      (o.op ≠ 2 → exec (.flashProgramComplete die block wl false) s = .next (settle (advanceSb c.seq
        (setSb { c with done := sIns (unitOf c (posOf die) wl) c.done } (programFailed b die block wl t))))) ∧
      (o.op = 2 → exec (.flashProgramComplete die block wl false) s = .next (settle (parityDone c (programFailed b die block wl t)))))) ∧
  (∀ (id step bits levels : Nat) (decoded tagOk crcOk : Bool) (r : GrainRead) (s a : State),
    s.media.reads.find? (fun r => r.id == id && r.step == step) = some r → running s = true → holdsPair s = true →
    a = openGrain r decoded (returnTokens (addrDie r.addr) (readBlock r.id) 0 s) →
    (r.why = 2 → verifies step bits decoded tagOk crcOk = true →
      exec (.flashReadComplete id step bits decoded tagOk crcOk levels) s = .next (settle (settleRewrites (grainVerified r (dropRead r a))))) ∧
    (r.why = 2 → verifies step bits decoded tagOk crcOk = false →
      exec (.flashReadComplete id step bits decoded tagOk crcOk levels) s = .next (settle (grainFailed r (dropRead r a)))) ∧
    (r.why ≠ 2 → decoded = false →
      exec (.flashReadComplete id step bits decoded tagOk crcOk levels) s = .next (settle (climb r (nextStep a r step) a))) ∧
    (r.why ≠ 2 → decoded = true → tagOk = true → crcOk = true →
      exec (.flashReadComplete id step bits decoded tagOk crcOk levels) s =
        .next (settle (settleRewrites (readEnds r true (noteDecode r step bits levels a))))) ∧
    (∀ (g : FGrain) (b t : State), r.why ≠ 2 → decoded = true → (tagOk && crcOk) = false → b = noteDecode r step bits levels a →
      aGet r.addr b.media.flash = some g →
      t = (if b.kw.purging.any (fun p => p.1 == g.ns) then b
        else record 0x2041 (pathFlashDie (addrDie r.addr)) (le 1 (if tagOk then 2 else 1) ++ le 6 r.addr) b) →
      exec (.flashReadComplete id step bits decoded tagOk crcOk levels) s = .next (settle (climb r (nextStep t r (max step 5)) t)))) ∧
  (∀ (die block : Nat) (ok : Bool) (o : OpEntry) (s b c d : State), opAt s die block 0 (fun o => o == 3) = some o → running s = true → holdsPair s = true →
    b = doneBg 1 die block { endOp o s with media := { (endOp o s).media with
      rdc := (endOp o s).media.rdc.filter (fun x => ! (x.1 == die && x.2.1 == block)) } } →
    c = journal [.pe die block (peOf b die block + 1)] b → d = (match sbBy c o.sb with | some x => rowGone die x c | none => c) →
    exec (.flashEraseComplete die block ok) s =
      .next (settle (layWaiting (checkFree (checkSpread die (if ok then d else retireBlock 1 die block d)))))) ∧
  (∀ (id : Nat) (r : GrainRead) (s b : State), s.media.reads.find? (fun r => r.id == id) = some r → running s = true → holdsPair s = true →
    r.step ≤ 5 → r.noted = false → r.at_ + 5000000 < s.now →
    b = record 0x9230 (pathMonitor 0) (le 6 r.addr) (returnTokens (addrDie r.addr) (readBlock r.id) 0
      { s with media := { s.media with reads := updIf (fun x => x.id == id) (fun x => { x with noted := true }) s.media.reads } }) →
    exec (.readingLadderDeadline id) s = .next (settle (missAndJudge
      (if r.why = 2 then grainFailed r (dropRead r b) else climb r (nextStep b r 5) b)))) ∧
  (∀ (die : Nat) (s : State), running s = true → holdsPair s = true → usableDie s die = true → silentDie s die = true →
    exec (.dieReadyTimeout die) s = .next (settle (loseDie die s))) ∧
  (∀ (set : Nat) (x : SpillSet) (s : State), x = spillSet s set → running s = true → holdsPair s = true → set < 2 → x.state ≠ 0 →
    s.power.flush = none → x.complete = false → (x.pe + 1) % max (10 * (mediaOf s).spread) 1 ≠ 0 →
    exec (.spillSetErase set true) s =
      .next (settle (reportGauge (setSpill set { x with state := 0, complete := false, grains := [], bad := [], pe := x.pe + 1 } s))) ∧
    exec (.spillSetErase set false) s =
      .next (settle (reportGauge (setSpill set { x with state := 2, complete := false, grains := [], bad := [], pe := x.pe + 1 } s)))) ∧
  (∀ (g : GrainRead) (die : Nat) (o : OpEntry) (s : State), s.twin.ops.find? (fun x => x.die == die && x.state == 2 && ! heldBack s x) = some o →
    (o.suspends < 8 → issueRead g die s = emitNow (.flashRead g.id g.addr g.step)
      (setOp o { o with state := 3, suspends := o.suspends + 1 } (emitNow (.flashOp o.die 6 o.block o.wl) s))) ∧
    (8 ≤ o.suspends → issueRead g die s = { s with power := { s.power with behind := s.power.behind ++ [g.id] } })) ∧
  (∀ (die : Nat) (o : OpEntry) (s : State), s.power.granted.any (fun r => r.die == die && decide (65536 ≤ r.block)) = false →
    s.twin.ops.find? (fun x => x.die == die && x.state == 3) = some o →
    resumeDie die s = setOp o { o with state := 2 } (emitNow (.flashOp o.die 5 o.block o.wl) s))

/-- Units of background work rise, fall due and are done. A unit below the level of its age takes that level. At its deadline, once, the fault of its task is recorded with the unit, its age in seconds and how many units of the task are overdue, and the unit's level is 2. Where its level is granted, a sweep visit of the reference block (block 0) of a usable die counts 4 reads, and loses the die when more than 116 bits were corrected or a grain failed; a visit of the die's oldest block row counts its reads, judges an entry of age 15 by the bits at the die's defaults, reports a row above 162 bits, handles the grains that failed, verifies the queued items, and the row is done and due again. At the end of a pass the drift entries that were not written in it age by one, up to 15, and the next pass begins. Read counters are copied every second and mirrored. A rewrite moves the items of its block row, first closing an OPEN superblock with padding, and a metadata superblock is rewritten (rewriteMeta). Garbage collection moves the items of its victim, and wear levelling those of the coldest superblock, or is done where the spread is within its threshold. -/
def Obligations.BackgroundWork : Prop :=
  (∀ (kind id id2 : Nat) (u : BgUnit) (s : State), s.media.bg.find? (fun u => u.kind == kind && u.id == id && u.id2 == id2) = some u → running s = true →
    u.level < ageLevel s.now u → exec (.backgroundLevelRise kind id id2) s = .next (settle { s with media := { s.media with
      bg := updIf (fun x => x == u) (fun x => { x with level := ageLevel s.now u }) s.media.bg } })) ∧
  (∀ (kind id id2 : Nat) (u : BgUnit) (s : State), s.media.bg.find? (fun u => u.kind == kind && u.id == id && u.id2 == id2) = some u → running s = true →
    holdsPair s = true → u.fault = false → u.due + u.span ≤ s.now →
    exec (.backgroundDeadline kind id id2) s = .next (settle (record (bgFault kind id2) (pathMonitor 0)
      (le 8 id ++ le 8 id2 ++ le 8 ((s.now - u.due) / 1000000000) ++
        le 4 (s.media.bg.filter (fun x => x.kind == kind && decide (x.due + x.span ≤ s.now))).length)
      { s with media := { s.media with bg := updIf (fun x => x == u) (fun x => { x with fault := true, level := 2 }) s.media.bg } }))) ∧
  (∀ (die bits bd : Nat) (failed : List Nat) (s : State), bgGranted (unitLevel s (fun u => u.kind == 1 && u.id == die)) s = true → usableDie s die = true →
    exec (.sweepVisit die 0 bits bd failed) s = .next (settle
      (if bits ≤ 116 ∧ failed = [] then countRead die 0 4 s else loseDie die (countRead die 0 4 s)))) ∧
  (∀ (die block bits bd grp : Nat) (failed : List Nat) (s a b c d e : State), bgGranted (unitLevel s (isUnit 1 die block)) s = true →
    usableDie s die = true → block ≠ 0 → oldestRow s die block = true →
    a = countRead die block (match sbAt s die block with | some b => (geoOf s).bits * max 1 b.programmed | none => 1) s →
    grp = blockGroup (geoOf s) (block * 2 ^ 16) →
    b = (match a.media.drift.find? (fun e => e.1 == die && e.2.1 == grp && e.2.2.2 == 15) with
      | some e => (fun t : State => { t with media := { t.media with driftNew := t.media.driftNew ++ [(die, grp)] } })
          (journal [.drift die grp (if bd < bits then 0 else e.2.2.1)] a)
      | none => a) →
    c = (if 162 < bits then reportRow 3 die block b else b) → d = failed.foldl sweepLost c →
    e = (d.kw.items.filter (fun i => i.flash.any (fun x => addrDie x == die && addrBlock x == block) &&
      d.kw.verify.any (fun v => v.1 == i.ns && v.2.1 == i.chunk && v.2.2 == i.key))).foldl (fun t i => verifyItem i t) d →
    exec (.sweepVisit die block bits bd failed) s = .next (settle (addSweep die block (doneBg 1 die block e)))) ∧
  (∀ (stale : List (Nat × Nat × Nat × Nat)) (s : State), bgGranted (unitLevel s (ofKind 1)) s = true → s.media.sweepAt < s.now →
    (s.media.bg.filter (fun u => u.kind == 1)).all (fun u => decide (s.media.sweepAt ≤ u.due)) = true →
    stale = s.media.drift.filter (fun e => ! s.media.driftNew.contains (e.1, e.2.1) && decide (e.2.2.2 < 15)) →
    exec .sweepPassEnd s = .next (settle ((fun t : State => { t with media := { t.media with driftNew := [], sweepAt := s.now } })
      (if stale.isEmpty then s else journal (stale.map (fun e => .drift e.1 e.2.1 (e.2.2.1 + (e.2.2.2 + 1) * 2 ^ 60))) s)))) ∧
  (∀ s : State, running s = true → holdsPair s = true → s.media.copiedAt + 1000000000 ≤ s.now →
    exec .readCounterCopy s = .next (settle (mirror (.counters s.media.rdc) { s with media := { s.media with rdcCopy := s.media.rdc, copiedAt := s.now } }))) ∧
  (∀ (die block id : Nat) (u : BgUnit) (b : SbRec) (s t : State), id = 65536 * die + block → s.media.bg.find? (isRewrite id) = some u →
    bgGranted (unitLevel s (isRewrite id)) s = true → sbAt s die block = some b →
    (b.kind = 1 → exec (.rewrite die block) s = .next (settle (doneBg u.kind id 0 (rewriteMeta b s)))) ∧
    (b.kind ≠ 1 → t = (if b.state = 1 then padUnit true b s else s) →
      exec (.rewrite die block) s = .next (settle (settleRewrites ((itemsInRow t die block).foldl
        (fun t i => startMove false (bgRank s (isRewrite id)) i t) t))))) ∧
  (∀ (b : SbRec) (s : State), bgGranted (unitLevel s (ofKind 7)) s = true → s.media.bg.any (ofKind 7) = true → victim s = some b →
    exec .garbageCollection s = .next (settle ((itemsOfSb s b.seq).foldl (fun t i => startMove false (bgRank s (ofKind 7)) i t) s))) ∧
  (∀ (die : Nat) (s : State), bgGranted (unitLevel s (isUnit 6 die 0)) s = true → s.media.bg.any (isUnit 6 die 0) = true →
    spreadOf s die ≤ (mediaOf s).spread → exec (.staticWearLevelling die) s = .next (settle (doneBg 6 die 0 s))) ∧
  (∀ (die : Nat) (b : SbRec) (s : State), bgGranted (unitLevel s (isUnit 6 die 0)) s = true → s.media.bg.any (isUnit 6 die 0) = true →
    (mediaOf s).spread < spreadOf s die → coldest s die = some b →
    exec (.staticWearLevelling die) s = .next (settle ((itemsOfSb s b.seq).foldl (fun t i => startMove true (bgRank s (isUnit 6 die 0)) i t) s)))

/-- Power-fail detection, the flush and its deadline. Where a cause of detection holds and no flush runs, PFAIL_N is low from then on, and: a holding device with a C_g begins its flush and records 0x6010, one without drops its gauge test and ends its run as a device that holds nothing does (unheldFail), and either releases hold first where it had lent its gauge test; a DORMANT or a stopped device does nothing more; a STANDBY drops its gauge test and parks; any other device that is not off or down ends its run as unheldFail says. FLUSH_COMPLETE ends the flush that runs; FLUSH_DEADLINE past D_f records 0x9610 with the grain index reached, once; INPUT_SUPPLY_RETURN raises PFAIL_N, and a flush that runs is not measured. -/
def Obligations.PowerFailAndFlush : Prop :=
  (∀ (cause v : Nat) (s t u : State), detected cause v s = true → s.power.flush = none → running s = true → holdsPair s = true →
    t = { s with keeper := { s.keeper with pfail := true, pfailAt := s.now } } → u = (if s.start.lend = 2 then releaseHold t else t) →
    (s.gauge.cg.isSome = true → exec (.powerFailDetected cause v) s = .next (record 0x6010 pathPkg (le 2 cause) (beginFlush cause 0 v u))) ∧
    (s.gauge.cg = none → exec (.powerFailDetected cause v) s = .next (unheldFail cause (dropTest u)))) ∧
  (∀ (cause v : Nat) (s : State), detected cause v s = true → s.power.flush = none → (s.keeper.phase = .dormant ∨ s.keeper.phase = .stopped) →
    exec (.powerFailDetected cause v) s = .next { s with keeper := { s.keeper with pfail := true, pfailAt := s.now } }) ∧
  (∀ (cause v : Nat) (s : State), detected cause v s = true → s.power.flush = none → running s = true → s.twin.roleState = .standby →
    exec (.powerFailDetected cause v) s =
      .next (park (dropTest { s with keeper := { s.keeper with pfail := true, pfailAt := s.now } }))) ∧
  (∀ (cause v : Nat) (s : State), detected cause v s = true → s.power.flush = none →
    ((running s = true ∧ holdsPair s = false ∧ s.twin.roleState ≠ .standby) ∨ s.keeper.phase = .sequencing ∨ s.keeper.phase = .retry ∨
      s.keeper.phase = .failed ∨ s.keeper.phase = .recovery) →
    exec (.powerFailDetected cause v) s = .next (unheldFail cause { s with keeper := { s.keeper with pfail := true, pfailAt := s.now } })) ∧
  (∀ (vEnd : Nat) (wrote : Bool) (f : Flush) (s : State), s.power.flush = some f → exec (.flushComplete vEnd wrote) s = .next (endFlush vEnd wrote f s)) ∧
  (∀ (f : Flush) (s : State), s.power.flush = some f → f.missed = false → f.at_ + flushLimit f.bytes < s.now →
    exec .flushDeadline s = .next (record 0x9610 (pathMonitor 0) (le 4 f.index)
      { s with power := { s.power with flush := some { f with missed := true } } })) ∧
  (∀ s : State, exec .inputSupplyReturn s = .next { s with
    keeper := { s.keeper with pfail := false, pfailAt := s.now }
    power := { s.power with flush := s.power.flush.map (fun f => { f with measured := false }) } })

/-- The hold-up gauge: its tests, readings and read-only state. A configured device whose cores run begins a due test at GAUGE_PERIOD_TIMER, or at GAUGE_RETRY_TIMER when its retry time has come, unless a flush or a takeover bars it, and then it waits. GAUGE_TEST_START at or above the full voltage raises HOLD_TEST and the test is at step 3. Its samples fail it by criterion 3 where no line falls through them, and otherwise give C_m and C_g: a resistance above the limit fails it by criterion 1, a C_g below half or above twice the configured capacitance by 2, a bad fit by 3, and none of these passes it (testDone). GAUGE_TEST_DEADLINE past 2 s records 0x9620 with the step and fails the test. A reading sets voltage, usable energy and the device's admission, and read-only stands after it where it stood or the usable energy is below E_min. Read-only ends 1 s after the energy came back above its bound, with 0x6024; occupancy above the admission for 1 s records 0x9630 once. -/
def Obligations.GaugeTests : Prop :=
  (∀ s : State, running s = true → s.cfg.isSome = true → s.gauge.test = none →
    (s.gauge.due = true ∨ s.gauge.waits = true ∨ (s.gauge.testPassed = true ∧ s.gauge.retryAt = none ∧ s.gauge.nextDue ≤ s.now)) →
    exec .gaugePeriodTimer s = .next (if testBarred s then { s with gauge := { s.gauge with waits := true } } else beginTest s)) ∧
  (∀ (t : Nat) (s : State), s.gauge.retryAt = some t → running s = true → s.gauge.test = none → t ≤ s.now →
    exec .gaugeRetryTimer s = .next (if testBarred s then { s with gauge := { s.gauge with waits := true } } else beginTest s)) ∧
  (∀ (v0 : Nat) (t : GTest) (s : State), s.gauge.test = some t → running s = true → t.step = 1 → (powOf s).vFull * 1000 ≤ v0 →
    exec (.gaugeTestStart v0) s = .next { s with keeper := { s.keeper with holdTest := true }
                                                 gauge := { s.gauge with test := some { t with step := 3, v0 := v0, at_ := s.now } } }) ∧
  (∀ (iT : Option Nat) (step fit : List Nat) (t : GTest) (s : State), s.gauge.test = some t → running s = true → t.step = 3 →
    measuredCap (iT.getD (powOf s).iT) (fitOf fit) = none → exec (.gaugeTestComplete iT step fit) s = .next (testFailed 3 none s)) ∧
  (∀ (iT : Option Nat) (step fit : List Nat) (cm esr cg : Nat) (t : GTest) (s : State), s.gauge.test = some t → running s = true → t.step = 3 →
    measuredCap (iT.getD (powOf s).iT) (fitOf fit) = some cm → esr = seriesRes t.v0 (mean step) (iT.getD (powOf s).iT) → cg = gauged iT.isSome cm →
    exec (.gaugeTestComplete iT step fit) s = .next (if (powOf s).esr < esr then testFailed 1 (some cg) s
      else if cg * 2 < (powOf s).capMf * 1000 ∨ 2 * ((powOf s).capMf * 1000) < cg then testFailed 2 (some cg) s
      else if ! fitGood (fitOf fit) fit then testFailed 3 (some cg) s
      else testDone cg esr t.v0 s)) ∧
  (∀ (t : GTest) (s : State), s.gauge.test = some t → running s = true → 2 ≤ t.step → t.at_ + 2000000000 < s.now →
    exec .gaugeTestDeadline s = .next (testFailed 0 none (record 0x9620 (pathMonitor 0) (le 1 t.step) s))) ∧
  (∀ (v : Nat) (s t : State), running s = true → s.cfg.isSome = true → s.keeper.holdTest = false →
    t = checkExcess (checkReadOnly { s with gauge := { s.gauge with v := v, eUse := usable s v, aDev := admissionFor s (usable s v) } }) →
    exec (.gaugeReading v) s = .next t ∧ t.gauge.v = v ∧ t.gauge.eUse = usable s v ∧ t.gauge.aDev = admissionFor s (usable s v) ∧
      (t.gauge.readOnly = true ↔ (s.gauge.readOnly = true ∨ usable s v < (powOf s).eMin * 1000000))) ∧
  (∀ (t : Nat) (s : State), s.gauge.backSince = some t → running s = true → s.gauge.readOnly = true → t + 1000000000 ≤ s.now →
    exec .readOnlyExit s = .next (record 0x6024 (pathGauge 0) (le 4 (s.gauge.eUse / 1000))
      { s with gauge := { s.gauge with readOnly := false, backSince := none } })) ∧
  (∀ (t : Nat) (s : State), s.gauge.excessSince = some t → running s = true → s.gauge.excessNoted = false → t + 1000000000 ≤ s.now →
    exec .admissionExcessDeadline s = .next (record 0x9630 (pathMonitor 0) (le 8 (occupancy s) ++ le 4 (pairAdmission s))
      { s with gauge := { s.gauge with excessNoted := true } }))

/-- Power measurements, tokens, energy intervals and the thermal actions. A measurement keeps the sum of core and rails, counts it where it is above the cap and else sets that count to 0; unless the setpoint is at its floor, the second in a row above the cap, or one while the 126 °C action stands, lowers the setpoint by 2 % more; otherwise one below 95 % of the cap, without that action, lowers it by 2 % less; Keyway and keeper are unchanged. 100 ms above the cap at the floor record 0x9640 once. A running device takes a temperature through the three rows of Table 11.5 in order; a stopped one keeps since when it is below 105 °C. THERMAL_TRIP of a device that is not off, down or DORMANT releases hold, disables the drivers, drops every enable, asserts THERMTRIP_N and latches 0x6053. A device stopped and below 105 °C for 10 s begins a warm start. TOKEN_REQUEST asks for the tokens of its uses. TOKEN_GRANT grants the next waiting request whole where the budget, the thaw limiter and its class allow, and accounts its wait. An energy interval closes at its length and the next opens; without one, one opens. A power state asked for is adopted, and noted in the interval. A STANDBY at 127 °C 1 s after its handover sends Join Stage 0 and stops, a cooler one goes on. -/
def Obligations.PowerAndThermal : Prop :=
  (∀ (core rails flash : Nat) (m : Bool) (s : State), running s = true →
    ∃ t, exec (.powerMeasurement core rails flash m) s = .next t ∧ t.power.watts = core + rails ∧
      t.power.overs = (if powerCap s < core + rails then s.power.overs + 1 else 0) ∧
      t.power.lowered = (if (2 ≤ t.power.overs ∨ s.power.actions.contains 2 = true) ∧ atFloor s = false then s.power.lowered + 2
        else if (core + rails) * 100 < 95 * powerCap s ∧ s.power.actions.contains 2 = false then s.power.lowered - 2 else s.power.lowered) ∧
      t.kw = s.kw ∧ t.keeper = s.keeper) ∧
  (∀ (t : Nat) (s : State), s.power.floorSince = some t → running s = true → s.power.floorNoted = false → t + 100000000 ≤ s.now →
    exec .capExceededDeadline s = .next (record 0x9640 (pathMonitor 0) (le 4 s.power.watts ++ le 4 (powerCap s))
      { s with power := { s.power with floorNoted := true } })) ∧
  (∀ (h : Int) (s : State), running s = true → exec (.thermalAction h) s =
    .next (thermalRow h (thermalRow h (thermalRow h { s with power := { s.power with hottest := h } } 1) 2) 3)) ∧
  (∀ (h : Int) (s : State), s.keeper.phase = .stopped →
    exec (.thermalAction h) s = .next { s with power := { s.power with
      hottest := h, coldSince := if h < 1050 then some (s.power.coldSince.getD s.now) else none } }) ∧
  (∀ s : State, s.keeper.phase ≠ .off → s.keeper.phase ≠ .down → s.keeper.phase ≠ .dormant → ∃ t, exec .thermalTrip s = .next t ∧
    t.keeper.thermtrip = true ∧ t.keeper.holdOut = false ∧ t.keeper.drivers = false ∧ t.keeper.en = 0 ∧
    t.keeper.latched = s.keeper.latched ++ [0x6053] ∧ t.keeper.phase = .down) ∧
  (∀ (t : Nat) (s : State), s.power.coldSince = some t → s.keeper.phase = .stopped → t + 10000000000 ≤ s.now →
    exec .thermalRestart s = .next (dueWarm .thermalStop s)) ∧
  (∀ (use count rank : Nat) (s : State), running s = true → exec (.tokenRequest use count rank) s = .next (askTokens use count rank 65535 65535 s.power.tokenId s)) ∧
  (∀ (r : TokReq) (s : State), nextWaiting s = some r → running s = true → fits s r.tokens = true → thawAllows s r.tokens = true →
    classGranted s (rankClass r.rank) = true →
    exec .tokenGrant s = .next (grant r { s with power := { s.power with
      waiting := s.power.waiting.filter (fun w => w.id != r.id), thawWait := s.power.thawWait + (s.now - r.at_) / 1000 } })) ∧
  (∀ (i : Interval) (s : State), s.power.open_ = some i → running s = true → s.power.flush = none → i.start + (powOf s).intervalMs * 1000000 ≤ s.now →
    exec .energyIntervalClose s = .next (openInterval (closeInterval 0 s))) ∧
  (∀ s : State, s.power.open_ = none → running s = true → s.power.flush = none → exec .energyIntervalClose s = .next (openInterval s)) ∧
  (∀ (p at_ : Nat) (s : State), s.power.asked = some (p, at_) → running s = true → s.power.flush = none →
    exec .powerStateAdopt s = .next { s with power := { s.power with
      pstate := p, asked := none, open_ := s.power.open_.map (fun i => { i with flags := i.flags ||| 8, ps1 := p }) } }) ∧
  (∀ (t : Nat) (s : State), s.twin.thermalHandover = some t → running s = true → s.twin.roleState = .standby → t + 1000000000 ≤ s.now →
    exec .thermalHandoverTimeout s = .next (if 1270 ≤ s.power.hottest then stopDevice (sendFrame (.joinStage 0 0)
      { s with twin := { s.twin with thermalHandover := none } }) else { s with twin := { s.twin with thermalHandover := none } }))

/-- The pace loop and the reference clocks. A window of 10 µs keeps the paces of the regions and counts the lowest of those that are not quarantined: below target and not frozen it asks for 20 mV more, else the request stands; without such a region it does not count. After ten windows a decision begins the count of windows anew and, unless the loop is frozen, asks for 5 mV more where the lowest pace is below the working setpoint, and for 5 mV less at the tenth decision in a row above 1.04 times it, which begins that count anew (the model's choice, log 128). Requests stay between 650 and 900 mV. An AVSBus transaction that ends well makes the request accepted and the count of failures 0, one that fails counts; at three failures the loop freezes at the voltage accepted last, records an error event whose code is free (log 13), and a retry 10 ms on unfreezes it where it ends well. A deficit records 0x9040 after each further ms, from the second on as a miss; its monitor is timer 0 (the model's choice, log 124). A lost clock is kept; of FREFCLK and MREFCLK a running device raises criterion 3, of HREFCLK it takes a hinge link that is up down. A restart of commands past 50 µs is a miss with 0x9010. -/
def Obligations.PaceLoop : Prop :=
  (∀ (paces : List Nat) (s t : State), running s = true → s.pace.windowAt + 10000 ≤ s.now →
    t = { s with pace := { s.pace with paces := paces, windowAt := s.now } } →
    (lowestPace paces s.mem.qRegions = none → exec (.paceWindow paces) s = .next t) ∧
    (∀ p : Nat, lowestPace paces s.mem.qRegions = some p →
      exec (.paceWindow paces) s = .next (takeWindow p t) ∧ (takeWindow p t).pace.windows = s.pace.windows + 1 ∧
      (takeWindow p t).pace.vdd = (if p < 1613 ∧ s.pace.frozen = false then max vddMin (min vddMax (s.pace.vdd + 20)) else s.pace.vdd))) ∧
  (∀ (l : Nat) (s : State), s.pace.lowest = some l → running s = true → 10 ≤ s.pace.windows →
    ∃ t, exec .paceDecision s = .next t ∧ t.pace.windows = 0 ∧ t.pace.lowest = none ∧
      t.pace.highs = (if 104 * workingSetpoint s < 100 * l ∧ s.pace.highs + 1 < 10 then s.pace.highs + 1 else 0) ∧
      t.pace.vdd = (if s.pace.frozen = true then s.pace.vdd
        else if l < workingSetpoint s then max vddMin (min vddMax (s.pace.vdd + 5))
        else if 104 * workingSetpoint s < 100 * l ∧ 10 ≤ s.pace.highs + 1 then max vddMin (min vddMax (s.pace.vdd - 5)) else s.pace.vdd)) ∧
  (∀ (v i : Nat) (s : State), running s = true → s.pace.frozen = false →
    exec (.avsbusTransaction true v i) s = .next { s with pace := { s.pace with avsFails := 0, avsAt := s.now, readV := v, readI := i, accepted := s.pace.vdd } } ∧
    exec (.avsbusTransaction false v i) s = .next { s with pace := { s.pace with avsFails := s.pace.avsFails + 1, avsAt := s.now } }) ∧
  (∀ s : State, running s = true → s.pace.frozen = false → 3 ≤ s.pace.avsFails →
    exec .avsbusFailure s = .next (recordRule 39 4 (pathGauge 0) { s with pace := { s.pace with frozen := true, vdd := s.pace.accepted, retryAt := s.now + 10000000 } })) ∧
  (∀ (v i : Nat) (s : State), running s = true → s.pace.frozen = true → s.pace.retryAt ≤ s.now →
    exec (.avsbusRetry true v i) s = .next { s with pace := { s.pace with frozen := false, avsFails := 0, avsAt := s.now, readV := v, readI := i } } ∧
    exec (.avsbusRetry false v i) s = .next { s with pace := { s.pace with avsAt := s.now, retryAt := s.now + 10000000 } }) ∧
  (∀ (t : Nat) (s : State), s.pace.deficitSince = some t → running s = true → t + (s.pace.deficits + 1) * 1000000 < s.now →
    exec .paceDeficit s = .next (if s.pace.deficits = 0 then record 0x9040 (pathMonitor 0) [] { s with pace := { s.pace with deficits := 1 } }
      else missAndJudge (record 0x9040 (pathMonitor 0) [] { s with pace := { s.pace with deficits := s.pace.deficits + 1 } }))) ∧
  (∀ (clock : Nat) (s t : State), clock < 4 → t = { s with pace := { s.pace with clocksLost := sIns clock s.pace.clocksLost } } →
    ((running s = false ∨ clock = 0) → exec (.refclockLoss clock) s = .next t) ∧
    (running s = true → clock = 1 → exec (.refclockLoss clock) s = .next (if s.twin.linkUp then linkDownNow 3 t else t)) ∧
    (running s = true → (clock = 2 ∨ clock = 3) → exec (.refclockLoss clock) s = .next (criterionTrue 3 (clock - 1) t))) ∧
  (∀ (e t : Nat) (s : State), aGet e s.mem.restarts = some t → running s = true → t + 50000 < s.now →
    exec (.commandRestartDeadline e) s = .next (missAndJudge (record 0x9010 (pathMonitor 0) []
      { s with mem := { s.mem with restarts := aDel e s.mem.restarts } })))

/-- GetS, GetM and Upgrade at the directory, and lines given back. A cluster's request for a line that its own region owns, with no request waiting on the line, is forwarded to the line's owner, or answered from memory (a GetS exclusive where no cluster shares it, a GetM or Upgrade where no other does), or for ownership sent to all other sharers as Inv; one for a transient line takes a place in the region's room of 256, or stays at its port; an access without a copy is answered from memory where no cluster owns or shares the line, a write with its words merged; a Put of a line at rest is acknowledged, a PutM of its owner written to memory first; a Put that crosses a snoop is kept as its answer, or serves it after CrossedEvict. After each, what waited for the line goes on, which is nothing while the line is transient and no request is held at a port. -/
def Obligations.CoherenceRequests : Prop :=
  (∀ (c : Coh) (h core o : Nat) (d : DirLine) (s : State), atHome h c s = true → mustQueue s.coh c.line = false →
    d = { dirOf s.coh c.line with region := h } → d.owner = some o → o ≠ c.cluster →
    exec (.gets ⟨c, core⟩) s = .next (wake c.line (sendCoh "FwdGetS" h o c.line [] (onCoh (setDir { d with txn := some ⟨⟨0, c.cluster, core, 0, []⟩, [o], [], [], false⟩ }) s))) ∧
    exec (.getm ⟨c, core⟩) s = .next (wake c.line (sendCoh "FwdGetM" h o c.line [] (onCoh (setDir { d with txn := some ⟨⟨1, c.cluster, core, 0, []⟩, [o], [], [], false⟩ }) s))) ∧
    exec (.upgrade ⟨c, core⟩) s = .next (wake c.line (sendCoh "FwdGetM" h o c.line [] (onCoh (setDir { d with txn := some ⟨⟨2, c.cluster, core, 0, []⟩, [o], [], [], false⟩ }) s)))) ∧
  (∀ (c : Coh) (h core : Nat) (d : DirLine) (s : State), atHome h c s = true → mustQueue s.coh c.line = false →
    d = { dirOf s.coh c.line with region := h } → d.owner = none →
    exec (.gets ⟨c, core⟩) s = .next (wake c.line (sendCoh (if d.sharers.isEmpty then "DataExcl" else "Data") h c.cluster c.line (lineMem s.coh c.line)
      (onCoh (setDir { d with txn := some ⟨⟨0, c.cluster, core, 0, []⟩, [], [], [], true⟩ }) s))) ∧
    (d.sharers.filter (· != c.cluster) = [] →
      exec (.getm ⟨c, core⟩) s = .next (wake c.line (sendCoh "DataExcl" h c.cluster c.line (lineMem s.coh c.line)
        (onCoh (setDir { d with txn := some ⟨⟨1, c.cluster, core, 0, []⟩, [], [], [], true⟩ }) s))) ∧
      exec (.upgrade ⟨c, core⟩) s = .next (wake c.line (sendCoh "DataExcl" h c.cluster c.line (lineMem s.coh c.line)
        (onCoh (setDir { d with txn := some ⟨⟨2, c.cluster, core, 0, []⟩, [], [], [], true⟩ }) s)))) ∧
    (∀ (x : Nat) (xs : List Nat), d.sharers.filter (· != c.cluster) = x :: xs →
      exec (.getm ⟨c, core⟩) s = .next (wake c.line ((x :: xs).foldl (fun s o => sendCoh "Inv" h o c.line [] s)
        (onCoh (setDir { d with txn := some ⟨⟨1, c.cluster, core, 0, []⟩, x :: xs, [], [], false⟩ }) s))) ∧
      exec (.upgrade ⟨c, core⟩) s = .next (wake c.line ((x :: xs).foldl (fun s o => sendCoh "Inv" h o c.line [] s)
        (onCoh (setDir { d with txn := some ⟨⟨2, c.cluster, core, 0, []⟩, x :: xs, [], [], false⟩ }) s))))) ∧
  (∀ (c : Coh) (h core kind : Nat) (i : Instr) (s : State), atHome h c s = true → (dirOf s.coh c.line).txn.isSome = true →
    (i, kind) ∈ [(Instr.gets ⟨c, core⟩, 0), (Instr.getm ⟨c, core⟩, 1), (Instr.upgrade ⟨c, core⟩, 2)] →
    exec i s = .next (wake c.line { s with coh := if roomUsed s.coh h < 256
      then { s.coh with room := s.coh.room ++ [(h, c.line, ⟨kind, c.cluster, core, 0, []⟩)] }
      else { s.coh with ports := s.coh.ports ++ [(c.line, ⟨kind, c.cluster, core, 0, []⟩)] } })) ∧
  (∀ (c : Coh) (h core first : Nat) (ws : List (Word × Bool)) (segs : List (List Byte)) (s : State), uncachedTo h c s = true → mustQueue s.coh c.line = false →
    (dirOf s.coh c.line).owner = none → (dirOf s.coh c.line).sharers = [] →
    exec (.gets ⟨c, core⟩) s = .next (wake c.line (sendCoh "Data" h c.cluster c.line (lineMem s.coh c.line) s)) ∧
    exec (.putm c ⟨first, ws, segs⟩) s = .next (wake c.line (sendCoh "PutAck" h c.cluster c.line []
      (writeWords c.line first (if isCluster c.cluster then ws else assembleWords segs) s)))) ∧
  (∀ (c : Coh) (h first : Nat) (ws : List (Word × Bool)) (segs : List (List Byte)) (d : DirLine) (s t : State), atHome h c s = true → t = onCoh (evictLine c) s →
    d = dirOf s.coh c.line → d.txn = none →
    (d.owner = some c.cluster → exec (.putm c ⟨first, ws, segs⟩) s = .next (wake c.line (sendCoh "PutAck" h c.cluster c.line [] (onCoh (setDir { d with
      owner := none, sharers := d.sharers.filter (· != c.cluster) }) (writeLine c.line ws t)))) ∧
      exec (.pute c) s = .next (wake c.line (sendCoh "PutAck" h c.cluster c.line [] (onCoh (setDir { d with
        owner := none, sharers := d.sharers.filter (· != c.cluster) }) t)))) ∧
    (d.owner = none → exec (.puts c) s = .next (wake c.line (sendCoh "PutAck" h c.cluster c.line [] (onCoh (setDir { d with
      owner := none, sharers := d.sharers.filter (· != c.cluster) }) t))))) ∧
  (∀ (c : Coh) (h first : Nat) (ws : List (Word × Bool)) (segs : List (List Byte)) (x : CTxn) (s t : State), atHome h c s = true → t = onCoh (evictLine c) s →
    (dirOf s.coh c.line).txn = some x → x.waits.contains c.cluster = true →
    (x.crossed.contains c.cluster = true →
      exec (.putm c ⟨first, ws, segs⟩) s = .next (wake c.line (sendCoh "PutAck" h c.cluster c.line [] (answered h c.line c.cluster x (some ws) t)))) ∧
    (x.crossed.contains c.cluster = false →
      exec (.putm c ⟨first, ws, segs⟩) s = .next (wake c.line (onCoh (setDir { dirOf s.coh c.line with txn := some { x with put := x.put ++ [(c.cluster, some ws)] } }) t)) ∧
      exec (.pute c) s = .next (wake c.line (onCoh (setDir { dirOf s.coh c.line with txn := some { x with put := x.put ++ [(c.cluster, none)] } }) t)))) ∧
  (∀ (l : Nat) (s : State), (dirOf s.coh l).txn.isSome = true → s.coh.ports = [] → wake l s = s)

/-- Snoops at a cluster and their answers at the directory. A cluster that holds the line and has it not in its eviction buffer answers FwdGetS with data for requester and directory and keeps S, FwdGetM with exclusive data and keeps nothing, Recall with its data, with the line transient from the recall on; it answers Inv with InvAck; one that has it in its eviction buffer answers CrossedEvict to FwdGetS, FwdGetM, Inv and Recall. The directory takes CrossedEvict of a snooped cluster as a mark, or uses the Put it kept; InvAck answers the snoop, and so do data for any request but a GetS, whose data the directory writes to memory and whose former owner it keeps as a sharer; data at the requester gives it the line with its words, shared, exclusive or for ownership; PutAck frees the eviction buffer. After each, what waited for the line goes on. -/
def Obligations.CoherenceSnoops : Prop :=
  (∀ (c : Coh) (req : Nat) (x : CLine) (ws w : List (Word × Bool)) (s : State), inService s c = true → clusterLine s.coh c = some x → x.evicting = false → w = heldWords x ws →
    exec (.fwdgets c req false ws) s = .next (wake c.line (sendCoh "DataDir" (homeNo s c.line) c.cluster c.line w
      (sendCoh "Data" (homeNo s c.line) req c.line w (onCoh (putLine { x with state := .s, ws := w }) s)))) ∧
    exec (.fwdgetm c req false ws) s = .next (wake c.line (sendCoh "DataExcl" (homeNo s c.line) req c.line w (onCoh (dropLine c) s))) ∧
    ((dirOf s.coh c.line).txn = none → exec (.recall c false ws) s = .next (wake c.line (sendCoh "DataDir" (homeNo s c.line) c.cluster c.line w
      (onCoh (fun k => dropLine c (setDir { dirOf s.coh c.line with region := homeNo s c.line, txn := some ⟨⟨3, c.cluster, 0, 0, []⟩,
        (dirOf s.coh c.line).owner.toList ++ (dirOf s.coh c.line).sharers, [], [], false⟩ } k)) s))))) ∧
  (∀ (c : Coh) (s : State), inService s c = true → evictingAt s.coh c = false →
    exec (.inv c false) s = .next (wake c.line (sendCoh "InvAck" (homeNo s c.line) c.cluster c.line [] (onCoh (dropLine c) s)))) ∧
  (∀ (c : Coh) (req : Nat) (x : CLine) (ws : List (Word × Bool)) (s : State), inService s c = true → clusterLine s.coh c = some x → x.evicting = true →
    exec (.fwdgets c req false ws) s = .next (wake c.line (crossedEvict (homeNo s c.line) c s)) ∧
    exec (.fwdgetm c req false ws) s = .next (wake c.line (crossedEvict (homeNo s c.line) c s)) ∧
    exec (.inv c false) s = .next (wake c.line (crossedEvict (homeNo s c.line) c s)) ∧
    ((dirOf s.coh c.line).txn.isSome = true → exec (.recall c false ws) s = .next (wake c.line (crossedEvict (homeNo s c.line) c s)))) ∧
  (∀ (c : Coh) (x : CTxn) (s : State), inService s c = true → (dirOf s.coh c.line).txn = some x → x.waits.contains c.cluster = true →
    (x.put.find? (fun p => p.1 == c.cluster) = none →
      exec (.crossedevict c) s = .next (wake c.line (onCoh (setDir { dirOf s.coh c.line with txn := some { x with crossed := sIns c.cluster x.crossed } }) s))) ∧
    (∀ (k : Nat) (w : Option (List (Word × Bool))), x.put.find? (fun p => p.1 == c.cluster) = some (k, w) →
      exec (.crossedevict c) s = .next (wake c.line (sendCoh "PutAck" (homeNo s c.line) c.cluster c.line [] (answered (homeNo s c.line) c.line c.cluster x w s))))) ∧
  (∀ (c : Coh) (x : CTxn) (ws : List (Word × Bool)) (ex : Bool) (s : State), inService s c = true → (dirOf s.coh c.line).txn = some x →
    x.waits.contains c.cluster = true →
    exec (.invack c) s = .next (wake c.line (answered (homeNo s c.line) c.line c.cluster x none s)) ∧
    (x.req.kind ≠ 0 → exec (.data c true ws ex) s = .next (wake c.line (answered (homeNo s c.line) c.line c.cluster x (some ws) s))) ∧
    (x.req.kind = 0 → (∀ l ∈ s.coh.lines, l.cluster ≠ x.req.cluster) → exec (.data c true ws ex) s = .next (wake c.line (writeLine c.line ws
      (onCoh (setDir { dirOf s.coh c.line with owner := none, sharers := sIns c.cluster (dirOf s.coh c.line).sharers, txn := some { x with waits := x.waits.filter (· != c.cluster), dataDue := true } }) s))))) ∧
  (∀ (c : Coh) (d : DirLine) (x : CTxn) (ws : List (Word × Bool)) (s : State), inService s c = true → d = dirOf s.coh c.line →
    d.txn = some x → x.req.cluster = c.cluster →
    (∀ ex : Bool, x.req.kind = 0 → exec (.data c false ws ex) s = .next (wake c.line (finishTxn c.line (onCoh (fun k =>
      setDir { d with txn := some { x with dataDue := true } } (putLine ⟨c.cluster, c.line, if ex then .e else .s, false, ws, [x.req.core]⟩ k)) s)))) ∧
    (x.req.kind = 1 ∨ x.req.kind = 2 → exec (.data c false ws true) s = .next (wake c.line (finishTxn c.line (onCoh (fun k =>
      setDir { d with owner := none, txn := some { x with waits := x.waits.filter (fun o => ! (d.owner == some o)), dataDue := true } }
        (putLine ⟨c.cluster, c.line, .m, false, ws, [x.req.core]⟩ k)) s))))) ∧
  (∀ (c : Coh) (s : State), inService s c = true → evictingAt s.coh c = true → exec (.putack c) s = .next (wake c.line (onCoh (dropLine c) s)))

/-- A line with an owner has no sharers. In every state in which no directory entry names both an owner and a sharer, no coherence command leads to an entry that does. -/
def Obligations.DirectorySingleOwner : Prop :=
  ∀ (i : Instr) (s t : State), isCoherence i = true → (∀ d ∈ s.coh.dir, d.owner.isSome = true → d.sharers = []) → exec i s = .next t →
    ∀ d ∈ t.coh.dir, d.owner.isSome = true → d.sharers = []

/-- Uncorrectable words, corrected reads and bad writes. A core's load of a bad word of a clean cached line or a region-buffer line begins the test of the site, and the line is fetched again. Any other traps the core: with 0x1020 and a test where the word is not poison and not of a line in state M; with 0x1022 and a test where it is of such a line, whose word is poisoned; with 0x1022 alone where it is poison. After it a command's working state (structure 4) restarts the commands of the core, a Cornice grain (5) and state without a source (6 and above) are handled as what cannot be rebuilt, and structures 0 to 3 need no more. A fetch traps, quarantines its cluster and tests it, with 0x1020, and tests the site unless it is poison. A DMA read halts its channel, counting its halts, with 0x1021, and tests the site unless it is poison; a Rime engine that reads it goes out of its pool. A restart releases the channel. A narrow write traps with 0x1030. A read corrected in one bit is counted (correctable). -/
def Obligations.MemoryErrors : Prop :=
  (∀ (core st arg : Nat) (x : Site) (s : State), running s = true → x.mem = 0 → (unitCode x.path = 4 ∨ (cachedLine x s).isSome = true) →
    dirtyLine x s = false →
    exec (.coreLoadUncorrectable core x false st arg) s = .next (settle (startTest x 1 (refetch x (core % 8) s)))) ∧
  (∀ (core st arg : Nat) (poison : Bool) (x : Site) (s b : State), running s = true →
    ¬ (x.mem = 0 ∧ poison = false ∧ (unitCode x.path = 4 ∨ (cachedLine x s).isSome = true) ∧ dirtyLine x s = false) →
    b = (if poison then memEvent 0x1022 x true 0 2 0 { s with out := s.out ++ [.trap core 2 x.addr] }
      else if dirtyLine x s then startTest x 1 (memEvent 0x1022 x true 0 2 0 { poisonLine x s with out := (poisonLine x s).out ++ [.trap core 2 x.addr] })
      else startTest x 1 (memEvent 0x1020 x false 0 1 0 { s with out := s.out ++ [.trap core 2 x.addr] })) →
    (st ≤ 3 → exec (.coreLoadUncorrectable core x poison st arg) s = .next (settle b)) ∧
    (st = 4 → exec (.coreLoadUncorrectable core x poison st arg) s = .next (settle (restartOn (pathCore core) b))) ∧
    (st = 5 → exec (.coreLoadUncorrectable core x poison st arg) s = .next (settle (cannotRebuild (some arg)
      (s.ice.stores.any (fun e => e.chunks.any (fun x => x.grains.contains arg && decide (2 ≤ chunkLevel s e x)))) x b))) ∧
    (6 ≤ st → exec (.coreLoadUncorrectable core x poison st arg) s = .next (settle (cannotRebuild none false x b)))) ∧
  (∀ (cluster : Nat) (x : Site) (s : State), running s = true → cluster < 32 →
    exec (.instructionFetchUncorrectable cluster x false) s = .next (settle (startTest { mem := 255, path := pathCluster cluster, idx := cluster, kind := 7, addr := 0 } 1
      (quarantineCluster cluster (startTest x 1 (memEvent 0x1020 x false 1 1 0 { s with out := s.out ++ [.trap (8 * cluster) 3 x.addr] }))))) ∧
    exec (.instructionFetchUncorrectable cluster x true) s = .next (settle (startTest { mem := 255, path := pathCluster cluster, idx := cluster, kind := 7, addr := 0 } 1
      (quarantineCluster cluster (memEvent 0x1020 x true 1 2 0 { s with out := s.out ++ [.trap (8 * cluster) 3 x.addr] }))))) ∧
  (∀ (ch n : Nat) (x : Site) (poison : Bool) (s t : State), running s = true → s.mem.halted.contains ch = false → n = ((aGet ch s.mem.halts).getD 0) + 1 →
    t = memEvent 0x1021 x poison 2 (if poison then 2 else 1) n
      { s with mem := { s.mem with halted := sIns ch s.mem.halted, halts := aSet ch n s.mem.halts } } →
    (unitCode x.path = 0x17 → exec (.dmaReadUncorrectable ch x poison) s = .next (settle (startTest x 1 (engineOut (instOf x.path) t)))) ∧
    (unitCode x.path ≠ 0x17 → poison = false → exec (.dmaReadUncorrectable ch x poison) s = .next (settle (startTest x 1 t))) ∧
    (unitCode x.path ≠ 0x17 → poison = true → exec (.dmaReadUncorrectable ch x poison) s = .next (settle t))) ∧
  (∀ (ch : Nat) (s : State), running s = true → s.mem.halted.contains ch = true →
    exec (.dmaChannelRestart ch) s = .next (settle { s with mem := { s.mem with halted := s.mem.halted.filter (· != ch) } })) ∧
  (∀ (core : Nat) (x : Site) (s : State), running s = true →
    exec (.narrowWrite core x) s = .next (settle (record 0x1030 (pathCore core) (memPayload s x 0 4 4 0) { s with out := s.out ++ [.trap core 1 x.addr] }))) ∧
  (∀ (x : Site) (s : State), running s = true → exec (.correctableRead x) s = .next (settle (correctable x s)))

/-- Leaky buckets, scrubbing, self-tests and the retirement list. A bucket's level falls by one at the earliest 10 s after its last change, and one at 1 leaves the list. Scrubbing counts the words corrected in one bit and stores the bad ones poisoned, each with 0x1020 and a test. A self-test that fails marks its site lasting; one that passes records 0x1040 and marks a transient, after which the element is back in its pool unless its site is lasting then; one beyond ten times its duration records 0x9120 and marks the site lasting. An entry with only transients is dropped 24 h after its last. -/
def Obligations.BucketsAndRetirement : Prop :=
  (∀ (bank n t0 : Nat) (s : State), s.mem.buckets.find? (fun b => b.1 == bank) = some (bank, n, t0) → t0 + 10000000000 ≤ s.now →
    exec (.bucketLeak bank) s = .next (settle { s with mem := { s.mem with buckets := (if n ≤ 1 then s.mem.buckets.filter (fun x => x.1 != bank)
      else updIf (fun x => x.1 == bank) (fun x => (x.1, x.2.1 - 1, s.now)) s.mem.buckets) } })) ∧
  (∀ (single bad : List Site) (s : State), running s = true → exec (.memoryScrub single bad) s =
    .next (settle (bad.foldl (fun t x => startTest x 1 (memEvent 0x1020 x false 3 1 0 (poisonWord x t))) (single.foldl (fun t x => correctable x t) s)))) ∧
  (∀ (t : Site) (x : SiteTest) (s : State), s.mem.tests.find? (fun x => sameSite x.site t) = some x → running s = true →
    exec (.selfTestComplete t true) s = .next (settle (markLasting t 2 (endTest t s)))) ∧
  (∀ (t : Site) (x : SiteTest) (s b : State), s.mem.tests.find? (fun x => sameSite x.site t) = some x → running s = true →
    b = markTransient t x.cause (record 0x1040 t.path (memPayload (endTest t s) t 0 5 3 0) (endTest t s)) →
    exec (.selfTestComplete t false) s = .next (settle (if (match entryAt b t with | some e => e.state == 2 | none => false) then b else bringBack t b))) ∧
  (∀ (t : Site) (x : SiteTest) (s : State), s.mem.tests.find? (fun x => sameSite x.site t) = some x → running s = true → x.at_ + 10 * testTime t.kind < s.now →
    exec (.selfTestDeadline t) s = .next (settle (markLasting t 3 (record 0x9120 t.path (le 4 t.path ++ le 4 t.idx) (endTest t s))))) ∧
  (∀ (t : Site) (e : REntry) (s : State), entryAt s t = some e → running s = true → e.state = 1 → (e.transients.getLast?.getD 0) + 86400 ≤ s.now / 1000000000 →
    exec (.retirementEntryExpiry t) s = .next (settle { s with mem := { s.mem with
      retire := s.mem.retire.filter (fun x => ! sameSite x.site t), fullNoted := false } }))

/-- Known-answer tests, reseeds, entropy sources and key epochs. The known-answer test of a cipher or CMAC engine notes its time, and one that fails holds the engine out, records 0x7020 and tests it. A due reseed counts and clears the request count, or without an entropy source stops the DRBG with 0x7032. Masks are drawn again at the earliest every 1 ms, which asks the DRBG once. A source that fails its health test is excluded with 0x7030, and where none is left 0x7031 follows. The epoch of locked time becomes the device's (adoptEpoch). After a key is used it is the first of the key cache, which holds at most 256, all others of it as before or fewer; and after a new salt of a namespace the cache holds no key of the pair root for it. -/
def Obligations.KeysAndEntropy : Prop :=
  (∀ (path : Nat) (s : State), running s = true → (unitCode path = 0x14 ∨ unitCode path = 0x15) →
    exec (.knownAnswerTest path true) s = .next { s with sec := { s.sec with katAt := s.now } } ∧
    exec (.knownAnswerTest path false) s = .next (startTest { mem := 255, path := path, idx := 0, kind := 9, addr := 0 } 2
      (record 0x7020 path (le 4 path) { s with sec := { s.sec with katAt := s.now, heldOut := sIns path s.sec.heldOut } }))) ∧
  (∀ s : State, running s = true → reseedDue s = true → s.sec.stopped = false → noEntropy s = false →
    exec .drbgReseed s = .next { s with sec := { s.sec with reseeds := s.sec.reseeds + 1, reseedAt := s.now, requests := 0 } }) ∧
  (∀ s : State, running s = true → reseedDue s = true → s.sec.stopped = false → noEntropy s = true →
    exec .drbgReseed s = .next (record 0x7032 pathPkg (le 4 s.sec.requests) { s with sec := { s.sec with stopped := true } })) ∧
  (∀ s : State, running s = true → s.sec.maskAt + 1000000 ≤ s.now → noEntropy s = false → s.sec.stopped = false →
    exec .maskReseed s = .next { s with sec := { s.sec with maskAt := s.now, requests := s.sec.requests + 1 } }) ∧
  (∀ (src test : Nat) (s : State), running s = true → src < 2 → s.sec.excluded.contains src = false → s.sec.excluded.contains (1 - src) = false →
    exec (.entropyHealthFail src test) s = .next (record 0x7030 (pathX 0x44 src) (le 1 src ++ le 1 test)
      { s with sec := { s.sec with excluded := sIns src s.sec.excluded } })) ∧
  (∀ (src test : Nat) (s t : State), running s = true → src < 2 → s.sec.excluded.contains src = false →
    t = record 0x7030 (pathX 0x44 src) (le 1 src ++ le 1 test) { s with sec := { s.sec with excluded := sIns src s.sec.excluded } } → noEntropy t = true →
    exec (.entropyHealthFail src test) s = .next (record 0x7031 pathPkg [] t)) ∧
  (∀ s : State, running s = true → s.ptp.locked = true → s.ice.epoch < epochOf s.now →
    exec (.keyEpochChange (epochOf s.now)) s = .next (adoptEpoch (epochOf s.now) s)) ∧
  (∀ (k : KeyUse) (s : State), (useKey k s).keys.entries.head?.map (·.use) = some k ∧ (useKey k s).keys.entries.length ≤ 256 ∧
    ∀ x ∈ (useKey k s).keys.entries, x.use = k ∨ x ∈ s.keys.entries) ∧
  (∀ (ns g : Nat) (s : State), ∀ x ∈ (applyJ (.salt ns g) s).keys.entries, ¬ (x.use.gen = none ∧ x.use.ns = ns))

/-- A datagram that is not accepted changes nothing that it names. A datagram of any type (the 37 rows of `gramRule`, and VIEW_SYNC) that is not accepted ends its command in the state in which it was dropped; there the Keyway, the media, the coordinating records, Stores, reads, the view, the replay windows, the floors, the keeper and the boot state stand as before. One of an unknown type is counted as dropped, and so is one of a known type, through MILMO_INVALID_TYPE, that is not accepted. -/
def Obligations.DroppedDatagrams : Prop :=
  (∀ (h : Hdr) (g : Nat × List Byte) (s t : State), accept h g s = (none, t) → t.kw = s.kw ∧ t.media = s.media ∧ t.ice.recs = s.ice.recs ∧
    t.ice.stores = s.ice.stores ∧ t.ice.readsE = s.ice.readsE ∧ t.ice.view = s.ice.view ∧ t.ice.windows = s.ice.windows ∧ t.ice.floors = s.ice.floors ∧
    t.keeper = s.keeper ∧ t.boot = s.boot) ∧
  (∀ (i : Instr) (h : Hdr) (b : Body) (s t : State), gramRule i = some (h, b) → receives s = true → accept h (gramOf b) s = (none, t) →
    exec i s = .next t) ∧
  (∀ (h : Hdr) (us : List MUpdate) (s t : State), hears s = true → accept h (gramOf (.viewSync us)) s = (none, t) → exec (.viewSync h us) s = .next t) ∧
  (∀ (h : Hdr) (body : List Byte) (s t : State), receives s = true →
    (milmoTypes.contains h.type = false → exec (.milmoInvalidType h body) s = .next (dropGram 0 s)) ∧
    (milmoTypes.contains h.type = true → accept h (h.type, body) s = (none, t) → exec (.milmoInvalidType h body) s = .next t))

/-- Probing, suspicion, loss and the view. An accepted Probe, Probe Ack, Probe Request, View Digest and View Sync is handled (onProbe, onProbeAck, onProbeRequest, onViewDigest, onViewSync). PROBE_TIMER, at the earliest 10 ms after the last, probes the drawn slots, and renews the groups first while an own change is to be announced. A direct probe that was silent for 1 ms has failed, and its helpers are asked. When the helpers of a failed probe have had their time the target is suspected, unless one of them heard it or this pair is isolated. A slot that this pair suspected first and that has been so for the loss time is LOST, with 0x5011, unless this pair is isolated. A digest goes to an alive slot at the earliest every 1 s. A pair without a view, 1 s after it last asked, goes on without one from 10 s after it first did, and before that asks the next slot, three at most. A closed pair without a cause, closed for 10 min, below 0.98 of its admission limit and above its floor announces PLACING again. -/
def Obligations.MembershipCommands : Prop :=
  (∀ (h : Hdr) (b : ProbeB) (s t u : State), receives s = true → accept h (gramOf (.probe b)) s = (some t, u) →
    exec (.probe h b) s = .next (settle (onProbe h b t))) ∧
  (∀ (h : Hdr) (b : ProbeB) (s t u : State), receives s = true → accept h (gramOf (.probeAck b)) s = (some t, u) →
    exec (.probeAck h b) s = .next (settle (onProbeAck h b t))) ∧
  (∀ (h : Hdr) (b : ProbeB) (s t u : State), receives s = true → accept h (gramOf (.probeRequest b)) s = (some t, u) →
    exec (.probeRequest h b) s = .next (settle (onProbeRequest h b t))) ∧
  (∀ (h : Hdr) (d : Nat) (s t u : State), receives s = true → accept h (gramOf (.viewDigest d)) s = (some t, u) →
    exec (.viewDigest h d) s = .next (settle (onViewDigest h.slot d t))) ∧
  (∀ (h : Hdr) (us : List MUpdate) (s t u : State), hears s = true → accept h (gramOf (.viewSync us)) s = (some t, u) →
    exec (.viewSync h us) s = .next (settle (onViewSync h.slot us t))) ∧
  (∀ (targets : List Nat) (s a : State), receives s = true → s.ice.probeAt + 10000000 ≤ s.now → drawn 4 (aliveOthers s) targets = true →
    a = (if 0 < s.ice.ownLeft then refreshGroups s else s) →
    exec (.probeTimer targets) s = .next (settle (targets.foldl (fun t x => probeSlot x t) { a with ice := { a.ice with probeAt := s.now } }))) ∧
  (∀ (pid : Nat) (helpers : List Nat) (p : Probing) (s : State), silentProbe s pid = some p → receives s = true →
    drawn 3 ((aliveOthers s).filter (· != p.target)) helpers = true →
    exec (.probeAckTimeout pid helpers) s = .next (settle (probeBy p.target pid helpers (probeFailed (fun q => q == p) s)))) ∧
  (∀ (pid x : Nat) (s t : State), relayOver s pid = some x → receives s = true → t = probeFailed (fun q => q.pid == pid && q.helper.isSome && q.result == 0) s →
    exec (.probeRequestTimeout pid) s = .next (settle (if s.ice.probes.any (fun q => q.pid == pid && q.helper.isSome && q.result == 1) ∨ t.ice.isolated
      then t else suspect x t))) ∧
  (∀ (slot : Nat) (v : VSlot) (r : Roster) (s : State), viewOf s slot = some v → rosterOf s = some r → receives s = true → s.ice.isolated = false → v.suspected = true →
    alive v.state = true → s.ice.slot = some v.marker → v.time + secNs r.lossS ≤ s.now →
    exec (.lossTimeout slot) s = .next (settle (changeView (putView { slot := slot, state := .lost, suspected := false, inc := v.inc, time := s.now } v.marker)
      (record 0x5011 (pathSlot slot) (le 2 slot) s)))) ∧
  (∀ (slot : Nat) (s : State), receives s = true → s.ice.digestAt + 1000000000 ≤ s.now → (aliveOthers s).contains slot = true →
    exec (.digestTimer slot) s = .next (milmo slot 7 (.viewDigest (viewDigestOf s)) { s with ice := { s.ice with digestAt := s.now } })) ∧
  (∀ s : State, hears s = true → s.ice.viewed = false → s.ice.syncAt + 1000000000 ≤ s.now →
    exec .viewSyncRetry s = .next (if s.ice.syncFrom + 10000000000 ≤ s.now then { s with ice := { s.ice with viewed := true, view := [] } }
      else if s.ice.syncTries < 3 then askView s else s)) ∧
  (∀ s : State, receives s = true → s.ice.own = .closed → causesNow s = [] → s.ice.closedAt + secNs 600 ≤ s.now →
    100 * entries s.kw < 98 * admissionLimit s.kw.dram → threshold s (mediaOf s).floor < freeF s →
    exec .placingReannounce s = .next (refreshGroups (refreshItems (refreshWaiting (announceOwn .placing { s with ice := { s.ice with causes := [], causesEnded := none } })))))

/-- The datagrams of a Store take effect once accepted. An accepted fragment, acknowledgement, commit request, intent, intent acknowledgement, confirm, commit notice, abort notice and status query is handled (onFragment, onFragmentAck, onCommitRequest, onCommitIntent, onIntentAck, entryConfirm, onCommitNotice, onAbortNotice, onStatusQuery) in the state in which it was accepted. -/
def Obligations.StoreDatagrams : Prop :=
  (∀ (h : Hdr) (b : FragB) (s t u : State), receives s = true → accept h (gramOf (.fragment b)) s = (some t, u) →
    exec (.fragment h b) s = .next (settle (onFragment h.slot b t))) ∧
  (∀ (h : Hdr) (b : AckB) (s t u : State), receives s = true → accept h (gramOf (.fragmentAck b)) s = (some t, u) →
    exec (.fragmentAck h b) s = .next (settle (onFragmentAck h.slot b t))) ∧
  (∀ (h : Hdr) (b : CtlB) (s t u : State), receives s = true → accept h (gramOf (.commitRequest b)) s = (some t, u) →
    exec (.commitRequest h b) s = .next (settle (onCommitRequest h.slot b t))) ∧
  (∀ (h : Hdr) (b : CtlB) (s t u : State), receives s = true → accept h (gramOf (.commitIntent b)) s = (some t, u) →
    exec (.commitIntent h b) s = .next (settle (onCommitIntent h.slot b t))) ∧
  (∀ (h : Hdr) (b : CtlB) (s t u : State), receives s = true → accept h (gramOf (.intentAck b)) s = (some t, u) →
    exec (.intentAck h b) s = .next (settle (onIntentAck h.slot b t))) ∧
  (∀ (h : Hdr) (b : CtlB) (s t u : State), receives s = true → accept h (gramOf (.commitConfirm b)) s = (some t, u) →
    exec (.commitConfirm h b) s = .next (settle (entryConfirm b t))) ∧
  (∀ (h : Hdr) (b : CtlB) (s t u : State), receives s = true → accept h (gramOf (.commitNotice b)) s = (some t, u) →
    exec (.commitNotice h b) s = .next (settle (onCommitNotice b t))) ∧
  (∀ (h : Hdr) (b : CtlB) (s t u : State), receives s = true → accept h (gramOf (.abortNotice b)) s = (some t, u) →
    exec (.abortNotice h b) s = .next (settle (onAbortNotice h.slot b t))) ∧
  (∀ (h : Hdr) (b : CtlB) (s t u : State), receives s = true → accept h (gramOf (.statusQuery b)) s = (some t, u) →
    exec (.statusQuery h b) s = .next (settle (onStatusQuery h.slot b t)))

/-- The timers of a Store, a version and a pending item. A chunk of `lateChunk` sends its later positions at once. A position of `silentPos` is sent again while it had fewer than 3 resends, and moves on after them; the version request goes again beside it where no version has come and the fragment did not carry it. A version pending for 2 s is aborted; an abort notice goes again to the holders that have not acknowledged after 200 µs. A Store whose level is not reached 2 s after its version ends with Store Aborted. A commit request goes again after 200 µs, to the succeeding coordinator when its own is LOST. A holder asks for the state of an item not settled 2.5 s after its acknowledgement, at the earliest every second. A Store that waited behind two pending entries of its key is taken as its fragment once it need not wait. -/
def Obligations.StoreTimers : Prop :=
  (∀ (id n : Nat) (e : EStore) (x : EChunk) (s : State), lateChunk s id n = some (e, x) → receives s = true →
    exec (.d2DispatchTimeout id n) s = .next (settle ((laterPositions e x).foldl (fun t p => sendPos false id n p (dropBulk id n p t))
      (onStore id (onChunk n (fun y => { y with allSent := true })) s)))) ∧
  (∀ (id n p : Nat) (e : EStore) (y : EPos) (s t u : State), silentPos s id n p = some (e, y) → receives s = true →
    t = (if y.resends < 3 then sendPos false id n p (onStore id (onChunk n (onPos p (fun q => { q with resends := q.resends + 1 }))) s) else movePos id n p s) →
    u = (if n = 0 ∧ p = 0 ∧ e.version = 0 ∧ carriesRequest e 0 y = false then requestVersion id t else t) →
    exec (.fragmentResend id n p) s = .next (settle (advance id u))) ∧
  (∀ (ns version : Nat) (key : Key) (r : CoRec) (v : CoVer) (s : State), verAt s ns key version = some (r, v) → receives s = true → v.st = 1 → v.assignedAt + 2000000000 ≤ s.now →
    exec (.versionAbortTimer ns key version) s = .next (settle (abortVersion r v s))) ∧
  (∀ (ns version : Nat) (key : Key) (r : CoRec) (v : CoVer) (s : State), verAt s ns key version = some (r, v) → receives s = true → v.st = 4 → v.unacked ≠ [] → v.sentAt + 200000 ≤ s.now →
    exec (.abortNoticeResend ns key version) s = .next (settle (milmoAll v.unacked 7 (.abortNotice (ctlOf r { v with commitTime := 0 } 0 0xFFFF))
      (setRec (onVer version (fun (x : CoVer) => { x with sentAt := s.now }) r) s)))) ∧
  (∀ (id : Nat) (e : EStore) (s : State), storeBy s id = some e → receives s = true → e.stage = 1 → e.version ≠ 0 → e.versionAt + 2000000000 ≤ s.now →
    exec (.storeLevelTimeout id) s = .next (settle (failStore e stStoreAborted 0 s))) ∧
  (∀ (id c : Nat) (e : EStore) (s : State), storeBy s id = some e → receives s = true → e.stage = 2 → e.commitAt + 200000 ≤ s.now →
    c = (if slotState s e.coord = .lost then coordSlot s e.ns e.key else e.coord) →
    exec (.commitRequestResend id) s = .next (settle (milmo c 7 (.commitRequest (entryCtl e (valueLevel s e) 0xFFFF true))
      (onStore id (fun x => { x with commitAt := s.now, coord := c }) s)))) ∧
  (∀ (id n : Nat) (i : Item) (s : State), unsettled s id n = some i → receives s = true → i.ackAt + 2500000000 ≤ s.now → i.queryAt + 1000000000 ≤ s.now →
    exec (.holderStatusQuery id n) s = .next (settle (milmo (coordSlot s i.ns i.key) 7 (.statusQuery
        { storeId := id, version := i.version, ns := i.ns, chunks := chunkCount i.valueLen, level := i.ack, result := 0, pos := 0xFFFF, commitTime := 0, key := i.key })
      { s with kw := { s.kw with items := updIf (fun x => isItem i x) (fun x => { x with queryAt := s.now }) s.kw.items } }))) ∧
  (∀ (ns chunk : Nat) (key : Key) (w : WaitStore) (s : State), mayProceed s ns chunk key = some w → receives s = true →
    exec (.keywayPendingWaitEnd ns chunk key) s = .next (settle (onFragment w.from_ w.frag { s with kw := { s.kw with waits := s.kw.waits.filter (fun x => x != w) } })))

/-- The datagrams and timers of reads, durability queries and listings. An accepted Locate, its reply, a Read Request, Read Data, a Durability Query, its reply, a gather request and its reply is handled (onLocate, onLocateReply, onReadRequest, takeData, onDurQuery, onDurReply, onGatherRequest, takeGather). A piece without data for 1 ms fails (`pieceFails`). The request of a gather of `gatherDue` goes to the slot again, from the slot's own cursor where entries have come and the slot has more. -/
def Obligations.ReadsAndListings : Prop :=
  (∀ (h : Hdr) (b : LocB) (s t u : State), receives s = true → accept h (gramOf (.locate b)) s = (some t, u) →
    exec (.locate h b) s = .next (settle (onLocate h.slot b t))) ∧
  (∀ (h : Hdr) (res hint : Nat) (rs : List StripeB) (s t u : State), receives s = true → accept h (gramOf (.locateReply res hint rs)) s = (some t, u) →
    exec (.locateReply h res hint rs) s = .next (settle (onLocateReply h.slot res hint rs t))) ∧
  (∀ (h : Hdr) (b : LocB) (s t u : State), receives s = true → accept h (gramOf (.readRequest b)) s = (some t, u) →
    exec (.readRequest h b) s = .next (settle (onReadRequest h.slot b t))) ∧
  (∀ (h : Hdr) (b : FragB) (s t u : State), receives s = true → accept h (gramOf (.readData b)) s = (some t, u) →
    exec (.readData h b) s = .next (settle (takeData h.slot b t))) ∧
  (∀ (h : Hdr) (b : LocB) (s t u : State), receives s = true → accept h (gramOf (.durabilityQuery b)) s = (some t, u) →
    exec (.milmoDurabilityQuery h b) s = .next (settle (onDurQuery h.slot b t))) ∧
  (∀ (h : Hdr) (res hint : Nat) (r : DurRec) (s t u : State), receives s = true → accept h (gramOf (.durabilityReply res hint r)) s = (some t, u) →
    exec (.durabilityReply h res hint r) s = .next (settle (onDurReply h.slot res hint r t))) ∧
  (∀ (h : Hdr) (b : GatherB) (s t u : State), receives s = true → accept h (gramOf (.gatherRequest b)) s = (some t, u) →
    exec (.listingGatherRequest h b) s = .next (settle (onGatherRequest h.slot b t))) ∧
  (∀ (h : Hdr) (b : GatherB) (s t u : State), receives s = true → accept h (gramOf (.gatherReply b)) s = (some t, u) →
    exec (.listingGatherReply h b) s = .next (settle (takeGather h.slot b t))) ∧
  (∀ (id n p : Nat) (s : State), receives s = true → silentPiece s id n p = true → exec (.readRequestTimeout id n p) s = .next (settle (pieceFails id n p s))) ∧
  (∀ (id slot : Nat) (g : Gather) (c : Option (List Byte)) (s : State), gatherDue s id slot = some g → receives s = true →
    c = (if g.entries.isEmpty then none else (g.more.find? (fun m => m.1 == slot)).map (fun m => m.2.2)) →
    exec (.listingGatherResend id slot) s = .next (settle (milmo slot 5 (.gatherRequest (gatherAsk g c)) (onGather id (fun g => { g with
      asked := g.asked.map (fun a => if a.1 = slot then (a.1, a.2.1 + 1, s.now) else a) }) s))))

/-- The datagrams of succession, handover and repair. An accepted Record Query, its reply, a Floor Notice and its acknowledgement, an Orphan Notice, a Handover Record, a Holder Return and a Repair Order is handled (onRecordQuery, onRecordReply, onFloorNotice, raiseAnswered, onOrphan, onHandover, onHolderReturn, onRepairOrder); so is a local media failure reported by a slot of the roster (onMediaFailure). -/
def Obligations.SuccessionDatagrams : Prop :=
  (∀ (h : Hdr) (b : LocB) (s t u : State), receives s = true → accept h (gramOf (.recordQuery b)) s = (some t, u) →
    exec (.recordQuery h b) s = .next (settle (onRecordQuery h.slot b t))) ∧
  (∀ (h : Hdr) (rs : List StripeB) (floor : Nat) (s t u : State), receives s = true → accept h (gramOf (.recordReply rs floor)) s = (some t, u) →
    exec (.recordReply h rs floor) s = .next (settle (onRecordReply h.slot rs floor t))) ∧
  (∀ (h : Hdr) (bin floor : Nat) (s t u : State), receives s = true → accept h (gramOf (.floorNotice bin floor)) s = (some t, u) →
    exec (.floorNotice h bin floor) s = .next (settle (onFloorNotice h.slot bin floor t))) ∧
  (∀ (h : Hdr) (bin floor : Nat) (s t u : State), receives s = true → accept h (gramOf (.floorAck bin floor)) s = (some t, u) →
    exec (.floorAck h bin floor) s = .next (settle (raiseAnswered h.slot bin floor t))) ∧
  (∀ (h : Hdr) (b : StripeB) (s t u : State), receives s = true → accept h (gramOf (.orphanNotice b)) s = (some t, u) →
    exec (.orphanNotice h b) s = .next (settle (onOrphan h.slot b t))) ∧
  (∀ (h : Hdr) (b : StripeB) (floor : Nat) (s t u : State), receives s = true → accept h (gramOf (.handoverRecord b floor)) s = (some t, u) →
    exec (.handoverRecord h b floor) s = .next (settle (onHandover b floor t))) ∧
  (∀ (h : Hdr) (b : StripeB) (keep : Option Bool) (s t u : State), receives s = true → accept h (gramOf (.holderReturn b keep)) s = (some t, u) →
    exec (.holderReturn h b keep) s = .next (settle (onHolderReturn h.slot b keep t))) ∧
  (∀ (h : Hdr) (b : StripeB) (pos : Nat) (s t u : State), receives s = true → accept h (gramOf (.repairOrder b pos)) s = (some t, u) →
    exec (.repairOrder h b pos) s = .next (settle (onRepairOrder h.slot b pos t))) ∧
  (∀ (slot pos : Nat) (b : StripeB) (s : State), receives s = true → (rosterEntry s slot).isSome = true →
    exec (.localMediaFailureReport slot b pos) s = .next (settle (onMediaFailure b pos s)))

/-- Timers of succession and repair, and the leases of bulk traffic. Floor notices due go again to the slots that have not answered. A former coordinator whose bin is resolved and sent (`finalDue`) sends its final record with the bin's floor, and the requests held for that bin follow it. Items of a known namespace offered back and not kept for 24 h are removed. A repair that found too few survivors is planned again after 10 s, unless repairs are withheld. A slot that now places lets this pair compare each committed version of every bin that it coordinates (`rebalanceVer`), unless moves are withheld. An accepted lease request and permit is handled (onLeaseRequest, onPermit). Every 1 ms each sender with a lease is sent a permit at the rates of all leases, and leases wanted are asked for. A lease without a permit for 5 ms ends. A calendar slot lets the leases that follow the calendar, and whose receivers it admits, send. -/
def Obligations.RepairHandoverAndLeases : Prop :=
  (∀ (bin : Nat) (s : State), receives s = true → raisesDue s bin ≠ [] →
    exec (.floorNoticeResend bin) s = .next ((raisesDue s bin).foldl (fun t x => milmoAll x.waits 7 (.floorNotice bin x.floor) t)
      { s with ice := { s.ice with raises := updIf (fun x => x.bin == bin && decide (x.at_ + resendNs ≤ s.now)) (fun x => { x with at_ := s.now }) s.ice.raises } })) ∧
  (∀ (bin x : Nat) (s a : State), finalDue s bin = some x → receives s = true →
    a = sendBulk x 2 (.handoverRecord (finalRecord bin) ((aGet bin s.ice.floors).getD 0)) (mirror (.milmoState [.final x bin])
      { s with ice := { s.ice with finals := s.ice.finals ++ [(x, bin)], handHeld := s.ice.handHeld.filter (fun q => q.bin != bin) } }) →
    exec (.handoverFinal bin) s = .next (settle ((s.ice.handHeld.filter (fun q => q.bin == bin)).foldl (fun t q => forwardTo x q.from_ q.body t) a))) ∧
  (∀ (ns : Nat) (key : Key) (s : State), receives s = true → knownNs s ns = true → returnOver s ns key = true →
    exec (.holderReturnTimeout ns key) s = .next ((s.kw.items.filter (fun i => i.ns == ns && i.key == key && i.st == 2)).foldl (fun t i => removeItem 6 i t)
      { s with ice := { s.ice with returned := s.ice.returned.filter (fun x => ! (x.1 == ns && x.2.1 == key)) } })) ∧
  (∀ (ns : Nat) (key : Key) (s : State), receives s = true → classGranted s (unitLevel s (ofKind 13)) = true → repairsDue s ns key ≠ [] →
    exec (.repairRetry ns key) s = .next (settle ((repairsDue s ns key).foldl (fun t r =>
      planRead r.id (onRead r.id (fun r => { r with stage := 1, want := [], tried := (r.expected, r.len) :: r.got.map (fun g => (g.1, g.2.1)) }) t)) s))) ∧
  (∀ (slot : Nat) (s : State), receives s = true → classGranted s (unitLevel s (ofKind 15)) = true → (placingSet s).contains slot = true →
    exec (.rebalance slot) s = .next (settle (s.ice.recs.foldl (fun t r =>
      if roleFor t r.bin == .coordinates then (r.vers.filter (fun v => v.st == 2)).foldl (fun t v => rebalanceVer r v t) t else t) s))) ∧
  (∀ (h : Hdr) (b : LeaseB) (s t u : State), receives s = true → accept h (gramOf (.leaseRequest b)) s = (some t, u) →
    exec (.leaseRequest h b) s = .next (settle (onLeaseRequest h.slot b t))) ∧
  (∀ (h : Hdr) (b : LeaseB) (s t u : State), receives s = true → accept h (gramOf (.permit b)) s = (some t, u) →
    exec (.permit h b) s = .next (settle (onPermit h.slot b t))) ∧
  (∀ (s u : State), receives s = true → s.ice.permitAt + 1000000 ≤ s.now → u = { s with ice := { s.ice with granted := allRates s, permitAt := s.now } } →
    exec .permitTimer s = .next (settle (askWaiting (u.ice.granted.foldl (fun v l => sendPermit l v) u)))) ∧
  (∀ (id : Nat) (l : Lease) (s : State), s.ice.leases.find? (fun l => l.id == id && decide (l.last + 5000000 ≤ s.now)) = some l → receives s = true →
    exec (.leaseExpiry id) s = .next (mirror (.milmoState [.leaseEnd true l.id l.peer]) { s with ice := { s.ice with leases := s.ice.leases.filter (fun x => x != l) } })) ∧
  (∀ (s t : State), receives s = true → calendarOn s = true → s.ptp.locked = true → t = { s with ice := { s.ice with calSlot := some (s.now / 1000000, s.now % 1000000 / 4000) } } →
    exec (.calendarSlot (s.now / 1000000) (s.now % 1000000 / 4000)) s = .next ((t.ice.leases.filter (fun l => (leaseFor t l.peer l.queue).isSome && followsCalendar t l &&
      admits (mySlot t) l.peer (s.now / 1000000) (s.now % 1000000 / 4000))).foldl (fun u l => flushBulk l.peer l.queue u) t))

/-- The forwarding of an update from pair to pair. An accepted offer of a package staged or run here is answered with Staged (and the twin's turn), one that comes while staging is busy is refused with 13, one for which nothing comes in is pulled from its start, and one that repeats what is being pulled from that slot asks again. An accepted pull of the staged package, its forward bit set, is served with segments of at most 1 MiB. An accepted segment is kept only in order, from the slot and for the package pulled; a header block that arrives whole and fails a check is refused with its reason; the next MiB is asked for; a whole package is refused with 1 without a header block and with 12 for a digest, and else staged and answered. An accepted Staged answer of the target adds its mask and flags, and the chain is complete, 0x8222, when the target is the origin; a refusal of the target moves on to the next slot; a Confirmed from the slot the package came from opens the gate of its activation, and another about a package staged or run here is answered with Staged. Offers go to the target every second until its mask is complete; a target without progress for 600 s is left; forwarding is given up after 7 days; Confirmed goes to the target every 10 s until it confirms. -/
def Obligations.UpdateForwarding : Prop :=
  (∀ (h : Hdr) (b : FwdB) (have_ : Bool) (s t u : State), receives s = true → accept h (gramOf (.updateForward 1 b)) s = (some t, u) →
    have_ = ((match t.boot.staged with | some p => p.pkg.id == b.pkg | none => false) || runsConfirmed t b.pkg) →
    (have_ = true → exec (.updateOffer h b) s = .next (settle (twinTurn b (answerStaged h.slot b t)))) ∧
    (have_ = false → stagingBusy t.boot = true → exec (.updateOffer h b) s = .next (settle (refuseChain h.slot 13 b t))) ∧
    (∀ i : Incoming, have_ = false → stagingBusy t.boot = false → t.boot.incoming = some i →
      exec (.updateOffer h b) s = .next (settle (if i.source = 1 ∧ i.pkg = b.pkg ∧ i.from_ = h.slot then pullNext h.slot i t else t))) ∧
    (∀ i : Incoming, have_ = false → stagingBusy t.boot = false → t.boot.incoming = none →
      i = { bytes := [], refused := none, source := 1, from_ := h.slot, origin := b.origin, chain := b.chain, pkg := b.pkg, length := b.length, at_ := t.now } →
      exec (.updateOffer h b) s = .next (settle (pullNext h.slot i { t with boot := { t.boot with incoming := some i } })))) ∧
  (∀ (h : Hdr) (b : FwdB) (s t u : State), receives s = true → accept h (gramOf (.updateForward 2 b)) s = (some t, u) →
    (t.boot.staged = none → exec (.updatePull h b) s = .next (settle t)) ∧
    (∀ p : Staged, t.boot.staged = some p → exec (.updatePull h b) s = .next (settle
      (if p.pkg.id ≠ b.pkg ∨ p.forward = false ∨ p.pkg.length ≤ b.off then t
       else segments h.slot p.pkg (fwdBody t p.pkg.id p.pkg.length p.origin p.chain) 129 b.off
         (min (min b.ask (2 ^ 20)) (p.pkg.length - b.off)) (onForwarder (fun f => if f.target = some h.slot then { f with progressAt := t.now } else f) t))))) ∧
  (∀ (h : Hdr) (b : FwdB) (s t u : State), receives s = true → accept h (gramOf (.updateForward 3 b)) s = (some t, u) →
    (t.boot.incoming = none → exec (.updateSegment h b) s = .next (settle t)) ∧
    (∀ i : Incoming, t.boot.incoming = some i → (i.source ≠ 1 ∨ i.from_ ≠ h.slot ∨ i.pkg ≠ b.pkg ∨ b.off ≠ i.bytes.length ∨ b.data.isEmpty = true) →
      exec (.updateSegment h b) s = .next (settle t)) ∧
    (∀ i j : Incoming, ∀ v : State, t.boot.incoming = some i → i.source = 1 → i.from_ = h.slot → i.pkg = b.pkg → b.off = i.bytes.length → b.data.isEmpty = false →
      j = { i with bytes := i.bytes ++ b.data, at_ := t.now } → v = { t with boot := { t.boot with incoming := some j } } →
      (∀ r : Nat, blockDone j.bytes = true → blockDone i.bytes = false → chainReason t i j.bytes = some r →
        exec (.updateSegment h b) s = .next (settle (refuseChain h.slot r b t))) ∧
      ((blockDone j.bytes = true → blockDone i.bytes = false → chainReason t i j.bytes = none) →
        (j.bytes.length < j.length →
          exec (.updateSegment h b) s = .next (settle (if j.bytes.length % 2 ^ 20 = 0 then pullNext h.slot j v else v))) ∧
        (j.length ≤ j.bytes.length → blockDone j.bytes = false → exec (.updateSegment h b) s = .next (settle (refuseChain h.slot 1 b v))) ∧
        (j.length ≤ j.bytes.length → blockDone j.bytes = true → digestsOk (packageOf j.bytes) = false →
          exec (.updateSegment h b) s = .next (settle (refuseChain h.slot 12 b v))) ∧
        (j.length ≤ j.bytes.length → blockDone j.bytes = true → digestsOk (packageOf j.bytes) = true →
          exec (.updateSegment h b) s = .next (settle (answerStaged h.slot b (stagePackage
            { pkg := packageOf j.bytes, forward := true, chain := i.chain, at_ := t.now, source := 1, origin := i.origin, from_ := h.slot } false v))))))) ∧
  (∀ (h : Hdr) (b : FwdB) (s t u : State), receives s = true → accept h (gramOf (.updateForward 4 b)) s = (some t, u) →
    (spreads t b.pkg = none ∨ t.boot.forwarder = none → exec (.updateStaged h b) s = .next (settle t)) ∧
    (∀ (p : Staged) (f g : Forwarder), spreads t b.pkg = some p → t.boot.forwarder = some f →
      g = { f with mask := b.mask.foldl (fun l x => sIns x l) f.mask, solo := f.solo || b.solo, confirmed := f.confirmed || b.confirmed, progressAt := t.now } →
      exec (.updateStaged h b) s = .next (settle (if f.target ≠ some h.slot then t
        else if maskFull g = true ∧ g.stopped = false ∧ h.slot = p.origin then
          record 0x8222 pathPkg (le 2 p.origin ++ le 16 b.pkg) (onForwarder (fun f => { f with stopped := true }) { t with boot := { t.boot with forwarder := some g } })
        else { t with boot := { t.boot with forwarder := some g } })))) ∧
  (∀ (h : Hdr) (b : FwdB) (s t u : State), receives s = true → accept h (gramOf (.updateForward 5 b)) s = (some t, u) →
    (t.boot.staged = none ∨ t.boot.forwarder = none → exec (.updateRefused h b) s = .next (settle t)) ∧
    (∀ (p : Staged) (f : Forwarder), t.boot.staged = some p → t.boot.forwarder = some f →
      exec (.updateRefused h b) s = .next (settle (if p.pkg.id = b.pkg ∧ f.target = some h.slot ∧ f.stopped = false then moveOn h.slot b.pkg 1 t else t)))) ∧
  (∀ (h : Hdr) (b : FwdB) (s t u : State), receives s = true → accept h (gramOf (.updateForward 6 b)) s = (some t, u) →
    (t.boot.staged = none → exec (.updateConfirmed h b) s = .next (settle (if runsConfirmed t b.pkg = true then answerStaged h.slot b t else t))) ∧
    (∀ p : Staged, t.boot.staged = some p → exec (.updateConfirmed h b) s = .next (settle
      (if p.pkg.id = b.pkg ∧ p.chain = true ∧ p.source = 1 ∧ p.from_ = h.slot then activationProgress { t with boot := { t.boot with gate := some h.slot } }
       else if p.pkg.id = b.pkg then answerStaged h.slot b t else t)))) ∧
  (∀ (p : Staged) (f : Forwarder) (x : Nat) (s a : State), forwards s = some p → a = keepTarget p.pkg.id s → a.boot.forwarder = some f → f.target = some x →
    exec .offerTimer s = .next (if f.stopped = true ∨ maskFull f = true ∨ a.now < f.offerAt + 1000000000 then a
      else sendFwd x 1 { fwdBody a p.pkg.id p.pkg.length p.origin p.chain with mask := f.mask } (onForwarder (fun f => { f with offerAt := a.now }) a))) ∧
  (∀ (p : Staged) (f : Forwarder) (x : Nat) (s : State), forwards s = some p → s.boot.forwarder = some f → f.target = some x → f.stopped = false →
    maskFull f = false → f.progressAt + 600000000000 ≤ s.now → exec .pullProgressTimeout s = .next (moveOn x p.pkg.id 3 s)) ∧
  (∀ (p : Staged) (f : Forwarder) (s : State), forwards s = some p → s.boot.forwarder = some f → f.stopped = false → p.at_ + 604800000000000 ≤ s.now →
    exec .chainGiveUp s = .next (record 0x8221 (pathSlot (f.target.getD 0xFFFF)) (le 2 (f.target.getD 0xFFFF) ++ le 1 4)
      (onForwarder (fun f => { f with stopped := true }) s))) ∧
  (∀ (p : Staged) (f : Forwarder) (x : Nat) (s a : State), s.boot.spread = some p → running s = true → holdsPair s = true → p.forward = true →
    pairConfirmed s p = true → a = keepTarget p.pkg.id s → a.boot.forwarder = some f → f.target = some x →
    exec .confirmedTimer s = .next (if f.confirmed = true ∨ a.now < f.confirmAt + 10000000000 then a
      else sendFwd x 6 (fwdBody a p.pkg.id p.pkg.length p.origin p.chain) (onForwarder (fun f => { f with confirmAt := a.now }) a)))

/-- HOLD lines and beats. HOLD_IN rising while HOLD_OUT is driven is a collision (`collide`); otherwise a device that does not run only notes it, a yielded one that watched for it starts the tests of what gave rise to its criterion (`yieldSites`), a STANDBY that still sends the release beat sends the normal one, and any other joins if it waits (`waitJoin`). Falling, the line clears a collision; a fall of a line that is low lets drivers and terminations follow the gate (`followGate`). ROLE A that still sees HOLD_IN high, with HOLD_OUT driven, 10 ms after a collision releases with 0x4052, and takes its role after 1 s, or none after three within a minute. A feed is noted; a normal edge, 3.96 µs or more after the last, needs one (`missedFeed` else). 12 µs after the last edge drivers, terminations, HOLD_OUT and the beat are off. An edge of BEAT_IN no more than 1 µs after the last is the release beat, another the normal one, and 16 µs without an edge is silence; a running device checks its signals and gains or loses its STANDBY by them. -/
def Obligations.HoldAndBeat : Prop :=
  (∀ (s t : State), s.keeper.holdIn = false → s.keeper.phase ≠ .off → t = { s with keeper := { s.keeper with holdIn := true, holdInAt := s.now } } →
    (s.keeper.holdOut = true → exec .holdInRise s = .next (collide t)) ∧
    (s.keeper.holdOut = false → running s = false → exec .holdInRise s = .next t) ∧
    (s.keeper.holdOut = false → running s = true → s.twin.roleState = .yielded → s.twin.yieldAt.isSome = true →
      exec .holdInRise s = .next ((yieldSites t).foldl (fun u x => startTest x 2 u) { t with twin := { t.twin with yieldAt := none } })) ∧
    (s.keeper.holdOut = false → running s = true → s.twin.roleState = .standby → s.keeper.beatOut = .release →
      exec .holdInRise s = .next { t with keeper := { t.keeper with beatOut := .normal, beatOutAt := s.now } }) ∧
    (s.keeper.holdOut = false → running s = true → ¬ (s.twin.roleState = .yielded ∧ s.twin.yieldAt.isSome = true) →
      ¬ (s.twin.roleState = .standby ∧ s.keeper.beatOut = .release) → exec .holdInRise s = .next (waitJoin t))) ∧
  (∀ s : State, s.keeper.phase ≠ .off → s.keeper.holdIn = true →
    exec .holdInFall s = .next { s with keeper := { s.keeper with holdIn := false, holdInAt := s.now }, twin := { s.twin with collision := none } }) ∧
  (∀ s : State, s.keeper.phase ≠ .off → s.keeper.holdIn = false → exec .holdInFall s = .next (followGate s)) ∧
  (∀ (c : Nat) (cs : List Nat) (s a : State), s.twin.collision = some c → running s = true → s.keeper.role = 0 → s.keeper.holdIn = true → s.keeper.holdOut = true →
    c + 10000000 ≤ s.now → cs = recentCollisions s ++ [s.now] →
    a = record 0x4052 pathTwin (le 1 1 ++ le 1 s.keeper.role ++ le 1 cs.length) (releaseHold s) →
    exec .holdCollisionTimeout s = .next { a with
      start := { a.start with step := 0, lend := 0 }
      twin := { a.twin with
        collision := none, collisions := cs, healthy := false, takeover := none, resume := [], noRole := a.twin.noRole || decide (3 ≤ cs.length)
        roleState := if 3 ≤ cs.length then .yielded else .unassigned
        retakeAt := if 3 ≤ cs.length then none else some (a.now + 1000000000) } }) ∧
  (∀ s : State, running s = true → exec .keeperFeed s = .next { s with keeper := { s.keeper with fed := true, fedAt := s.now } }) ∧
  (∀ s : State, running s = true → s.keeper.beatOut = .normal → s.keeper.beatOutAt + 3960 ≤ s.now →
    exec .beatEdge s = .next (if s.keeper.fed then { s with keeper := { s.keeper with fed := false, beatOutAt := s.now } } else missedFeed s)) ∧
  (∀ s : State, s.keeper.holdOut = true ∨ s.keeper.drivers = true → s.keeper.beatOutAt + 12000 ≤ s.now →
    exec .holdDriverTimer s = .next (noteHold s
      { s with keeper := { s.keeper with holdOut := false, drivers := false, terms := false, beatOut := .none }, start := { s.start with service := false } })) ∧
  (∀ s t : State, s.keeper.phase ≠ .off → s.now ≤ s.keeper.beatInAt + 1000 → t = { s with keeper := { s.keeper with beatIn := .release, beatInAt := s.now } } →
    exec .beatInEdge s = .next (if running t = true then loseStandby 4 t else t)) ∧
  (∀ s t : State, s.keeper.phase ≠ .off → s.keeper.beatInAt + 1000 < s.now → t = { s with keeper := { s.keeper with beatIn := .normal, beatInAt := s.now } } →
    exec .beatInEdge s = .next (if running t = true then waitJoin (gainStandby (checkSignals t)) else t)) ∧
  (∀ s t : State, s.keeper.phase ≠ .off → s.keeper.beatInAt + 16000 ≤ s.now → t = { s with keeper := { s.keeper with beatIn := .silent } } →
    exec .beatInSilent s = .next (if running t = true then checkSignals (loseStandby 4 t) else t))

/-- Takeover and yield. A STANDBY whose conditions hold (`mayTake`), no lend of its buses under way, takes over if it is healthy; if it is not, it notes the time, and takes its role afresh once they have held for 1 ms. 0x9420 names the step that a takeover not complete after 32 µs has reached. A criterion of Table 10.10 that becomes true makes a STANDBY not healthy, makes an ACTIVE that may yield yield unless the hinge retrains, and makes another ACTIVE record 0x4022; an ACTIVE that does not yield and a SOLO device whose criterion cuts it off stop serving; any other device only notes it. A yielded device whose HOLD_IN has not risen 20 µs after the yield resumes with 0x4022, reason 2. 1 ms after a keeper release a warm start is due. A Health Report older than 100 µs loses the STANDBY, unless the hinge retrains. -/
def Obligations.TakeoverAndYield : Prop :=
  (∀ s : State, running s = true → s.twin.roleState = .standby → s.start.lend = 0 → mayTake s = true →
    (s.twin.healthy = true → exec .takeoverTrigger s = .next (takeOver (takeCause s) s)) ∧
    (s.twin.healthy = false → s.twin.retakeSince = none → exec .standbyRoleRetake s = .next { s with twin := { s.twin with retakeSince := some s.now } }) ∧
    (∀ t, s.twin.healthy = false → s.twin.retakeSince = some t →
      exec .standbyRoleRetake s = .next (if t + 1000000 ≤ s.now then roleAfresh { s with twin := { s.twin with retakeSince := none } } else s))) ∧
  (∀ (t n : Nat) (s : State), running s = true → s.twin.takeover = some (t, n, false) → t + 32000 ≤ s.now →
    exec .takeoverMonitor s = .next (record 0x9420 (pathMonitor 0) (le 1 n) { s with twin := { s.twin with takeover := some (t, n, true) } })) ∧
  (∀ (c d : Nat) (s t : State), running s = true → criterionShown c s = true → s.twin.criterion ≠ c →
    t = { s with twin := { s.twin with criterion := c, detail := d }, boot := { s.boot with spoiled := true } } →
    (s.twin.roleState = .standby → exec (.yieldCriterion c d) s = .next { t with twin := { t.twin with healthy := false } }) ∧
    (s.twin.roleState = .active → s.twin.trainSince = none → mayYield t = true → exec (.yieldCriterion c d) s = .next (doYield c d t)) ∧
    (s.twin.roleState = .active → s.twin.trainSince.isSome = true → exec (.yieldCriterion c d) s = .next t) ∧
    (∀ u, s.twin.roleState = .active → s.twin.trainSince = none → mayYield t = false → u = record 0x4022 pathTwin (le 1 c ++ le 1 1) t →
      exec (.yieldCriterion c d) s = .next (if cutsOff c d then { u with start := { u.start with stoppedServing := true } } else u)) ∧
    (s.twin.roleState = .solo → exec (.yieldCriterion c d) s = .next (if cutsOff c d then { t with start := { t.start with stoppedServing := true } } else t)) ∧
    (s.twin.roleState ≠ .active → s.twin.roleState ≠ .standby → s.twin.roleState ≠ .solo → exec (.yieldCriterion c d) s = .next t)) ∧
  (∀ (t : Nat) (s : State), running s = true → s.twin.yieldAt = some t → s.twin.roleState = .yielded → s.keeper.holdIn = false → t + 20000 ≤ s.now →
    exec .yieldReturnTimeout s = .next (record 0x4022 pathTwin (le 1 s.twin.criterion ++ le 1 2) (resumeActive s))) ∧
  (∀ (t : Nat) (s : State), running s = true → s.twin.keeperRelease = some t → t + 1000000 ≤ s.now →
    exec .keeperReleaseRestart s = .next { s with keeper := { s.keeper with warmDue := some .keeperRelease }, twin := { s.twin with keeperRelease := none } }) ∧
  (∀ s : State, running s = true → s.twin.trainSince = none → s.twin.reportAt + 100000 < s.now → exec .healthReportTimeout s = .next (loseStandby 5 s))

/-- The Hinge link. A healthy lane that fails while the link is up is retired (`retireHingeLane`). Training longer than 500 µs, or without a 4-lane group, takes a link that was up down (`withheld`), and ends the try of one that was down. A device that does not hold the pair and whose link to its configured twin is down trains again a second after its last try while HREFCLK runs. Training that completes at a width all of whose lanes are healthy opens the link, and the session that stands goes on (`linkBack`), or a twin is sent Hello. A flit of a bad CRC asks for a replay; one of an undefined kind is discarded; a good one acknowledges and carries credits, and a data flit counts if it is the one after the last good, and asks for a replay otherwise. A replay request resends from the one after the last good. An idle flit goes out 200 ns after the last, a Status frame 2 µs after the last, and the STANDBY's Health Report 50 µs after the last. -/
def Obligations.HingeLink : Prop :=
  (∀ (l : Nat) (s : State), running s = true → s.twin.linkUp = true → l < 16 → l ∉ s.twin.retired → exec (.linkLaneFail l) s = .next (retireHingeLane l s)) ∧
  (∀ (t : Nat) (s : State), running s = true → s.twin.trainSince = some t → t + 500000 < s.now ∨ widest s.twin.retired = 0 →
    (s.twin.linkUp = true → exec .linkRetrainTimeout s = .next (withheld 1 (linkDownNow 2 s))) ∧
    (s.twin.linkUp = false → exec .linkRetrainTimeout s = .next { s with twin := { s.twin with trainSince := none } })) ∧
  (∀ s : State, running s = true → holdsPair s = false → twinConfigured s = true → s.twin.linkUp = false → s.twin.trainSince = none → 1 ∉ s.pace.clocksLost →
    s.twin.triedAt + 1000000000 ≤ s.now →
    exec .linkRetrainRetry s = .next { s with twin := { s.twin with trainSince := some s.now, triedAt := s.now } }) ∧
  (∀ (w : Nat) (s t : State), running s = true → s.twin.linkUp = false ∨ s.twin.trainSince.isSome = true → 1 ∉ s.pace.clocksLost → w ∈ [4, 8, 16] → w ≤ widest s.twin.retired →
    t = { s with twin := { s.twin with linkUp := true, width := w, trainSince := none, triedAt := s.now } } →
    exec (.hingeTrainingComplete w) s = .next (if s.twin.session then linkBack t else if twinConfigured s then sendHello t else t)) ∧
  (∀ (seq ack kind credits : Nat) (s t : State), s.twin.linkUp = true →
    t = { s with twin := ackFlits ack (pumpFlits { s.twin with credits := min 16384 (s.twin.credits + 8 * credits) }) } →
    exec (.flitReceive seq ack kind credits false) s = .next (sendFlit 2 s) ∧
    (3 < kind → exec (.flitReceive seq ack kind credits true) s = .next s) ∧
    (kind = 0 ∨ kind = 2 ∨ kind = 3 → exec (.flitReceive seq ack kind credits true) s = .next t) ∧
    exec (.flitReceive seq ack 1 credits true) s = .next (if inOrder s seq = true then { t with twin := { t.twin with flitRx := seq, rxFree := t.twin.rxFree + 1 } } else sendFlit 2 t)) ∧
  (∀ (good : Nat) (s t : State), s.twin.linkUp = true → t = { s with twin := { ackFlits good s.twin with replays := s.twin.replays + 1 } } →
    exec (.replayRequest good) s = .next (emitNow (.flitBytes ((flitsFrom ((good + 1) % 65536) t.twin).flatMap (fun x => flitBytes x.1 t.twin.flitRx 1 0 x.2)))
      (emitNow (.flit 1 t.twin.flitRx ((good + 1) % 65536)) t))) ∧
  (∀ s : State, s.twin.linkUp = true → s.twin.flitAt + 200 ≤ s.now →
    exec .idleFlitTimer s = .next (sendFlit 0 { s with twin := { s.twin with flitAt := s.now } })) ∧
  (∀ s : State, s.twin.session = true → s.twin.statusSent + 2000 ≤ s.now → exec .hingeStatusTimer s = .next (sendStatus s)) ∧
  (∀ s : State, running s = true → s.twin.session = true → s.twin.roleState = .standby → s.twin.reportSent + 50000 ≤ s.now →
    exec .healthReportTimer s = .next (sendFrame (.health (myReport s)) { s with twin := { s.twin with reportSent := s.now } }))

/-- The link session's frames. A Hello during a planned takeover is noted; another ends a session that stands, begins one if it agrees, and is refused otherwise (`joinRefusal`). A refused join is tried again after 10 s. Status and, at a device that is no STANDBY, a Health Report are noted, and win or lose the STANDBY. An acknowledgement lets go what waits for it, and one that covers the Handoff ends a planned takeover. One 100 µs late records 0x9421, loses the STANDBY, releases everything held back and restarts the join, unless the hinge retrains. Join Stage moves the join: at a STANDBY that does not shut down 0 restarts it, 1 to 3 complete a stage and 0x10 borrows; at an ACTIVE 0 asks for it and 1 to 3 are noted; elsewhere, or at a STANDBY that shuts down, 0x10 lends to a device that waits and 0x11 ends a loan. A Yield names its criterion at a STANDBY. An undefined frame ends the session with 0x4031. Connections of the pair with unacknowledged data send Progress, and one sends again after a timeout. -/
def Obligations.SessionFrames : Prop :=
  (∀ (f : Nat) (b : HelloB) (s a : State), running s = true → s.twin.linkUp = true → twinConfigured s = true → a = (if s.twin.session then endSession s else s) →
    (s.twin.session = true → s.twin.handoff = true → exec (.hello f b) s = .next { s with twin := { s.twin with twinHello := some b } }) ∧
    (s.twin.session = false ∨ s.twin.handoff = false → joinRefusal b a = none → exec (.hello f b) s = .next (startProgress (beginSession f b a))) ∧
    (∀ r, s.twin.session = false ∨ s.twin.handoff = false → joinRefusal b a = some r →
      exec (.hello f b) s = .next (refuseJoin r (if a.twin.helloSent then a else sendHello a)))) ∧
  (∀ s : State, running s = true → s.twin.linkUp = true → s.twin.refused ≠ none → s.twin.session = false → s.twin.refusedAt + 10000000000 ≤ s.now →
    exec .joinRetry s = .next (sendHello { s with twin := { s.twin with refusedAt := s.now } })) ∧
  (∀ (f : Nat) (b : StatusB) (s t : State), running s = true → s.twin.session = true →
    t = gotFrame f { s with twin := { s.twin with status := some b, statusAt := s.now }, gauge := { s.gauge with aTwin := b.aDev } } →
    exec (.status f b) s = .next (checkExcess (standbyStatus b (if b.shutdown then loseStandby 1 t else gainStandby t)))) ∧
  (∀ (f : Nat) (b : HealthB) (s t : State), running s = true → s.twin.session = true → s.twin.roleState ≠ .standby →
    t = gotFrame f { s with twin := { s.twin with report := some b, reportAt := s.now } } →
    exec (.healthReport f b) s = .next (match reportDenies b with | some n => loseStandby n t | none => gainStandby t)) ∧
  (∀ (f held j : Nat) (s t : State), running s = true → s.twin.session = true → s.twin.roleState = .active →
    t = gotFrame f (ackedUpTo held { s with twin := { s.twin with applied := max s.twin.applied j } }) →
    (t.twin.planned = none → exec (.mirrorAck f held j) s = .next t) ∧
    (∀ n conn cid, t.twin.planned = some (n, conn, cid) →
      exec (.mirrorAck f held j) s = .next (if n ≤ held then afterPlanned conn cid (finishPlanned n t) else t))) ∧
  (∀ (f ty t : Nat) (rest : List (Nat × Nat × Nat)) (s b : State), s.twin.unacked = (f, ty, t) :: rest → running s = true → s.twin.roleState = .active →
    s.twin.trainSince = none → t + 100000 < s.now → b = releaseAll (loseStandby 3 (criticalMiss (record 0x9421 (pathMonitor 0) (le 8 f ++ le 1 ty) s))) →
    exec .mirrorAckDeadline s = .next (sendFrame (.joinStage 0 0) { b with twin := { b.twin with ackMissed := true, unacked := [], joinStage := 0 } })) ∧
  (∀ (f n u : Nat) (s t : State), running s = true → s.twin.session = true → t = gotFrame f s →
    (s.twin.roleState = .standby → inShutdown s = false → exec (.joinStage f n u) s = .next (if n = 0 then sendFrame (.joinStage 0 0) (resetJoin t)
      else if n ≤ 3 then stageDone n u t else if n = 0x10 then borrow t else t)) ∧
    (s.twin.roleState = .active → exec (.joinStage f n u) s = .next (if n = 0 then joinAsked t
      else if n ≤ 3 then { t with twin := { t.twin with joinStage := n, joinUnits := u } } else t)) ∧
    (s.twin.roleState ≠ .active → s.twin.roleState ≠ .standby ∨ inShutdown s = true → exec (.joinStage f n u) s = .next (
      if n = 0x10 ∧ t.start.waitSince.isSome = true then driveHold { t with start := { t.start with lend := 2, lendAt := t.now } }
      else if n = 0x11 ∧ t.start.lend = 1 then startProgress { t with start := { t.start with lend := 3 } } else t))) ∧
  (∀ (f c d t : Nat) (s : State), running s = true → s.twin.session = true → s.twin.roleState = .standby →
    exec (.yield f c d t) s = .next (gotFrame f { s with twin := { s.twin with twinYield := c } })) ∧
  (∀ (ty : Nat) (s : State), running s = true → s.twin.session = true →
    ty ∉ [0x01, 0x02, 0x03, 0x10, 0x11, 0x12, 0x13, 0x14, 0x15, 0x16, 0x17, 0x18, 0x20, 0x30, 0x31, 0x32, 0x33, 0x40, 0x41] →
    exec (.hingeInvalidFrame ty) s = .next (sendHello (endSession (record 0x4031 pathHinge (le 1 3) s)))) ∧
  (∀ (cs : List Conn) (s : State), running s = true → s.twin.session = true → s.twin.roleState = .active →
    cs = s.host.conns.filter (fun c => ! c.mgmt && decide (c.sndAck < c.sndNxt)) →
    exec .transportProgressTimer s = .next (if cs.isEmpty = true then s else sendFrame (.transport (cs.flatMap progressOf)) s)) ∧
  (∀ (n : Nat) (c : Conn) (s : State), connBy s n = some c → running s = true → c.sndAck < c.sndNxt →
    exec (.retransmissionTimeout n) s = .next (emit (.retransmit n c.sndAck) (if c.mgmt then s else mirror (.transport (progressOf c)) s)))

/-- Mirrored and copied frames. A frame that applies here (`applies`: a STANDBY in its session, the frame after the last) changes the state and is noted: Journal, Cornice Write, Transport, Operation, Milmo State, Settings and Handoff frames are also acknowledged, and the device becomes healthy if it may; Cornice Release, Counters, Flush Progress and the copies of a join are noted only. A frame that does not apply changes nothing; only a Settings frame at an ACTIVE is its twin's request for a power state, which is noted and mirrored. -/
def Obligations.MirroredFrames : Prop :=
  ∀ (f : Nat) (s : State), (applies f s = true →
    (∀ n rs, exec (.journal f n rs) s = .next (becomeHealthy (ackFrames (gotFrame f (reportGauge (applyJournal n rs s)))))) ∧
    (∀ i gs, exec (.corniceWrite f i gs) s = .next (becomeHealthy (ackFrames (gotFrame f { s with kw := { s.kw with
      cornice := gs.zipIdx.foldl (fun l p => aSet (i + p.2) p.1 l) s.kw.cornice } })))) ∧
    (∀ rs, exec (.corniceRelease f rs) s = .next (gotFrame f { s with kw := { s.kw with
      cornice := s.kw.cornice.filter (fun p => ! rs.any (fun r => decide (r.1 ≤ p.1) && decide (p.1 < r.1 + r.2))) } })) ∧
    (∀ es, exec (.transport f es) s = .next (becomeHealthy (ackFrames (gotFrame f (es.foldl applyTransport s))))) ∧
    (∀ es gone, exec (.operation f es gone) s = .next (becomeHealthy (ackFrames (gotFrame f (applyOps es gone s))))) ∧
    (∀ ms, exec (.milmoState f ms) s = .next (becomeHealthy (ackFrames (gotFrame f (ms.foldl applyMilmo s))))) ∧
    (∀ fs p feats, exec (.settings f fs p feats) s = .next (becomeHealthy (ackFrames (gotFrame f { s with
      host := { s.host with filters := fs }, power := { s.power with pstate := p, asked := none }, twin := { s.twin with feats := feats } })))) ∧
    (∀ cs, exec (.counters f cs) s = .next (gotFrame f { s with media := { s.media with rdcCopy := cs, copiedAt := s.now } })) ∧
    (∀ n i t, t = { s with power := { s.power with progress := some (n, i) } } → exec (.flushProgress f n i) s =
      .next (gotFrame f (if n < 2 then setSpill n { spillSet t n with state := 2, complete := false } t else t))) ∧
    (∀ rs es ops ms, exec (.copyFirn f rs es ops ms) s = .next (gotFrame f (applyCopyFirn rs es ops ms s))) ∧
    (∀ gs, exec (.copyCornice f gs) s = .next (gotFrame f { s with kw := { s.kw with cornice := gs.foldl (fun l p => aSet p.1 p.2 l) s.kw.cornice } })) ∧
    (∀ g t ws, exec (.copyGranule f g t ws) s = .next (gotFrame f (applyGranule g t ws s))) ∧
    (∀ l, exec (.handoff f l) s = .next (becomeHealthy (ackFrames (gotFrame f { s with twin := { s.twin with handoff := true, twinHello := none } }))))) ∧
  (applies f s = false →
    (∀ n rs, exec (.journal f n rs) s = .next s) ∧ (∀ i gs, exec (.corniceWrite f i gs) s = .next s) ∧ (∀ rs, exec (.corniceRelease f rs) s = .next s) ∧
    (∀ es, exec (.transport f es) s = .next s) ∧ (∀ es gone, exec (.operation f es gone) s = .next s) ∧ (∀ ms, exec (.milmoState f ms) s = .next s) ∧
    (∀ cs, exec (.counters f cs) s = .next s) ∧ (∀ n i, exec (.flushProgress f n i) s = .next s) ∧
    (∀ rs es ops ms, exec (.copyFirn f rs es ops ms) s = .next s) ∧ (∀ gs, exec (.copyCornice f gs) s = .next s) ∧
    (∀ g t ws, exec (.copyGranule f g t ws) s = .next s) ∧ (∀ l, exec (.handoff f l) s = .next s) ∧
    (¬ (running s = true ∧ s.twin.session = true ∧ s.twin.roleState = .active ∧ s.twin.rxSeq < f) → ∀ fs p feats, exec (.settings f fs p feats) s = .next s)) ∧
  (running s = true → s.twin.session = true → s.twin.roleState = .active → s.twin.rxSeq < f → ∀ fs p feats, exec (.settings f fs p feats) s =
    .next (mirrorSettings (ackFrames (gotFrame f { s with power := { s.power with asked := some (p % 4, s.now) } }))))

/-- The recorder's ring, keep-alive and the management interface. A trigger that stands (`writeTrigger`) begins a ring write of the whole buffer; what it took is in the ring when it completes; one more than 1 ms after its trigger records 0x9030 and goes on. A suppressed code whose summary is due gets its summary record. A controller without a command for its keep-alive timeout loses its association. The basic management block is answered while cores run, in RECOVERY, in DORMANT, and after sequencing failed past step 1. An NVMe-MI command, and a tunnelled Identify or Get Log Page, is answered over MCTP; another tunnelled command gets status 3, and an unknown log page status 2, which are the model's numbers (log 27). -/
def Obligations.RecorderAndManagement : Prop :=
  (∀ (t : Nat) (s : State), writeTrigger s = some t → s.mor.writing = none → running s = true → s.mor.buffer ≠ [] →
    exec .ringWrite s = .next { s with mor := beginWrite s.mor t }) ∧
  (∀ (n t : Nat) (b : Bool) (s : State), s.mor.writing = some (n, t, b) → running s = true →
    exec .ringWriteComplete s = .next (reportLost (onMor (fun m => endWrite m n) s))) ∧
  (∀ (n t : Nat) (s : State), s.mor.writing = some (n, t, false) → running s = true → t + 1000000 < s.now →
    exec .ringWriteDeadline s = .next (record 0x9030 (pathMonitor 0) [] { s with mor := { s.mor with writing := some (n, t, true) } })) ∧
  (∀ (code : Nat) (x : Suppr) (s : State), s.mor.supp.find? (fun x => decide (x.last.code = code)) = some x → running s = true →
    summaryDue (limOf s) s.mor s.now x = true → exec (.summaryRecordTimer code) s = .next (onMor (fun m => summarize m s.now x) s)) ∧
  (∀ (i : Nat) (c : Ctrl) (s : State), s.host.ctrls.find? (fun c => c.id == i) = some c → running s = true → c.kato ≠ 0 → c.seenAt + 1000000 * c.kato ≤ s.now →
    exec (.keepAliveTimeout i) s = .next (endAssociation i s)) ∧
  (∀ (c n : Nat) (s : State), running s = true ∨ s.keeper.phase = .recovery ∨ s.keeper.phase = .dormant ∨ (s.keeper.phase = .failed ∧ s.keeper.failStep ≠ 1) →
    exec (.nvmeMiBasicManagement c n) s = .next (emit (.smbus (((miBlock s).drop c).take n)) { s with free := s.free + 1 })) ∧
  (∀ (op : Nat) (args : List Nat) (r : Nat × List Byte × Nat) (s : State), running s = true → r = miAnswer s op args →
    exec (.nvmeMiCommand 0 op args) s = .next (emit (.mctp r.1 r.2.1) { s with free := s.free + 1, host := { s.host with smbusKhz := r.2.2 } })) ∧
  (∀ (cns nsid csi : Nat) (s : State), running s = true → exec (.nvmeMiCommand 1 0x06 [cns, nsid, csi]) s = .next (match identifyData s miCtrl cns nsid csi with
    | .ok bs => emit (.mctp 0 bs) { s with free := s.free + 1 }
    | .error st => emit (.mctp (st.sc + 256 * st.sct) []) { s with free := s.free + 1 })) ∧
  (∀ (lid off len : Nat) (s : State), running s = true → exec (.nvmeMiCommand 1 0x02 [lid, off, len]) s = .next (match logPage s miCtrl lid off len with
    | some bs => emit (.mctp 0 bs) { s with free := s.free + 1 }
    | none => emit (.mctp 2 []) { s with free := s.free + 1 })) ∧
  (∀ (op : Nat) (args : List Nat) (s : State), running s = true → ¬ (op = 0x06 ∧ args.length = 3) → ¬ (op = 0x02 ∧ args.length = 3) →
    exec (.nvmeMiCommand 1 op args) s = .next (emit (.mctp 3 []) { s with free := s.free + 1 }))

/-- Nothing of the firmware's happens before core release. While the device is not running, every command of needsCores, which firmware or a unit under it carries out, leaves the whole state as it is, whatever its operands; a frame or link command of needsLink does so too, unless the device is in RECOVERY, where the management port takes frames (R467, R624). -/
def Obligations.IdleUntilReleased : Prop :=
  (∀ (i : Instr) (s : State), needsCores i = true → running s = false → exec i s = .next s) ∧
  (∀ (i : Instr) (s : State), needsLink i = true → running s = false → s.keeper.phase ≠ .recovery → exec i s = .next s)

/-- What leaves HOLD and the flash drivers alone. Every command outside the listed ones, which are starts, ends of a run, role changes and the HOLD lines themselves, leaves HOLD_OUT, the level of HOLD_IN and the drivers as they are: no read or write of data, no datagram and no mirrored frame moves them. -/
def Obligations.HoldFrame : Prop :=
  ∀ (i : Instr) (s t : State), movesHold i = false → exec i s = .next t →
    t.keeper.drivers = s.keeper.drivers ∧ t.keeper.holdOut = s.keeper.holdOut ∧ t.keeper.holdIn = s.keeper.holdIn

/-- A record's number is used once. A recorder that has recorded nothing gives number 1 first (the mark it starts with is the model's, log entry 10). An admitted record takes the next number, which is below the mark then, and stands in the buffer or, under write-through, in the ring; one without a place takes none and is counted. Admission, an occurrence, the writes and the end of a run keep the numbers in order, and a start after which the ring is not closed clean goes on at the mark, above every number ever used (R641 to R643, R655). -/
def Obligations.RecorderNumbers : Prop :=
  (NumbersOk Moraine.reset ∧ Moraine.reset.next = 1) ∧
  (∀ (m : Moraine) (now : Nat) (r : EvRec), NumbersOk m → NumbersOk (admitRec m now r) ∧
    (m.through = false → m.buffer.length < placesFor r.sev →
      (admitRec m now r).buffer = m.buffer ++ [{ r with seq := m.next }] ∧ (admitRec m now r).next = m.next + 1 ∧ m.next < (admitRec m now r).mark) ∧
    (m.through = false → placesFor r.sev ≤ m.buffer.length →
      (admitRec m now r).buffer = m.buffer ∧ (admitRec m now r).next = m.next ∧ (admitRec m now r).lost = m.lost + 1) ∧
    (m.through = true → (∃ x ∈ (admitRec m now r).ring, x.seq = m.next ∧ x.code = r.code) ∧ (admitRec m now r).next = m.next + 1)) ∧
  (∀ (lim : Option LimRec) (m : Moraine) (now : Nat) (r : EvRec), NumbersOk m → NumbersOk (occur lim m now r).1) ∧
  (∀ (m : Moraine) (n : Nat), NumbersOk m → NumbersOk (endWrite m n) ∧ NumbersOk (writeAll m) ∧ NumbersOk (endRun m) ∧
    (m.clean = false → NumbersOk (startNumbers m) ∧ (startNumbers m).next = m.mark))

/-- Fingerprint, primary and alternate bucket. For a table of B buckets the fingerprint is h[31:0], b1 is (h[63:24] × B) >> 40, the offset is 1 + (fp mod (B − 1)) and b2 is (b1 + offset) mod B; b1 and b2 are two buckets of the table, and from fp, flag A and the bucket that holds an entry the primary bucket is found again. -/
def Obligations.BucketsOfAKey : Prop :=
  ∀ (bk : Nat) (h : Word), 2 ≤ bk →
    fpOf h = (h.extractLsb 31 0).toNat ∧ bucket1 bk h = ((h.extractLsb 63 24).toNat * bk) >>> 40 ∧ bucketOff bk (fpOf h) = 1 + fpOf h % (bk - 1) ∧
    altOf bk (fpOf h) (bucket1 bk h) = (bucket1 bk h + bucketOff bk (fpOf h)) % bk ∧
    bucket1 bk h < bk ∧ altOf bk (fpOf h) (bucket1 bk h) < bk ∧ altOf bk (fpOf h) (bucket1 bk h) ≠ bucket1 bk h ∧
    (∀ e : KwEntry, e.fp = fpOf h → e.alt = true → primaryOf bk e (altOf bk (fpOf h) (bucket1 bk h)) = bucket1 bk h) ∧
    (∀ e : KwEntry, e.fp = fpOf h → e.alt = false → primaryOf bk e (bucket1 bk h) = bucket1 bk h)

/-- A new version is greater than every earlier one. The version a coordinator assigns carries in bits [11:0] its slot and above them one more than the greater of the key's highest sequence on record and the floor of its home bin; it is greater than every version on record, never 0, and sequence 1 where there is no record and the floor is 0, as every floor is at first; an assignment gives exactly this version. -/
def Obligations.VersionsRise : Prop :=
  (∀ (s : State) (ns : Nat) (key : Key) (g f : Nat), mySlot s < 4096 → g = (match recOf s ns key with | some r => r.greatest | none => 0) →
    f = (aGet (homeBin s ns key) s.ice.floors).getD 0 →
    nextVersion s ns key % 4096 = mySlot s ∧ nextVersion s ns key / 4096 = max (g / 4096) f + 1 ∧ g < nextVersion s ns key ∧ nextVersion s ns key ≠ 0 ∧
    (recOf s ns key = none → f = 0 → nextVersion s ns key / 4096 = 1)) ∧
  State.reset.ice.floors = [] ∧
  (∀ (b : FragB) (s : State), (assignVer b s).1 = nextVersion s b.ns b.key)

/-- The winning row. Of the matching rows the one with the greatest head priority wins, among equals the lowest global head entry number (`wardWinner`). A search delivers the action of the winner of its table, and no row's but the winner's, where the winner's row in the shadow matches too and no word of that row has to be rebuilt; it delivers none where no row matches or the bank set has no group; where a group has no place it delivers the winner of the shadow (`classifyShadow`). Action index 0, and no action, leave the namespace's own fields; an action overrides exactly the fields that it carries. -/
def Obligations.WardPrecedence : Prop :=
  (∀ l : List (Nat × Nat × Nat), (wardWinner l = none ↔ l = []) ∧
    (∀ x, wardWinner l = some x → x ∈ l ∧ ∀ y ∈ l, y.1 < x.1 ∨ (y.1 = x.1 ∧ x.2.1 ≤ y.2.1))) ∧
  (∀ (s : State) (n : NsEntry) (cls : Nat) (key : Key),
    (setHeads s n = [] → search n cls key s = (.action none, s)) ∧
    (setHeads s n ≠ [] → (setHeads s n).any s.ward.firmware.contains = true → search n cls key s = (.action (classifyShadow s n cls key), s)) ∧
    (setHeads s n ≠ [] → (setHeads s n).any s.ward.firmware.contains = false → wardMatches s.ward.rows s n cls key = [] →
      search n cls key s = (.action none, noteSearch n s)) ∧
    (∀ p g a l, setHeads s n ≠ [] → (setHeads s n).any s.ward.firmware.contains = false → wardWinner (wardMatches s.ward.rows s n cls key) = some (p, g, a) →
      l = groupWidth (wardOf s) (groupHead (wardOf s) (g / 1024)) → (∀ e ∈ rowEntries l g, e ∉ s.ward.lostWords ∧ aGet e s.ward.rebuilding = none) →
      rowMatches s.ward.shadow l g n.id cls key = true → search n cls key s = (.action (actionOf s a), noteSearch n s)) ∧
    (wardMatches s.ward.shadow s n cls key = [] → classifyShadow s n cls key = none) ∧
    (∀ p g a, wardWinner (wardMatches s.ward.shadow s n cls key) = some (p, g, a) → classifyShadow s n cls key = actionOf s a) ∧
    actionOf s 0 = none) ∧
  (∀ (p : Policy) (x : WardAction), applyAction p none = p ∧ applyAction p (some x) = { p with k := (x.km.map (·.1)).getD p.k, m := (x.km.map (·.2)).getD p.m, thr := x.thr.getD p.thr, ack := x.ack.getD p.ack, qos := x.qos.getD p.qos })

/-- The hold driver's own timer. An edge of BEAT_OUT restarts the timer; until 12 µs without one have passed it does nothing; then drivers and HOLD_OUT are off, whatever the keeper and the cores do. Where one of them was on, the terminations go off, the beat ends, the service that went with the hold ends, and a change of the hold state goes out in a Status frame (`noteHold`), which leaves the keeper as it is; where neither was, nothing changes. -/
def Obligations.HoldDriverTimer : Prop :=
  (∀ s : State, running s = true → s.keeper.beatOut = .normal → s.keeper.beatOutAt + 3960 ≤ s.now → s.keeper.fed = true →
    exec .beatEdge s = .next { s with keeper := { s.keeper with fed := false, beatOutAt := s.now } }) ∧
  (∀ s : State, s.now < s.keeper.beatOutAt + 12000 → exec .holdDriverTimer s = .next s) ∧
  (∀ s : State, s.keeper.beatOutAt + 12000 ≤ s.now → ∃ t, exec .holdDriverTimer s = .next t ∧ t.keeper.drivers = false ∧ t.keeper.holdOut = false ∧
    (s.keeper.holdOut = false → s.keeper.drivers = false → t = s) ∧
    (s.keeper.holdOut = true ∨ s.keeper.drivers = true → t.keeper.terms = false ∧ t.keeper.beatOut = .none ∧
      ∃ u, u = { s with keeper := { s.keeper with holdOut := false, drivers := false, terms := false, beatOut := .none }, start := { s.start with service := false } } ∧
        t = noteHold s u ∧ t.keeper = u.keeper))

/-- A snoop that crosses an eviction. A cluster that receives FwdGetS, FwdGetM, Inv or Recall for a line in its eviction buffer answers CrossedEvict with no data, and the line stays in the eviction buffer. The line is in a recall from a Recall on. What waited for the line goes on after the answer: with the line in a transient state, as a snooped line is, and no request held at a port, that is nothing, so that nothing else of the device changes. -/
def Obligations.CrossedEvict : Prop :=
  ∀ (c : Coh) (req : Nat) (ev : Bool) (ws : List (Word × Bool)) (s : State), inService s c = true → evictingAt s.coh c = true →
    evictingAt (evictLine c s.coh) c = true ∧
    (∀ m ∈ [exec (.fwdgets c req ev ws) s, exec (.fwdgetm c req ev ws) s, exec (.inv c ev) s],
      m = .next (wake c.line { s with coh := evictLine c s.coh, out := s.out ++ [.coh "CrossedEvict" (homeNo s c.line) c.cluster c.line []] })) ∧
    (∀ k : Coherence, k = (if (dirOf s.coh c.line).txn.isSome then s.coh else setDir { dirOf s.coh c.line with region := homeNo s c.line, txn := some ⟨⟨3, c.cluster, 0, 0, []⟩, (dirOf s.coh c.line).owner.toList ++ (dirOf s.coh c.line).sharers, [], [], false⟩ } s.coh) →
      exec (.recall c ev ws) s = .next (wake c.line { s with coh := evictLine c k, out := s.out ++ [.coh "CrossedEvict" (homeNo s c.line) c.cluster c.line []] }) ∧
      evictingAt (evictLine c k) c = true ∧ (dirOf (evictLine c k) c.line).txn.isSome = true) ∧
    (∀ t : State, (dirOf t.coh c.line).txn.isSome = true → t.coh.ports = [] → wake c.line t = t)

/-- Frames, links and their counters. A frame on a MAC that takes frames and is up: one that fails a row of Table 9.3 counts in that row's counter (`dropCounter`), one that passes counts by kind, size, tag and priority and is progress. A link that goes down takes its MAC down (`macDown`; in RECOVERY the management port alone is noted down); a MAC down for 100 ms comes up, with 0x3011 unless the device is in RECOVERY, and reports the groups if it is a multicast port, unless its lane is retired, the device is parked or its clock is lost. A pause frame is counted. A counter whose bit 31 is set, and all of them a second after the last time, move into the totals. A receive buffer that asked for a pause and had no progress for 100 ms is stalled with 0x3030, and a frame that waited 100 ms at the head of its queue is discarded with 0x9410, a critical-path miss. -/
def Obligations.FramesAndLinks : Prop :=
  (∀ (f : Frame) (c : Nat) (s : State), macTakes s f.mac = true → isUp s f.mac = true → dropCounter s f = some c →
    exec (.frameReceive f) s = .next (noteSat (bump f.mac c 1 s))) ∧
  (∀ (f : Frame) (m : Mac) (kind : Nat) (s : State), macTakes s f.mac = true → macOf s f.mac = some m → m.up = true → dropCounter s f = none →
    kind = (match destKind s f.mac f.dest with | .group => 3 | .broadcast => 4 | _ => 2) →
    exec (.frameReceive f) s = .next (noteSat (onMac f.mac (fun x => bumpMac (32 + f.prio) 1 (bumpMac (8 + sizeBand f.len) 1
      (bumpMac 5 (if f.vlan.isSome then 1 else 0) (bumpMac kind 1 (bumpMac 1 ((m.rxRem + f.len) / 64) (bumpMac 0 1
        { x with rxRem := (m.rxRem + f.len) % 64, progressAt := s.now, stalled := false })))))) s))) ∧
  (∀ (mac fault : Nat) (s : State), isUp s mac = true →
    (running s = true → exec (.linkDown mac fault) s = .next (macDown mac (fault != 0) s)) ∧
    (s.keeper.phase = .recovery → mac = macMM → exec (.linkDown mac fault) s = .next (onMac mac (fun m => { m with up := false, downAt := s.now }) s))) ∧
  (∀ (mac : Nat) (m : Mac) (s t : State), macOf s mac = some m → linkRuns s mac = true → m.up = false → m.laneRetired = false → m.downAt + 100000000 ≤ s.now →
    s.twin.parked = false → 16 ≤ mac ∨ s.pace.clocksLost.contains 0 = false →
    t = (if running s then record 0x3011 (pathMac mac) [] (noteNone (onMac mac (fun m => { m with up := true }) s)) else onMac mac (fun m => { m with up := true }) s) →
    exec (.linkUp mac) s = .next (if (mcastPorts t).contains mac then t.ice.groups.foldl (fun u b => txFrame mac 7 true (.groupReport mac b) u) t else t)) ∧
  (∀ (mac : Nat) (s : State), takesFrames s = true → isUp s mac = true → exec (.pauseFrame mac) s = .next (noteSat (bump mac 7 1 s))) ∧
  (∀ (mac c : Nat) (m : Mac) (s : State), macOf s mac = some m → running s = true → 2 ^ 31 ≤ (aGet c m.counts).getD 0 →
    exec (.counterBit31 mac c) s = .next (onMac mac (fun m => { m with
      counts := aDel c m.counts, totals := aSet c ((aGet c m.totals).getD 0 + (aGet c m.counts).getD 0) m.totals }) (noteSat s))) ∧
  (∀ s : State, running s = true → s.net.sweptAt + 1000000000 ≤ s.now →
    exec .counterSweep s = .next { noteSat s with net := { (noteSat s).net with sweptAt := (noteSat s).now, macs := (noteSat s).net.macs.map sweepMac } }) ∧
  (∀ (mac : Nat) (m : Mac) (s : State), macOf s mac = some m → running s = true → m.up = true → m.stalled = false → m.xoff ≠ [] → m.progressAt + 100000000 ≤ s.now →
    exec (.receiveBufferStall mac) s = .next (record 0x3030 (pathMac mac) [] (onMac mac (fun m => { m with stalled := true, xoff := [] }) s))) ∧
  (∀ (mac q : Nat) (m : Mac) (x : TxItem) (s : State), macOf s mac = some m → m.txq.find? (fun x => x.queue == q) = some x → running s = true →
    x.at_ + 100000000 ≤ s.now → exec (.txFrameAge mac q) s = .next (missAndJudge (record 0x9410 (pathMonitor 0) []
      (onMac mac (fun m => bumpMac 95 1 (bumpMac 62 (if x.multi then 1 else 0) { m with txq := m.txq.erase x })) s))))

/-- Priority pauses, address answers, PTP time and periodic frames. A PFC frame is counted and sets or ends each pause that it names, so that waiting frames may leave. A lossless priority whose share of the buffer is at the limit is paused, and refreshed 20 µs after the last; below half of it, it resumes. A pause past 100 ms records 0x9411 and is ignored for 1 s. ARP, neighbour and echo requests for held addresses are answered, echoes 100 a second, and none beyond 9 000 bytes (log 149). A sync of the parent within 250 ns is good, one beyond 500 ns bad, another neither: the 16th good one in a row locks PTP with 0x3110, the 4th bad one, or 2 s without a sync, unlocks it with 0x3111. An announcement no worse than the parent is taken, and a change of parent records 0x3112. LLDP goes out 30 s after the last, and announcements and group reports repeat after a second while some are left. The loss of NREFCLK takes all ports down with 0x3020. -/
def Obligations.PausesAddressesAndTime : Prop :=
  (∀ (mac : Nat) (qs : List (Nat × Nat)) (s : State), takesFrames s = true → isUp s mac = true → mac < 16 →
    exec (.pfcFrameReceive mac qs) s = .next (drainMac mac (onMac mac (fun m => qs.foldl (fun m q => onePfc s.now q.1 q.2 s m) (bumpMac 6 1 m)) s))) ∧
  (∀ (mac prio share : Nat) (m : Mac) (n : NetRec) (s : State), macOf s mac = some m → netOf s = some n → n.lossless.contains prio = true → running s = true →
    m.up = true → mac < 16 → m.stalled = false →
    ((aGet prio m.xoff).isSome = true → exec (.pfcXoffRefresh mac prio 0) s =
      .next (emitNow (.pfc mac prio false) (onMac mac (fun m => bumpMac 53 1 { m with xoff := aDel prio m.xoff }) s))) ∧
    (aGet prio m.xoff = none → exec (.pfcXoffRefresh mac prio 0) s = .next s) ∧
    (aGet prio m.xoff = none ∧ share = 2 ∨ share ≠ 0 ∧ (∃ x, aGet prio m.xoff = some x ∧ x + 20000 ≤ s.now) → exec (.pfcXoffRefresh mac prio share) s = .next (emitNow (.pfc mac prio true)
      (onMac mac (fun m => bumpMac (80 + prio) 1 (bumpMac 53 1 { m with xoff := aSet prio s.now m.xoff })) s)))) ∧
  (∀ (mac prio a b : Nat) (m : Mac) (s : State), macOf s mac = some m → m.paused.find? (fun x => x.1 == prio) = some (prio, a, b) → running s = true →
    a + 100000000 ≤ s.now → s.now ≤ b → exec (.pfcPauseDeadline mac prio) s = .next (drainMac mac (record 0x9411 (pathMonitor 0) []
      (onMac mac (fun m => { endPause s.now prio s m with ignore := aSet prio (s.now + 1000000000) m.ignore }) s)))) ∧
  (∀ (mac x : Nat) (s : State), macTakes s mac = true → isUp s mac = true → (held4 s mac).contains x = true →
    exec (.arpRequest mac x) s = .next (txFrame mac (if mac = macMM then 0 else 7) false (.arpReply mac x) s)) ∧
  (∀ (mac x : Nat) (s : State), macTakes s mac = true → isUp s mac = true → (held6 s mac).contains x = true →
    exec (.neighbourSolicitation mac x) s = .next (txFrame mac (if mac = macMM then 0 else 7) false (.neighbourAdvert mac x) s)) ∧
  (∀ (mac x : Nat) (v6 : Bool) (bytes : List Byte) (m : Mac) (rs : List Nat) (s : State), macOf s mac = some m → macTakes s mac = true → m.up = true →
    (if v6 then held6 s mac else held4 s mac).contains x = true → rs = m.echo.filter (fun t => decide (s.now < t + 1000000000)) →
    (ipHeader v6 + 8 + bytes.length ≤ 9000 → exec (.echoRequest mac v6 x bytes) s = .next (if rs.length < 100
      then txFrame mac 0 false (.echoReply mac v6 x bytes) (onMac mac (fun m => { m with echo := rs ++ [s.now] }) s)
      else noteSat (onMac mac (fun m => bumpMac 30 1 { m with echo := rs }) s))) ∧
    (9000 < ipHeader v6 + 8 + bytes.length → exec (.echoRequest mac v6 x bytes) s = .next s)) ∧
  (∀ (mac dom par pr : Nat) (off : Int) (s : State), ptpOn s mac dom = true → s.ptp.parent = some (mac, par, pr) →
    (∀ t : State, off.natAbs ≤ 250 → t = bump mac 88 1 { s with ptp := { s.ptp with offset := off, good := min 16 (s.ptp.good + 1), bad := 0, syncAt := s.now } } →
      exec (.ptpSync mac dom off par) s = .next (if s.ptp.locked = false ∧ 15 ≤ s.ptp.good
        then record 0x3110 (pathX 0x34 0) [] (stepTime off { t with ptp := { t.ptp with locked := true } }) else t)) ∧
    (∀ t : State, 500 < off.natAbs → t = bump mac 88 1 { s with ptp := { s.ptp with offset := off, good := 0, bad := min 4 (s.ptp.bad + 1), syncAt := s.now } } →
      exec (.ptpSync mac dom off par) s = .next (if s.ptp.locked = true ∧ 3 ≤ s.ptp.bad
        then record 0x3111 (pathX 0x34 0) [] { t with ptp := { t.ptp with locked := false } } else t)) ∧
    (250 < off.natAbs → off.natAbs ≤ 500 →
      exec (.ptpSync mac dom off par) s = .next (bump mac 88 1 { s with ptp := { s.ptp with offset := off, good := 0, bad := 0, syncAt := s.now } }))) ∧
  (∀ s : State, running s = true → s.ptp.locked = true → s.ptp.syncAt + 2000000000 ≤ s.now →
    exec .ptpSyncTimeout s = .next (record 0x3111 (pathX 0x34 0) [] { s with ptp := { s.ptp with locked := false, good := 0, bad := 0 } })) ∧
  (∀ (mac dom pr par : Nat) (s : State), ptpOn s mac dom = true →
    (s.ptp.parent = none → exec (.ptpAnnounce mac dom pr par) s =
      .next (record 0x3112 (pathX 0x34 0) [] { s with ptp := { s.ptp with parent := some (mac, par, pr), good := 0, bad := 0 } })) ∧
    (∀ k q r, s.ptp.parent = some (k, q, r) → k = mac ∧ q = par →
      exec (.ptpAnnounce mac dom pr par) s = .next { s with ptp := { s.ptp with parent := some (mac, par, pr) } }) ∧
    (∀ k q r, s.ptp.parent = some (k, q, r) → ¬ (k = mac ∧ q = par) → exec (.ptpAnnounce mac dom pr par) s =
      .next (if pr < r ∨ pr = r ∧ par < q then record 0x3112 (pathX 0x34 0) [] { s with ptp := { s.ptp with parent := some (mac, par, pr), good := 0, bad := 0 } } else s))) ∧
  (∀ s : State, running s = true → s.net.lldpAt + 30000000000 ≤ s.now →
    exec .lldpTransmit s = .next ((s.net.macs.map (·.idx)).foldl (fun t k => txFrame k (if k = macMM ∨ pausedAt t k 7 then 0 else 7) true (.lldp k) t)
      { s with net := { s.net with lldpAt := s.now } })) ∧
  (∀ (s a b : State), running s = true → s.start.service = true ∧ 0 < s.net.annLeft ∨ 0 < s.net.repLeft → s.net.annAt + 1000000000 ≤ s.now →
    a = (if 0 < s.net.annLeft then announceNow s else s) → b = (if 0 < s.net.repLeft then a.ice.groups.foldl (fun t g => reportGroup g t) a else a) →
    exec .announcementRepeat s = .next { b with net := { b.net with annLeft := b.net.annLeft - 1, repLeft := b.net.repLeft - 1, annAt := b.now } }) ∧
  (∀ s : State, running s = true → s.pace.clocksLost.contains 0 = false ∨ macsUp s ≠ [] →
    exec .nrefclkLoss s = .next (sendStatus (record 0x3020 (pathX 0x30 0) [] (portsDown { s with pace := { s.pace with clocksLost := sIns 0 s.pace.clocksLost } }))))
end

