-- ==== Sys2Proof/Laws/Exec.lean ====
section
/-! SUPPORT. The meaning each command has, one lemma for each constructor: exec at that constructor is its meaning. -/

namespace Sys2Proof.Machine

@[simp] theorem exec_coldStart role testEn dram (s : State) : exec (.coldStart role testEn dram) s = execColdStart role testEn dram s := rfl
@[simp] theorem exec_wakeStart (s : State) : exec (.wakeStart) s = execWakeStart s := rfl
@[simp] theorem exec_warmStart (s : State) : exec (.warmStart) s = execWarmStart s := rfl
@[simp] theorem exec_powerGoodRise step frefOk mrefOk (s : State) : exec (.powerGoodRise step frefOk mrefOk) s = execPowerGoodRise step frefOk mrefOk s := rfl
@[simp] theorem exec_sequencingTimeout step (s : State) : exec (.sequencingTimeout step) s = execSequencingTimeout step s := rfl
@[simp] theorem exec_sequencingRetry (s : State) : exec (.sequencingRetry) s = execSequencingRetry s := rfl
@[simp] theorem exec_powerGoodFall step (s : State) : exec (.powerGoodFall step) s = execPowerGoodFall step s := rfl
@[simp] theorem exec_fillDeadline (s : State) : exec (.fillDeadline) s = execFillDeadline s := rfl
@[simp] theorem exec_bankCopyDeadline written (s : State) : exec (.bankCopyDeadline written) s = execBankCopyDeadline written s := rfl
@[simp] theorem exec_coreRelease env (s : State) : exec (.coreRelease env) s = execCoreRelease env s := rfl
@[simp] theorem exec_unconfiguredRetry (s : State) : exec (.unconfiguredRetry) s = execUnconfiguredRetry s := rfl
@[simp] theorem exec_helloWaitTimeout (s : State) : exec (.helloWaitTimeout) s = execHelloWaitTimeout s := rfl
@[simp] theorem exec_keywayReloadDeadline (s : State) : exec (.keywayReloadDeadline) s = execKeywayReloadDeadline s := rfl
@[simp] theorem exec_lendDeadline trained (s : State) : exec (.lendDeadline trained) s = execLendDeadline trained s := rfl
@[simp] theorem exec_servingDeadline (s : State) : exec (.servingDeadline) s = execServingDeadline s := rfl
@[simp] theorem exec_vddKeepLoss (s : State) : exec (.vddKeepLoss) s = execVddKeepLoss s := rfl
@[simp] theorem exec_controllerShutdown a (s : State) : exec (.controllerShutdown a) s = execControllerShutdown a s := rfl
@[simp] theorem exec_orderlyShutdown a (s : State) : exec (.orderlyShutdown a) s = execOrderlyShutdown a s := rfl
@[simp] theorem exec_abruptShutdown a (s : State) : exec (.abruptShutdown a) s = execAbruptShutdown a s := rfl
@[simp] theorem exec_shutdownDeadline (s : State) : exec (.shutdownDeadline) s = execShutdownDeadline s := rfl
@[simp] theorem exec_controllerEnable a (s : State) : exec (.controllerEnable a) s = execControllerEnable a s := rfl
@[simp] theorem exec_propertySet a off val (s : State) : exec (.propertySet a off val) s = execPropertySet a off val s := rfl
@[simp] theorem exec_propertyGet a off wide (s : State) : exec (.propertyGet a off wide) s = execPropertyGet a off wide s := rfl
@[simp] theorem exec_wakeFrame f (s : State) : exec (.wakeFrame f) s = execWakeFrame f s := rfl
@[simp] theorem exec_pfailWakeHold (s : State) : exec (.pfailWakeHold) s = execPfailWakeHold s := rfl
@[simp] theorem exec_tcpConnectionAttempt mgmt port peer (s : State) : exec (.tcpConnectionAttempt mgmt port peer) s = execTcpConnectionAttempt mgmt port peer s := rfl
@[simp] theorem exec_roceConnectionRequest r (s : State) : exec (.roceConnectionRequest r) s = execRoceConnectionRequest r s := rfl
@[simp] theorem exec_tlsHandshake conn (s : State) : exec (.tlsHandshake conn) s = execTlsHandshake conn s := rfl
@[simp] theorem exec_initializeConnection conn hdgst ddgst align other (s : State) : exec (.initializeConnection conn hdgst ddgst align other) s = execInitializeConnection conn hdgst ddgst align other s := rfl
@[simp] theorem exec_connectionLost conn (s : State) : exec (.connectionLost conn) s = execConnectionLost conn s := rfl
@[simp] theorem exec_connect a nqn subnqnOk cntl qid qsize kato (s : State) : exec (.connect a nqn subnqnOk cntl qid qsize kato) s = execConnect a nqn subnqnOk cntl qid qsize kato s := rfl
@[simp] theorem exec_disconnect a (s : State) : exec (.disconnect a) s = execDisconnect a s := rfl
@[simp] theorem exec_authenticationSend a (s : State) : exec (.authenticationSend a) s = execAuthenticationSend a s := rfl
@[simp] theorem exec_authenticationReceive a (s : State) : exec (.authenticationReceive a) s = execAuthenticationReceive a s := rfl
@[simp] theorem exec_unsupportedOpcode a opcode (s : State) : exec (.unsupportedOpcode a opcode) s = execUnsupportedOpcode a opcode s := rfl
@[simp] theorem exec_getLogPage a lid off len rae lsp lsi (s : State) : exec (.getLogPage a lid off len rae lsp lsi) s = execGetLogPage a lid off len rae lsp lsi s := rfl
@[simp] theorem exec_identify a cns nsid cntid csi (s : State) : exec (.identify a cns nsid cntid csi) s = execIdentify a cns nsid cntid csi s := rfl
@[simp] theorem exec_abort a sqid cid (s : State) : exec (.abort a sqid cid) s = execAbort a sqid cid s := rfl
@[simp] theorem exec_getFeatures a fid sel (s : State) : exec (.getFeatures a fid sel) s = execGetFeatures a fid sel s := rfl
@[simp] theorem exec_setPowerManagement a dw11 (s : State) : exec (.setPowerManagement a dw11) s = execSetPowerManagement a dw11 s := rfl
@[simp] theorem exec_setNumberOfQueues a dw11 (s : State) : exec (.setNumberOfQueues a dw11) s = execSetNumberOfQueues a dw11 s := rfl
@[simp] theorem exec_setAsyncEventConfiguration a dw11 (s : State) : exec (.setAsyncEventConfiguration a dw11) s = execSetAsyncEventConfiguration a dw11 s := rfl
@[simp] theorem exec_setKeepAliveTimer a dw11 (s : State) : exec (.setKeepAliveTimer a dw11) s = execSetKeepAliveTimer a dw11 s := rfl
@[simp] theorem exec_setStoreAdmissionTimeout a dw11 (s : State) : exec (.setStoreAdmissionTimeout a dw11) s = execSetStoreAdmissionTimeout a dw11 s := rfl
@[simp] theorem exec_setFeaturesInvalid a fid save (s : State) : exec (.setFeaturesInvalid a fid save) s = execSetFeaturesInvalid a fid save s := rfl
@[simp] theorem exec_asynchronousEventRequest a (s : State) : exec (.asynchronousEventRequest a) s = execAsynchronousEventRequest a s := rfl
@[simp] theorem exec_keepAlive a (s : State) : exec (.keepAlive a) s = execKeepAlive a s := rfl
@[simp] theorem exec_formatNvm a nsid dw10 (s : State) : exec (.formatNvm a nsid dw10) s = execFormatNvm a nsid dw10 s := rfl
@[simp] theorem exec_purgePassComplete ns (s : State) : exec (.purgePassComplete ns) s = execPurgePassComplete ns s := rfl
@[simp] theorem exec_filterRegister a dw10 bytes (s : State) : exec (.filterRegister a dw10 bytes) s = execFilterRegister a dw10 bytes s := rfl
@[simp] theorem exec_filterRelease a handle (s : State) : exec (.filterRelease a handle) s = execFilterRelease a handle s := rfl
@[simp] theorem exec_plannedTakeover a (s : State) : exec (.plannedTakeover a) s = execPlannedTakeover a s := rfl
@[simp] theorem exec_firmwareImageDownload a numd off data (s : State) : exec (.firmwareImageDownload a numd off data) s = execFirmwareImageDownload a numd off data s := rfl
@[simp] theorem exec_commitConfiguration a action bank (s : State) : exec (.commitConfiguration a action bank) s = execCommitConfiguration a action bank s := rfl
@[simp] theorem exec_commitStage a slot opts (s : State) : exec (.commitStage a slot opts) s = execCommitStage a slot opts s := rfl
@[simp] theorem exec_commitStageActivate a slot opts (s : State) : exec (.commitStageActivate a slot opts) s = execCommitStageActivate a slot opts s := rfl
@[simp] theorem exec_commitActivateStaged a slot opts (s : State) : exec (.commitActivateStaged a slot opts) s = execCommitActivateStaged a slot opts s := rfl
@[simp] theorem exec_commitActivateRestart a slot opts (s : State) : exec (.commitActivateRestart a slot opts) s = execCommitActivateRestart a slot opts s := rfl
@[simp] theorem exec_bankEraseComplete (s : State) : exec (.bankEraseComplete) s = execBankEraseComplete s := rfl
@[simp] theorem exec_bankEraseDeadline (s : State) : exec (.bankEraseDeadline) s = execBankEraseDeadline s := rfl
@[simp] theorem exec_trialConfirm (s : State) : exec (.trialConfirm) s = execTrialConfirm s := rfl
@[simp] theorem exec_confirmationMonitor (s : State) : exec (.confirmationMonitor) s = execConfirmationMonitor s := rfl
@[simp] theorem exec_rollbackFuseTimer (s : State) : exec (.rollbackFuseTimer) s = execRollbackFuseTimer s := rfl
@[simp] theorem exec_tftpWriteRequest peer read octet (s : State) : exec (.tftpWriteRequest peer read octet) s = execTftpWriteRequest peer read octet s := rfl
@[simp] theorem exec_tftpData peer block len raw (s : State) : exec (.tftpData peer block len raw) s = execTftpData peer block len raw s := rfl
@[simp] theorem exec_flush q (s : State) : exec (.flush q) s = execFlush q s := rfl
@[simp] theorem exec_store q valueLen data (s : State) : exec (.store q valueLen data) s = execStore q valueLen data s := rfl
@[simp] theorem exec_retrieve q (s : State) : exec (.retrieve q) s = execRetrieve q s := rfl
@[simp] theorem exec_list q (s : State) : exec (.list q) s = execList q s := rfl
@[simp] theorem exec_delete q (s : State) : exec (.delete q) s = execDelete q s := rfl
@[simp] theorem exec_exist q (s : State) : exec (.exist q) s = execExist q s := rfl
@[simp] theorem exec_longStore q valueLen data (s : State) : exec (.longStore q valueLen data) s = execLongStore q valueLen data s := rfl
@[simp] theorem exec_longRetrieve q (s : State) : exec (.longRetrieve q) s = execLongRetrieve q s := rfl
@[simp] theorem exec_longDelete q (s : State) : exec (.longDelete q) s = execLongDelete q s := rfl
@[simp] theorem exec_longExist q (s : State) : exec (.longExist q) s = execLongExist q s := rfl
@[simp] theorem exec_filteredRetrieve q (s : State) : exec (.filteredRetrieve q) s = execFilteredRetrieve q s := rfl
@[simp] theorem exec_patternList q cursor (s : State) : exec (.patternList q cursor) s = execPatternList q cursor s := rfl
@[simp] theorem exec_keyCarrier k (s : State) : exec (.keyCarrier k) s = execKeyCarrier k s := rfl
@[simp] theorem exec_durabilityQuery q (s : State) : exec (.durabilityQuery q) s = execDurabilityQuery q s := rfl
@[simp] theorem exec_shed q off len (s : State) : exec (.shed q off len) s = execShed q off len s := rfl
@[simp] theorem exec_corniceAdmissionGrant (s : State) : exec (.corniceAdmissionGrant) s = execCorniceAdmissionGrant s := rfl
@[simp] theorem exec_admissionTimeout conn cid (s : State) : exec (.admissionTimeout conn cid) s = execAdmissionTimeout conn cid s := rfl
@[simp] theorem exec_keywayPendingWaitEnd ns chunk key (s : State) : exec (.keywayPendingWaitEnd ns chunk key) s = execKeywayPendingWaitEnd ns chunk key s := rfl
@[simp] theorem exec_checkpointGranuleWrite ok (s : State) : exec (.checkpointGranuleWrite ok) s = execCheckpointGranuleWrite ok s := rfl
@[simp] theorem exec_deltaLogSegmentWrite ok (s : State) : exec (.deltaLogSegmentWrite ok) s = execDeltaLogSegmentWrite ok s := rfl
@[simp] theorem exec_granuleRebuild granule (s : State) : exec (.granuleRebuild granule) s = execGranuleRebuild granule s := rfl
@[simp] theorem exec_ledgerDeltaRunWrite ns (s : State) : exec (.ledgerDeltaRunWrite ns) s = execLedgerDeltaRunWrite ns s := rfl
@[simp] theorem exec_ledgerMerge ns (s : State) : exec (.ledgerMerge ns) s = execLedgerMerge ns s := rfl
@[simp] theorem exec_tombstoneRelease ns key (s : State) : exec (.tombstoneRelease ns key) s = execTombstoneRelease ns key s := rfl
@[simp] theorem exec_versionRecordLapse ns key version (s : State) : exec (.versionRecordLapse ns key version) s = execVersionRecordLapse ns key version s := rfl
@[simp] theorem exec_wardScrubTick flips lost (s : State) : exec (.wardScrubTick flips lost) s = execWardScrubTick flips lost s := rfl
@[simp] theorem exec_wardShadowRebuilt bank entry (s : State) : exec (.wardShadowRebuilt bank entry) s = execWardShadowRebuilt bank entry s := rfl
@[simp] theorem exec_wardScrubPassDeadline bank (s : State) : exec (.wardScrubPassDeadline bank) s = execWardScrubPassDeadline bank s := rfl
@[simp] theorem exec_wardGroupRelocation bank (s : State) : exec (.wardGroupRelocation bank) s = execWardGroupRelocation bank s := rfl
@[simp] theorem exec_rimeStringEnd engine (s : State) : exec (.rimeStringEnd engine) s = execRimeStringEnd engine s := rfl
@[simp] theorem exec_rimeEngineStall engine (s : State) : exec (.rimeEngineStall engine) s = execRimeEngineStall engine s := rfl
@[simp] theorem exec_programUnitTimeout sb (s : State) : exec (.programUnitTimeout sb) s = execProgramUnitTimeout sb s := rfl
@[simp] theorem exec_flashProgramComplete die block wl ok (s : State) : exec (.flashProgramComplete die block wl ok) s = execFlashProgramComplete die block wl ok s := rfl
@[simp] theorem exec_flashReadComplete id step bits decoded tagOk crcOk levels (s : State) : exec (.flashReadComplete id step bits decoded tagOk crcOk levels) s = execFlashReadComplete id step bits decoded tagOk crcOk levels s := rfl
@[simp] theorem exec_flashEraseComplete die block ok (s : State) : exec (.flashEraseComplete die block ok) s = execFlashEraseComplete die block ok s := rfl
@[simp] theorem exec_readingLadderDeadline id (s : State) : exec (.readingLadderDeadline id) s = execReadingLadderDeadline id s := rfl
@[simp] theorem exec_dieReadyTimeout die (s : State) : exec (.dieReadyTimeout die) s = execDieReadyTimeout die s := rfl
@[simp] theorem exec_spillSetErase set ok (s : State) : exec (.spillSetErase set ok) s = execSpillSetErase set ok s := rfl
@[simp] theorem exec_backgroundLevelRise kind id id2 (s : State) : exec (.backgroundLevelRise kind id id2) s = execBackgroundLevelRise kind id id2 s := rfl
@[simp] theorem exec_backgroundDeadline kind id id2 (s : State) : exec (.backgroundDeadline kind id id2) s = execBackgroundDeadline kind id id2 s := rfl
@[simp] theorem exec_sweepVisit die block bits bitsDefault failed (s : State) : exec (.sweepVisit die block bits bitsDefault failed) s = execSweepVisit die block bits bitsDefault failed s := rfl
@[simp] theorem exec_sweepPassEnd (s : State) : exec (.sweepPassEnd) s = execSweepPassEnd s := rfl
@[simp] theorem exec_readCounterCopy (s : State) : exec (.readCounterCopy) s = execReadCounterCopy s := rfl
@[simp] theorem exec_rewrite die block (s : State) : exec (.rewrite die block) s = execRewrite die block s := rfl
@[simp] theorem exec_garbageCollection (s : State) : exec (.garbageCollection) s = execGarbageCollection s := rfl
@[simp] theorem exec_staticWearLevelling die (s : State) : exec (.staticWearLevelling die) s = execStaticWearLevelling die s := rfl
@[simp] theorem exec_shedRecord from_ ns key version off len (s : State) : exec (.shedRecord from_ ns key version off len) s = execShedRecord from_ ns key version off len s := rfl
@[simp] theorem exec_powerFailDetected cause v (s : State) : exec (.powerFailDetected cause v) s = execPowerFailDetected cause v s := rfl
@[simp] theorem exec_flushComplete vEnd wrote (s : State) : exec (.flushComplete vEnd wrote) s = execFlushComplete vEnd wrote s := rfl
@[simp] theorem exec_flushDeadline (s : State) : exec (.flushDeadline) s = execFlushDeadline s := rfl
@[simp] theorem exec_gaugePeriodTimer (s : State) : exec (.gaugePeriodTimer) s = execGaugePeriodTimer s := rfl
@[simp] theorem exec_gaugeRetryTimer (s : State) : exec (.gaugeRetryTimer) s = execGaugeRetryTimer s := rfl
@[simp] theorem exec_gaugeTestStart v0 (s : State) : exec (.gaugeTestStart v0) s = execGaugeTestStart v0 s := rfl
@[simp] theorem exec_gaugeTestComplete iT step fit (s : State) : exec (.gaugeTestComplete iT step fit) s = execGaugeTestComplete iT step fit s := rfl
@[simp] theorem exec_gaugeTestDeadline (s : State) : exec (.gaugeTestDeadline) s = execGaugeTestDeadline s := rfl
@[simp] theorem exec_gaugeReading v (s : State) : exec (.gaugeReading v) s = execGaugeReading v s := rfl
@[simp] theorem exec_readOnlyExit (s : State) : exec (.readOnlyExit) s = execReadOnlyExit s := rfl
@[simp] theorem exec_admissionExcessDeadline (s : State) : exec (.admissionExcessDeadline) s = execAdmissionExcessDeadline s := rfl
@[simp] theorem exec_powerMeasurement core rails flash modelled (s : State) : exec (.powerMeasurement core rails flash modelled) s = execPowerMeasurement core rails flash modelled s := rfl
@[simp] theorem exec_capExceededDeadline (s : State) : exec (.capExceededDeadline) s = execCapExceededDeadline s := rfl
@[simp] theorem exec_thermalAction hottest (s : State) : exec (.thermalAction hottest) s = execThermalAction hottest s := rfl
@[simp] theorem exec_thermalTrip (s : State) : exec (.thermalTrip) s = execThermalTrip s := rfl
@[simp] theorem exec_thermalRestart (s : State) : exec (.thermalRestart) s = execThermalRestart s := rfl
@[simp] theorem exec_tokenRequest use count rank (s : State) : exec (.tokenRequest use count rank) s = execTokenRequest use count rank s := rfl
@[simp] theorem exec_tokenGrant (s : State) : exec (.tokenGrant) s = execTokenGrant s := rfl
@[simp] theorem exec_energyIntervalClose (s : State) : exec (.energyIntervalClose) s = execEnergyIntervalClose s := rfl
@[simp] theorem exec_powerStateAdopt (s : State) : exec (.powerStateAdopt) s = execPowerStateAdopt s := rfl
@[simp] theorem exec_paceWindow paces (s : State) : exec (.paceWindow paces) s = execPaceWindow paces s := rfl
@[simp] theorem exec_paceDecision (s : State) : exec (.paceDecision) s = execPaceDecision s := rfl
@[simp] theorem exec_avsbusTransaction ok v amps (s : State) : exec (.avsbusTransaction ok v amps) s = execAvsbusTransaction ok v amps s := rfl
@[simp] theorem exec_avsbusFailure (s : State) : exec (.avsbusFailure) s = execAvsbusFailure s := rfl
@[simp] theorem exec_avsbusRetry ok v amps (s : State) : exec (.avsbusRetry ok v amps) s = execAvsbusRetry ok v amps s := rfl
@[simp] theorem exec_paceDeficit (s : State) : exec (.paceDeficit) s = execPaceDeficit s := rfl
@[simp] theorem exec_refclockLoss clock (s : State) : exec (.refclockLoss clock) s = execRefclockLoss clock s := rfl
@[simp] theorem exec_commandRestartDeadline element (s : State) : exec (.commandRestartDeadline element) s = execCommandRestartDeadline element s := rfl
@[simp] theorem exec_gets r (s : State) : exec (.gets r) s = execGets r s := rfl
@[simp] theorem exec_getm r (s : State) : exec (.getm r) s = execGetm r s := rfl
@[simp] theorem exec_upgrade r (s : State) : exec (.upgrade r) s = execUpgrade r s := rfl
@[simp] theorem exec_putm c w (s : State) : exec (.putm c w) s = execPutm c w s := rfl
@[simp] theorem exec_pute c (s : State) : exec (.pute c) s = execPute c s := rfl
@[simp] theorem exec_puts c (s : State) : exec (.puts c) s = execPuts c s := rfl
@[simp] theorem exec_fwdgets c req evicting ws (s : State) : exec (.fwdgets c req evicting ws) s = execFwdgets c req evicting ws s := rfl
@[simp] theorem exec_fwdgetm c req evicting ws (s : State) : exec (.fwdgetm c req evicting ws) s = execFwdgetm c req evicting ws s := rfl
@[simp] theorem exec_inv c evicting (s : State) : exec (.inv c evicting) s = execInv c evicting s := rfl
@[simp] theorem exec_recall c evicting ws (s : State) : exec (.recall c evicting ws) s = execRecall c evicting ws s := rfl
@[simp] theorem exec_crossedevict c (s : State) : exec (.crossedevict c) s = execCrossedevict c s := rfl
@[simp] theorem exec_data c toDir ws excl (s : State) : exec (.data c toDir ws excl) s = execData c toDir ws excl s := rfl
@[simp] theorem exec_invack c (s : State) : exec (.invack c) s = execInvack c s := rfl
@[simp] theorem exec_putack c (s : State) : exec (.putack c) s = execPutack c s := rfl
@[simp] theorem exec_coreLoadUncorrectable core site poison struct_ arg (s : State) : exec (.coreLoadUncorrectable core site poison struct_ arg) s = execCoreLoadUncorrectable core site poison struct_ arg s := rfl
@[simp] theorem exec_instructionFetchUncorrectable cluster site poison (s : State) : exec (.instructionFetchUncorrectable cluster site poison) s = execInstructionFetchUncorrectable cluster site poison s := rfl
@[simp] theorem exec_dmaReadUncorrectable channel site poison (s : State) : exec (.dmaReadUncorrectable channel site poison) s = execDmaReadUncorrectable channel site poison s := rfl
@[simp] theorem exec_dmaChannelRestart channel (s : State) : exec (.dmaChannelRestart channel) s = execDmaChannelRestart channel s := rfl
@[simp] theorem exec_correctableRead site (s : State) : exec (.correctableRead site) s = execCorrectableRead site s := rfl
@[simp] theorem exec_narrowWrite core site (s : State) : exec (.narrowWrite core site) s = execNarrowWrite core site s := rfl
@[simp] theorem exec_bucketLeak bank (s : State) : exec (.bucketLeak bank) s = execBucketLeak bank s := rfl
@[simp] theorem exec_memoryScrub single bad (s : State) : exec (.memoryScrub single bad) s = execMemoryScrub single bad s := rfl
@[simp] theorem exec_selfTestComplete site failed (s : State) : exec (.selfTestComplete site failed) s = execSelfTestComplete site failed s := rfl
@[simp] theorem exec_selfTestDeadline site (s : State) : exec (.selfTestDeadline site) s = execSelfTestDeadline site s := rfl
@[simp] theorem exec_retirementEntryExpiry site (s : State) : exec (.retirementEntryExpiry site) s = execRetirementEntryExpiry site s := rfl
@[simp] theorem exec_knownAnswerTest path ok (s : State) : exec (.knownAnswerTest path ok) s = execKnownAnswerTest path ok s := rfl
@[simp] theorem exec_drbgReseed (s : State) : exec (.drbgReseed) s = execDrbgReseed s := rfl
@[simp] theorem exec_maskReseed (s : State) : exec (.maskReseed) s = execMaskReseed s := rfl
@[simp] theorem exec_entropyHealthFail source test (s : State) : exec (.entropyHealthFail source test) s = execEntropyHealthFail source test s := rfl
@[simp] theorem exec_keyEpochChange epoch (s : State) : exec (.keyEpochChange epoch) s = execKeyEpochChange epoch s := rfl
@[simp] theorem exec_probeTimer targets (s : State) : exec (.probeTimer targets) s = execProbeTimer targets s := rfl
@[simp] theorem exec_probeAckTimeout pid helpers (s : State) : exec (.probeAckTimeout pid helpers) s = execProbeAckTimeout pid helpers s := rfl
@[simp] theorem exec_probeRequestTimeout pid (s : State) : exec (.probeRequestTimeout pid) s = execProbeRequestTimeout pid s := rfl
@[simp] theorem exec_lossTimeout slot (s : State) : exec (.lossTimeout slot) s = execLossTimeout slot s := rfl
@[simp] theorem exec_digestTimer slot (s : State) : exec (.digestTimer slot) s = execDigestTimer slot s := rfl
@[simp] theorem exec_viewSyncRetry (s : State) : exec (.viewSyncRetry) s = execViewSyncRetry s := rfl
@[simp] theorem exec_placingReannounce (s : State) : exec (.placingReannounce) s = execPlacingReannounce s := rfl
@[simp] theorem exec_probe h b (s : State) : exec (.probe h b) s = execProbe h b s := rfl
@[simp] theorem exec_probeAck h b (s : State) : exec (.probeAck h b) s = execProbeAck h b s := rfl
@[simp] theorem exec_probeRequest h b (s : State) : exec (.probeRequest h b) s = execProbeRequest h b s := rfl
@[simp] theorem exec_viewDigest h d (s : State) : exec (.viewDigest h d) s = execViewDigest h d s := rfl
@[simp] theorem exec_viewSync h us (s : State) : exec (.viewSync h us) s = execViewSync h us s := rfl
@[simp] theorem exec_fragment h b (s : State) : exec (.fragment h b) s = execFragment h b s := rfl
@[simp] theorem exec_fragmentAck h b (s : State) : exec (.fragmentAck h b) s = execFragmentAck h b s := rfl
@[simp] theorem exec_d2DispatchTimeout storeId chunk (s : State) : exec (.d2DispatchTimeout storeId chunk) s = execD2DispatchTimeout storeId chunk s := rfl
@[simp] theorem exec_fragmentResend storeId chunk pos (s : State) : exec (.fragmentResend storeId chunk pos) s = execFragmentResend storeId chunk pos s := rfl
@[simp] theorem exec_commitRequest h b (s : State) : exec (.commitRequest h b) s = execCommitRequest h b s := rfl
@[simp] theorem exec_commitIntent h b (s : State) : exec (.commitIntent h b) s = execCommitIntent h b s := rfl
@[simp] theorem exec_intentAck h b (s : State) : exec (.intentAck h b) s = execIntentAck h b s := rfl
@[simp] theorem exec_commitConfirm h b (s : State) : exec (.commitConfirm h b) s = execCommitConfirm h b s := rfl
@[simp] theorem exec_commitNotice h b (s : State) : exec (.commitNotice h b) s = execCommitNotice h b s := rfl
@[simp] theorem exec_abortNotice h b (s : State) : exec (.abortNotice h b) s = execAbortNotice h b s := rfl
@[simp] theorem exec_statusQuery h b (s : State) : exec (.statusQuery h b) s = execStatusQuery h b s := rfl
@[simp] theorem exec_versionAbortTimer ns key version (s : State) : exec (.versionAbortTimer ns key version) s = execVersionAbortTimer ns key version s := rfl
@[simp] theorem exec_abortNoticeResend ns key version (s : State) : exec (.abortNoticeResend ns key version) s = execAbortNoticeResend ns key version s := rfl
@[simp] theorem exec_storeLevelTimeout storeId (s : State) : exec (.storeLevelTimeout storeId) s = execStoreLevelTimeout storeId s := rfl
@[simp] theorem exec_commitRequestResend storeId (s : State) : exec (.commitRequestResend storeId) s = execCommitRequestResend storeId s := rfl
@[simp] theorem exec_holderStatusQuery storeId chunk (s : State) : exec (.holderStatusQuery storeId chunk) s = execHolderStatusQuery storeId chunk s := rfl
@[simp] theorem exec_locate h b (s : State) : exec (.locate h b) s = execLocate h b s := rfl
@[simp] theorem exec_locateReply h result hint rs (s : State) : exec (.locateReply h result hint rs) s = execLocateReply h result hint rs s := rfl
@[simp] theorem exec_readRequest h b (s : State) : exec (.readRequest h b) s = execReadRequest h b s := rfl
@[simp] theorem exec_readData h b (s : State) : exec (.readData h b) s = execReadData h b s := rfl
@[simp] theorem exec_readRequestTimeout id chunk pos (s : State) : exec (.readRequestTimeout id chunk pos) s = execReadRequestTimeout id chunk pos s := rfl
@[simp] theorem exec_recordQuery h b (s : State) : exec (.recordQuery h b) s = execRecordQuery h b s := rfl
@[simp] theorem exec_recordReply h rs floor (s : State) : exec (.recordReply h rs floor) s = execRecordReply h rs floor s := rfl
@[simp] theorem exec_floorNotice h bin floor (s : State) : exec (.floorNotice h bin floor) s = execFloorNotice h bin floor s := rfl
@[simp] theorem exec_floorAck h bin floor (s : State) : exec (.floorAck h bin floor) s = execFloorAck h bin floor s := rfl
@[simp] theorem exec_floorNoticeResend bin (s : State) : exec (.floorNoticeResend bin) s = execFloorNoticeResend bin s := rfl
@[simp] theorem exec_milmoDurabilityQuery h b (s : State) : exec (.milmoDurabilityQuery h b) s = execMilmoDurabilityQuery h b s := rfl
@[simp] theorem exec_durabilityReply h result hint r (s : State) : exec (.durabilityReply h result hint r) s = execDurabilityReply h result hint r s := rfl
@[simp] theorem exec_orphanNotice h b (s : State) : exec (.orphanNotice h b) s = execOrphanNotice h b s := rfl
@[simp] theorem exec_handoverRecord h b floor (s : State) : exec (.handoverRecord h b floor) s = execHandoverRecord h b floor s := rfl
@[simp] theorem exec_handoverFinal bin (s : State) : exec (.handoverFinal bin) s = execHandoverFinal bin s := rfl
@[simp] theorem exec_holderReturn h b keep (s : State) : exec (.holderReturn h b keep) s = execHolderReturn h b keep s := rfl
@[simp] theorem exec_holderReturnTimeout ns key (s : State) : exec (.holderReturnTimeout ns key) s = execHolderReturnTimeout ns key s := rfl
@[simp] theorem exec_repairOrder h b pos (s : State) : exec (.repairOrder h b pos) s = execRepairOrder h b pos s := rfl
@[simp] theorem exec_repairRetry ns key (s : State) : exec (.repairRetry ns key) s = execRepairRetry ns key s := rfl
@[simp] theorem exec_rebalance slot (s : State) : exec (.rebalance slot) s = execRebalance slot s := rfl
@[simp] theorem exec_leaseRequest h b (s : State) : exec (.leaseRequest h b) s = execLeaseRequest h b s := rfl
@[simp] theorem exec_permit h b (s : State) : exec (.permit h b) s = execPermit h b s := rfl
@[simp] theorem exec_permitTimer (s : State) : exec (.permitTimer) s = execPermitTimer s := rfl
@[simp] theorem exec_leaseExpiry id (s : State) : exec (.leaseExpiry id) s = execLeaseExpiry id s := rfl
@[simp] theorem exec_calendarSlot frame slot (s : State) : exec (.calendarSlot frame slot) s = execCalendarSlot frame slot s := rfl
@[simp] theorem exec_listingGatherRequest h b (s : State) : exec (.listingGatherRequest h b) s = execListingGatherRequest h b s := rfl
@[simp] theorem exec_listingGatherReply h b (s : State) : exec (.listingGatherReply h b) s = execListingGatherReply h b s := rfl
@[simp] theorem exec_listingGatherResend id slot (s : State) : exec (.listingGatherResend id slot) s = execListingGatherResend id slot s := rfl
@[simp] theorem exec_milmoInvalidType h body (s : State) : exec (.milmoInvalidType h body) s = execMilmoInvalidType h body s := rfl
@[simp] theorem exec_updateOffer h b (s : State) : exec (.updateOffer h b) s = execUpdateOffer h b s := rfl
@[simp] theorem exec_updatePull h b (s : State) : exec (.updatePull h b) s = execUpdatePull h b s := rfl
@[simp] theorem exec_updateSegment h b (s : State) : exec (.updateSegment h b) s = execUpdateSegment h b s := rfl
@[simp] theorem exec_updateStaged h b (s : State) : exec (.updateStaged h b) s = execUpdateStaged h b s := rfl
@[simp] theorem exec_updateRefused h b (s : State) : exec (.updateRefused h b) s = execUpdateRefused h b s := rfl
@[simp] theorem exec_updateConfirmed h b (s : State) : exec (.updateConfirmed h b) s = execUpdateConfirmed h b s := rfl
@[simp] theorem exec_offerTimer (s : State) : exec (.offerTimer) s = execOfferTimer s := rfl
@[simp] theorem exec_pullProgressTimeout (s : State) : exec (.pullProgressTimeout) s = execPullProgressTimeout s := rfl
@[simp] theorem exec_chainGiveUp (s : State) : exec (.chainGiveUp) s = execChainGiveUp s := rfl
@[simp] theorem exec_confirmedTimer (s : State) : exec (.confirmedTimer) s = execConfirmedTimer s := rfl
@[simp] theorem exec_frameReceive f (s : State) : exec (.frameReceive f) s = execFrameReceive f s := rfl
@[simp] theorem exec_linkDown mac fault (s : State) : exec (.linkDown mac fault) s = execLinkDown mac fault s := rfl
@[simp] theorem exec_linkUp mac (s : State) : exec (.linkUp mac) s = execLinkUp mac s := rfl
@[simp] theorem exec_pfcFrameReceive mac quanta (s : State) : exec (.pfcFrameReceive mac quanta) s = execPfcFrameReceive mac quanta s := rfl
@[simp] theorem exec_pfcXoffRefresh mac prio share (s : State) : exec (.pfcXoffRefresh mac prio share) s = execPfcXoffRefresh mac prio share s := rfl
@[simp] theorem exec_pfcPauseDeadline mac prio (s : State) : exec (.pfcPauseDeadline mac prio) s = execPfcPauseDeadline mac prio s := rfl
@[simp] theorem exec_receiveBufferStall mac (s : State) : exec (.receiveBufferStall mac) s = execReceiveBufferStall mac s := rfl
@[simp] theorem exec_txFrameAge mac queue (s : State) : exec (.txFrameAge mac queue) s = execTxFrameAge mac queue s := rfl
@[simp] theorem exec_counterBit31 mac counter (s : State) : exec (.counterBit31 mac counter) s = execCounterBit31 mac counter s := rfl
@[simp] theorem exec_counterSweep (s : State) : exec (.counterSweep) s = execCounterSweep s := rfl
@[simp] theorem exec_arpRequest mac target (s : State) : exec (.arpRequest mac target) s = execArpRequest mac target s := rfl
@[simp] theorem exec_neighbourSolicitation mac target (s : State) : exec (.neighbourSolicitation mac target) s = execNeighbourSolicitation mac target s := rfl
@[simp] theorem exec_echoRequest mac v6 target bytes (s : State) : exec (.echoRequest mac v6 target bytes) s = execEchoRequest mac v6 target bytes s := rfl
@[simp] theorem exec_pauseFrame mac (s : State) : exec (.pauseFrame mac) s = execPauseFrame mac s := rfl
@[simp] theorem exec_ptpSync mac domain offset parent (s : State) : exec (.ptpSync mac domain offset parent) s = execPtpSync mac domain offset parent s := rfl
@[simp] theorem exec_ptpSyncTimeout (s : State) : exec (.ptpSyncTimeout) s = execPtpSyncTimeout s := rfl
@[simp] theorem exec_lldpTransmit (s : State) : exec (.lldpTransmit) s = execLldpTransmit s := rfl
@[simp] theorem exec_announcementRepeat (s : State) : exec (.announcementRepeat) s = execAnnouncementRepeat s := rfl
@[simp] theorem exec_nrefclkLoss (s : State) : exec (.nrefclkLoss) s = execNrefclkLoss s := rfl
@[simp] theorem exec_holdInRise (s : State) : exec (.holdInRise) s = execHoldInRise s := rfl
@[simp] theorem exec_holdCollisionTimeout (s : State) : exec (.holdCollisionTimeout) s = execHoldCollisionTimeout s := rfl
@[simp] theorem exec_keeperFeed (s : State) : exec (.keeperFeed) s = execKeeperFeed s := rfl
@[simp] theorem exec_beatEdge (s : State) : exec (.beatEdge) s = execBeatEdge s := rfl
@[simp] theorem exec_holdDriverTimer (s : State) : exec (.holdDriverTimer) s = execHoldDriverTimer s := rfl
@[simp] theorem exec_beatInEdge (s : State) : exec (.beatInEdge) s = execBeatInEdge s := rfl
@[simp] theorem exec_beatInSilent (s : State) : exec (.beatInSilent) s = execBeatInSilent s := rfl
@[simp] theorem exec_takeoverTrigger (s : State) : exec (.takeoverTrigger) s = execTakeoverTrigger s := rfl
@[simp] theorem exec_takeoverMonitor (s : State) : exec (.takeoverMonitor) s = execTakeoverMonitor s := rfl
@[simp] theorem exec_standbyRoleRetake (s : State) : exec (.standbyRoleRetake) s = execStandbyRoleRetake s := rfl
@[simp] theorem exec_yieldCriterion crit detail (s : State) : exec (.yieldCriterion crit detail) s = execYieldCriterion crit detail s := rfl
@[simp] theorem exec_yieldReturnTimeout (s : State) : exec (.yieldReturnTimeout) s = execYieldReturnTimeout s := rfl
@[simp] theorem exec_keeperReleaseRestart (s : State) : exec (.keeperReleaseRestart) s = execKeeperReleaseRestart s := rfl
@[simp] theorem exec_twinPresentPoll fitted (s : State) : exec (.twinPresentPoll fitted) s = execTwinPresentPoll fitted s := rfl
@[simp] theorem exec_linkLaneFail lane (s : State) : exec (.linkLaneFail lane) s = execLinkLaneFail lane s := rfl
@[simp] theorem exec_linkRetrainTimeout (s : State) : exec (.linkRetrainTimeout) s = execLinkRetrainTimeout s := rfl
@[simp] theorem exec_linkRetrainRetry (s : State) : exec (.linkRetrainRetry) s = execLinkRetrainRetry s := rfl
@[simp] theorem exec_flitReceive seq ack kind credits crcOk (s : State) : exec (.flitReceive seq ack kind credits crcOk) s = execFlitReceive seq ack kind credits crcOk s := rfl
@[simp] theorem exec_replayRequest lastGood (s : State) : exec (.replayRequest lastGood) s = execReplayRequest lastGood s := rfl
@[simp] theorem exec_idleFlitTimer (s : State) : exec (.idleFlitTimer) s = execIdleFlitTimer s := rfl
@[simp] theorem exec_hingeStatusTimer (s : State) : exec (.hingeStatusTimer) s = execHingeStatusTimer s := rfl
@[simp] theorem exec_healthReportTimer (s : State) : exec (.healthReportTimer) s = execHealthReportTimer s := rfl
@[simp] theorem exec_hello fseq b (s : State) : exec (.hello fseq b) s = execHello fseq b s := rfl
@[simp] theorem exec_joinRetry (s : State) : exec (.joinRetry) s = execJoinRetry s := rfl
@[simp] theorem exec_status fseq b (s : State) : exec (.status fseq b) s = execStatus fseq b s := rfl
@[simp] theorem exec_healthReport fseq b (s : State) : exec (.healthReport fseq b) s = execHealthReport fseq b s := rfl
@[simp] theorem exec_journal fseq first rs (s : State) : exec (.journal fseq first rs) s = execJournal fseq first rs s := rfl
@[simp] theorem exec_corniceWrite fseq idx gs (s : State) : exec (.corniceWrite fseq idx gs) s = execCorniceWrite fseq idx gs s := rfl
@[simp] theorem exec_corniceRelease fseq runs (s : State) : exec (.corniceRelease fseq runs) s = execCorniceRelease fseq runs s := rfl
@[simp] theorem exec_transport fseq es (s : State) : exec (.transport fseq es) s = execTransport fseq es s := rfl
@[simp] theorem exec_operation fseq es gone (s : State) : exec (.operation fseq es gone) s = execOperation fseq es gone s := rfl
@[simp] theorem exec_milmoState fseq ms (s : State) : exec (.milmoState fseq ms) s = execMilmoState fseq ms s := rfl
@[simp] theorem exec_settings fseq fs pstate feats (s : State) : exec (.settings fseq fs pstate feats) s = execSettings fseq fs pstate feats s := rfl
@[simp] theorem exec_counters fseq cs (s : State) : exec (.counters fseq cs) s = execCounters fseq cs s := rfl
@[simp] theorem exec_flushProgress fseq set idx (s : State) : exec (.flushProgress fseq set idx) s = execFlushProgress fseq set idx s := rfl
@[simp] theorem exec_mirrorAck fseq held jseq (s : State) : exec (.mirrorAck fseq held jseq) s = execMirrorAck fseq held jseq s := rfl
@[simp] theorem exec_mirrorAckDeadline (s : State) : exec (.mirrorAckDeadline) s = execMirrorAckDeadline s := rfl
@[simp] theorem exec_copyFirn fseq rs es ops ms (s : State) : exec (.copyFirn fseq rs es ops ms) s = execCopyFirn fseq rs es ops ms s := rfl
@[simp] theorem exec_copyCornice fseq gs (s : State) : exec (.copyCornice fseq gs) s = execCopyCornice fseq gs s := rfl
@[simp] theorem exec_copyGranule fseq granule tag ws (s : State) : exec (.copyGranule fseq granule tag ws) s = execCopyGranule fseq granule tag ws s := rfl
@[simp] theorem exec_joinStage fseq stage units (s : State) : exec (.joinStage fseq stage units) s = execJoinStage fseq stage units s := rfl
@[simp] theorem exec_yield fseq crit detail time (s : State) : exec (.yield fseq crit detail time) s = execYield fseq crit detail time s := rfl
@[simp] theorem exec_handoff fseq last (s : State) : exec (.handoff fseq last) s = execHandoff fseq last s := rfl
@[simp] theorem exec_hingeInvalidFrame type (s : State) : exec (.hingeInvalidFrame type) s = execHingeInvalidFrame type s := rfl
@[simp] theorem exec_ringWrite (s : State) : exec (.ringWrite) s = execRingWrite s := rfl
@[simp] theorem exec_ringWriteComplete (s : State) : exec (.ringWriteComplete) s = execRingWriteComplete s := rfl
@[simp] theorem exec_ringWriteDeadline (s : State) : exec (.ringWriteDeadline) s = execRingWriteDeadline s := rfl
@[simp] theorem exec_summaryRecordTimer code (s : State) : exec (.summaryRecordTimer code) s = execSummaryRecordTimer code s := rfl
@[simp] theorem exec_keepAliveTimeout cntl (s : State) : exec (.keepAliveTimeout cntl) s = execKeepAliveTimeout cntl s := rfl
@[simp] theorem exec_hostToControllerData conn cid off bytes digestOk (s : State) : exec (.hostToControllerData conn cid off bytes digestOk) s = execHostToControllerData conn cid off bytes digestOk s := rfl
@[simp] theorem exec_nvmeMiBasicManagement cmd len (s : State) : exec (.nvmeMiBasicManagement cmd len) s = execNvmeMiBasicManagement cmd len s := rfl
@[simp] theorem exec_nvmeMiCommand msg opcode args (s : State) : exec (.nvmeMiCommand msg opcode args) s = execNvmeMiCommand msg opcode args s := rfl
@[simp] theorem exec_inputSupplyReturn (s : State) : exec (.inputSupplyReturn) s = execInputSupplyReturn s := rfl
@[simp] theorem exec_ptpAnnounce mac domain prio parent (s : State) : exec (.ptpAnnounce mac domain prio parent) s = execPtpAnnounce mac domain prio parent s := rfl
@[simp] theorem exec_holdInFall (s : State) : exec (.holdInFall) s = execHoldInFall s := rfl
@[simp] theorem exec_hingeTrainingComplete width (s : State) : exec (.hingeTrainingComplete width) s = execHingeTrainingComplete width s := rfl
@[simp] theorem exec_healthReportTimeout (s : State) : exec (.healthReportTimeout) s = execHealthReportTimeout s := rfl
@[simp] theorem exec_transportProgressTimer (s : State) : exec (.transportProgressTimer) s = execTransportProgressTimer s := rfl
@[simp] theorem exec_retransmissionTimeout conn (s : State) : exec (.retransmissionTimeout conn) s = execRetransmissionTimeout conn s := rfl
@[simp] theorem exec_thermalHandoverTimeout (s : State) : exec (.thermalHandoverTimeout) s = execThermalHandoverTimeout s := rfl
@[simp] theorem exec_localMediaFailureReport slot b pos (s : State) : exec (.localMediaFailureReport slot b pos) s = execLocalMediaFailureReport slot b pos s := rfl

theorem onlyIf_true (b : Bool) (f : State → State) (s : State) (h : b = true) : onlyIf b f s = .next (f s) := by simp [onlyIf, h]

end Sys2Proof.Machine
end

