-- ==== Sys2Proof/Laws/State.lean ====
section
/-! SUPPORT. What the named operations leave alone: for each operation that records, completes, mirrors or sends, and for each part
of the state it never touches, one lemma, so that no proof has to unfold it. -/

namespace Sys2Proof.Machine

@[simp] theorem foldl_now {α : Type} (l : List α) (g : State → α → State) (s : State) (h : ∀ t x, (g t x).now = t.now) :
    (l.foldl g s).now = s.now := by
  induction l generalizing s with
  | nil => rfl
  | cons x r ih => simp [List.foldl_cons, ih, h]
@[simp] theorem ite_now (c : Prop) [Decidable c] (a b : State) : (if c then a else b).now = if c then a.now else b.now := by split <;> rfl
@[simp] theorem foldl_pending {α : Type} (l : List α) (g : State → α → State) (s : State) (h : ∀ t x, (g t x).pending = t.pending) :
    (l.foldl g s).pending = s.pending := by
  induction l generalizing s with
  | nil => rfl
  | cons x r ih => simp [List.foldl_cons, ih, h]
@[simp] theorem ite_pending (c : Prop) [Decidable c] (a b : State) : (if c then a else b).pending = if c then a.pending else b.pending := by split <;> rfl
@[simp] theorem foldl_out {α : Type} (l : List α) (g : State → α → State) (s : State) (h : ∀ t x, (g t x).out = t.out) :
    (l.foldl g s).out = s.out := by
  induction l generalizing s with
  | nil => rfl
  | cons x r ih => simp [List.foldl_cons, ih, h]
@[simp] theorem ite_out (c : Prop) [Decidable c] (a b : State) : (if c then a else b).out = if c then a.out else b.out := by split <;> rfl
@[simp] theorem foldl_held {α : Type} (l : List α) (g : State → α → State) (s : State) (h : ∀ t x, (g t x).held = t.held) :
    (l.foldl g s).held = s.held := by
  induction l generalizing s with
  | nil => rfl
  | cons x r ih => simp [List.foldl_cons, ih, h]
@[simp] theorem ite_held (c : Prop) [Decidable c] (a b : State) : (if c then a else b).held = if c then a.held else b.held := by split <;> rfl
@[simp] theorem foldl_free {α : Type} (l : List α) (g : State → α → State) (s : State) (h : ∀ t x, (g t x).free = t.free) :
    (l.foldl g s).free = s.free := by
  induction l generalizing s with
  | nil => rfl
  | cons x r ih => simp [List.foldl_cons, ih, h]
@[simp] theorem ite_free (c : Prop) [Decidable c] (a b : State) : (if c then a else b).free = if c then a.free else b.free := by split <;> rfl
@[simp] theorem foldl_serial {α : Type} (l : List α) (g : State → α → State) (s : State) (h : ∀ t x, (g t x).serial = t.serial) :
    (l.foldl g s).serial = s.serial := by
  induction l generalizing s with
  | nil => rfl
  | cons x r ih => simp [List.foldl_cons, ih, h]
@[simp] theorem ite_serial (c : Prop) [Decidable c] (a b : State) : (if c then a else b).serial = if c then a.serial else b.serial := by split <;> rfl
@[simp] theorem foldl_cfg {α : Type} (l : List α) (g : State → α → State) (s : State) (h : ∀ t x, (g t x).cfg = t.cfg) :
    (l.foldl g s).cfg = s.cfg := by
  induction l generalizing s with
  | nil => rfl
  | cons x r ih => simp [List.foldl_cons, ih, h]
@[simp] theorem ite_cfg (c : Prop) [Decidable c] (a b : State) : (if c then a else b).cfg = if c then a.cfg else b.cfg := by split <;> rfl
@[simp] theorem foldl_mor {α : Type} (l : List α) (g : State → α → State) (s : State) (h : ∀ t x, (g t x).mor = t.mor) :
    (l.foldl g s).mor = s.mor := by
  induction l generalizing s with
  | nil => rfl
  | cons x r ih => simp [List.foldl_cons, ih, h]
@[simp] theorem ite_mor (c : Prop) [Decidable c] (a b : State) : (if c then a else b).mor = if c then a.mor else b.mor := by split <;> rfl
@[simp] theorem foldl_keeper {α : Type} (l : List α) (g : State → α → State) (s : State) (h : ∀ t x, (g t x).keeper = t.keeper) :
    (l.foldl g s).keeper = s.keeper := by
  induction l generalizing s with
  | nil => rfl
  | cons x r ih => simp [List.foldl_cons, ih, h]
@[simp] theorem ite_keeper (c : Prop) [Decidable c] (a b : State) : (if c then a else b).keeper = if c then a.keeper else b.keeper := by split <;> rfl
@[simp] theorem foldl_start {α : Type} (l : List α) (g : State → α → State) (s : State) (h : ∀ t x, (g t x).start = t.start) :
    (l.foldl g s).start = s.start := by
  induction l generalizing s with
  | nil => rfl
  | cons x r ih => simp [List.foldl_cons, ih, h]
@[simp] theorem ite_start (c : Prop) [Decidable c] (a b : State) : (if c then a else b).start = if c then a.start else b.start := by split <;> rfl
@[simp] theorem foldl_twin {α : Type} (l : List α) (g : State → α → State) (s : State) (h : ∀ t x, (g t x).twin = t.twin) :
    (l.foldl g s).twin = s.twin := by
  induction l generalizing s with
  | nil => rfl
  | cons x r ih => simp [List.foldl_cons, ih, h]
@[simp] theorem ite_twin (c : Prop) [Decidable c] (a b : State) : (if c then a else b).twin = if c then a.twin else b.twin := by split <;> rfl
@[simp] theorem foldl_gauge {α : Type} (l : List α) (g : State → α → State) (s : State) (h : ∀ t x, (g t x).gauge = t.gauge) :
    (l.foldl g s).gauge = s.gauge := by
  induction l generalizing s with
  | nil => rfl
  | cons x r ih => simp [List.foldl_cons, ih, h]
@[simp] theorem ite_gauge (c : Prop) [Decidable c] (a b : State) : (if c then a else b).gauge = if c then a.gauge else b.gauge := by split <;> rfl
@[simp] theorem foldl_power {α : Type} (l : List α) (g : State → α → State) (s : State) (h : ∀ t x, (g t x).power = t.power) :
    (l.foldl g s).power = s.power := by
  induction l generalizing s with
  | nil => rfl
  | cons x r ih => simp [List.foldl_cons, ih, h]
@[simp] theorem ite_power (c : Prop) [Decidable c] (a b : State) : (if c then a else b).power = if c then a.power else b.power := by split <;> rfl
@[simp] theorem foldl_pace {α : Type} (l : List α) (g : State → α → State) (s : State) (h : ∀ t x, (g t x).pace = t.pace) :
    (l.foldl g s).pace = s.pace := by
  induction l generalizing s with
  | nil => rfl
  | cons x r ih => simp [List.foldl_cons, ih, h]
@[simp] theorem ite_pace (c : Prop) [Decidable c] (a b : State) : (if c then a else b).pace = if c then a.pace else b.pace := by split <;> rfl
@[simp] theorem foldl_kw {α : Type} (l : List α) (g : State → α → State) (s : State) (h : ∀ t x, (g t x).kw = t.kw) :
    (l.foldl g s).kw = s.kw := by
  induction l generalizing s with
  | nil => rfl
  | cons x r ih => simp [List.foldl_cons, ih, h]
@[simp] theorem ite_kw (c : Prop) [Decidable c] (a b : State) : (if c then a else b).kw = if c then a.kw else b.kw := by split <;> rfl
@[simp] theorem foldl_media {α : Type} (l : List α) (g : State → α → State) (s : State) (h : ∀ t x, (g t x).media = t.media) :
    (l.foldl g s).media = s.media := by
  induction l generalizing s with
  | nil => rfl
  | cons x r ih => simp [List.foldl_cons, ih, h]
@[simp] theorem ite_media (c : Prop) [Decidable c] (a b : State) : (if c then a else b).media = if c then a.media else b.media := by split <;> rfl
@[simp] theorem foldl_ice {α : Type} (l : List α) (g : State → α → State) (s : State) (h : ∀ t x, (g t x).ice = t.ice) :
    (l.foldl g s).ice = s.ice := by
  induction l generalizing s with
  | nil => rfl
  | cons x r ih => simp [List.foldl_cons, ih, h]
@[simp] theorem ite_ice (c : Prop) [Decidable c] (a b : State) : (if c then a else b).ice = if c then a.ice else b.ice := by split <;> rfl
@[simp] theorem foldl_host {α : Type} (l : List α) (g : State → α → State) (s : State) (h : ∀ t x, (g t x).host = t.host) :
    (l.foldl g s).host = s.host := by
  induction l generalizing s with
  | nil => rfl
  | cons x r ih => simp [List.foldl_cons, ih, h]
@[simp] theorem ite_host (c : Prop) [Decidable c] (a b : State) : (if c then a else b).host = if c then a.host else b.host := by split <;> rfl
@[simp] theorem foldl_ptp {α : Type} (l : List α) (g : State → α → State) (s : State) (h : ∀ t x, (g t x).ptp = t.ptp) :
    (l.foldl g s).ptp = s.ptp := by
  induction l generalizing s with
  | nil => rfl
  | cons x r ih => simp [List.foldl_cons, ih, h]
@[simp] theorem ite_ptp (c : Prop) [Decidable c] (a b : State) : (if c then a else b).ptp = if c then a.ptp else b.ptp := by split <;> rfl
@[simp] theorem foldl_net {α : Type} (l : List α) (g : State → α → State) (s : State) (h : ∀ t x, (g t x).net = t.net) :
    (l.foldl g s).net = s.net := by
  induction l generalizing s with
  | nil => rfl
  | cons x r ih => simp [List.foldl_cons, ih, h]
@[simp] theorem ite_net (c : Prop) [Decidable c] (a b : State) : (if c then a else b).net = if c then a.net else b.net := by split <;> rfl
@[simp] theorem foldl_boot {α : Type} (l : List α) (g : State → α → State) (s : State) (h : ∀ t x, (g t x).boot = t.boot) :
    (l.foldl g s).boot = s.boot := by
  induction l generalizing s with
  | nil => rfl
  | cons x r ih => simp [List.foldl_cons, ih, h]
@[simp] theorem ite_boot (c : Prop) [Decidable c] (a b : State) : (if c then a else b).boot = if c then a.boot else b.boot := by split <;> rfl
@[simp] theorem foldl_coh {α : Type} (l : List α) (g : State → α → State) (s : State) (h : ∀ t x, (g t x).coh = t.coh) :
    (l.foldl g s).coh = s.coh := by
  induction l generalizing s with
  | nil => rfl
  | cons x r ih => simp [List.foldl_cons, ih, h]
@[simp] theorem ite_coh (c : Prop) [Decidable c] (a b : State) : (if c then a else b).coh = if c then a.coh else b.coh := by split <;> rfl
@[simp] theorem foldl_mem {α : Type} (l : List α) (g : State → α → State) (s : State) (h : ∀ t x, (g t x).mem = t.mem) :
    (l.foldl g s).mem = s.mem := by
  induction l generalizing s with
  | nil => rfl
  | cons x r ih => simp [List.foldl_cons, ih, h]
@[simp] theorem ite_mem (c : Prop) [Decidable c] (a b : State) : (if c then a else b).mem = if c then a.mem else b.mem := by split <;> rfl
@[simp] theorem foldl_ward {α : Type} (l : List α) (g : State → α → State) (s : State) (h : ∀ t x, (g t x).ward = t.ward) :
    (l.foldl g s).ward = s.ward := by
  induction l generalizing s with
  | nil => rfl
  | cons x r ih => simp [List.foldl_cons, ih, h]
@[simp] theorem ite_ward (c : Prop) [Decidable c] (a b : State) : (if c then a else b).ward = if c then a.ward else b.ward := by split <;> rfl
@[simp] theorem foldl_rime {α : Type} (l : List α) (g : State → α → State) (s : State) (h : ∀ t x, (g t x).rime = t.rime) :
    (l.foldl g s).rime = s.rime := by
  induction l generalizing s with
  | nil => rfl
  | cons x r ih => simp [List.foldl_cons, ih, h]
@[simp] theorem ite_rime (c : Prop) [Decidable c] (a b : State) : (if c then a else b).rime = if c then a.rime else b.rime := by split <;> rfl
@[simp] theorem foldl_sec {α : Type} (l : List α) (g : State → α → State) (s : State) (h : ∀ t x, (g t x).sec = t.sec) :
    (l.foldl g s).sec = s.sec := by
  induction l generalizing s with
  | nil => rfl
  | cons x r ih => simp [List.foldl_cons, ih, h]
@[simp] theorem ite_sec (c : Prop) [Decidable c] (a b : State) : (if c then a else b).sec = if c then a.sec else b.sec := by split <;> rfl
@[simp] theorem foldl_keys {α : Type} (l : List α) (g : State → α → State) (s : State) (h : ∀ t x, (g t x).keys = t.keys) :
    (l.foldl g s).keys = s.keys := by
  induction l generalizing s with
  | nil => rfl
  | cons x r ih => simp [List.foldl_cons, ih, h]
@[simp] theorem ite_keys (c : Prop) [Decidable c] (a b : State) : (if c then a else b).keys = if c then a.keys else b.keys := by split <;> rfl
@[simp] theorem onMac_now (a1) (a2) (s : State) : (onMac a1 a2 s).now = s.now := by rfl
@[simp] theorem onMac_pending (a1) (a2) (s : State) : (onMac a1 a2 s).pending = s.pending := by rfl
@[simp] theorem onMac_out (a1) (a2) (s : State) : (onMac a1 a2 s).out = s.out := by rfl
@[simp] theorem onMac_held (a1) (a2) (s : State) : (onMac a1 a2 s).held = s.held := by rfl
@[simp] theorem onMac_free (a1) (a2) (s : State) : (onMac a1 a2 s).free = s.free := by rfl
@[simp] theorem onMac_serial (a1) (a2) (s : State) : (onMac a1 a2 s).serial = s.serial := by rfl
@[simp] theorem onMac_cfg (a1) (a2) (s : State) : (onMac a1 a2 s).cfg = s.cfg := by rfl
@[simp] theorem onMac_mor (a1) (a2) (s : State) : (onMac a1 a2 s).mor = s.mor := by rfl
@[simp] theorem onMac_keeper (a1) (a2) (s : State) : (onMac a1 a2 s).keeper = s.keeper := by rfl
@[simp] theorem onMac_start (a1) (a2) (s : State) : (onMac a1 a2 s).start = s.start := by rfl
@[simp] theorem onMac_twin (a1) (a2) (s : State) : (onMac a1 a2 s).twin = s.twin := by rfl
@[simp] theorem onMac_gauge (a1) (a2) (s : State) : (onMac a1 a2 s).gauge = s.gauge := by rfl
@[simp] theorem onMac_power (a1) (a2) (s : State) : (onMac a1 a2 s).power = s.power := by rfl
@[simp] theorem onMac_pace (a1) (a2) (s : State) : (onMac a1 a2 s).pace = s.pace := by rfl
@[simp] theorem onMac_kw (a1) (a2) (s : State) : (onMac a1 a2 s).kw = s.kw := by rfl
@[simp] theorem onMac_media (a1) (a2) (s : State) : (onMac a1 a2 s).media = s.media := by rfl
@[simp] theorem onMac_ice (a1) (a2) (s : State) : (onMac a1 a2 s).ice = s.ice := by rfl
@[simp] theorem onMac_host (a1) (a2) (s : State) : (onMac a1 a2 s).host = s.host := by rfl
@[simp] theorem onMac_ptp (a1) (a2) (s : State) : (onMac a1 a2 s).ptp = s.ptp := by rfl
@[simp] theorem onMac_boot (a1) (a2) (s : State) : (onMac a1 a2 s).boot = s.boot := by rfl
@[simp] theorem onMac_coh (a1) (a2) (s : State) : (onMac a1 a2 s).coh = s.coh := by rfl
@[simp] theorem onMac_mem (a1) (a2) (s : State) : (onMac a1 a2 s).mem = s.mem := by rfl
@[simp] theorem onMac_ward (a1) (a2) (s : State) : (onMac a1 a2 s).ward = s.ward := by rfl
@[simp] theorem onMac_rime (a1) (a2) (s : State) : (onMac a1 a2 s).rime = s.rime := by rfl
@[simp] theorem onMac_sec (a1) (a2) (s : State) : (onMac a1 a2 s).sec = s.sec := by rfl
@[simp] theorem onMac_keys (a1) (a2) (s : State) : (onMac a1 a2 s).keys = s.keys := by rfl
@[simp] theorem bump_now (a1) (a2) (a3) (s : State) : (bump a1 a2 a3 s).now = s.now := by rfl
@[simp] theorem bump_pending (a1) (a2) (a3) (s : State) : (bump a1 a2 a3 s).pending = s.pending := by rfl
@[simp] theorem bump_out (a1) (a2) (a3) (s : State) : (bump a1 a2 a3 s).out = s.out := by rfl
@[simp] theorem bump_held (a1) (a2) (a3) (s : State) : (bump a1 a2 a3 s).held = s.held := by rfl
@[simp] theorem bump_free (a1) (a2) (a3) (s : State) : (bump a1 a2 a3 s).free = s.free := by rfl
@[simp] theorem bump_serial (a1) (a2) (a3) (s : State) : (bump a1 a2 a3 s).serial = s.serial := by rfl
@[simp] theorem bump_cfg (a1) (a2) (a3) (s : State) : (bump a1 a2 a3 s).cfg = s.cfg := by rfl
@[simp] theorem bump_mor (a1) (a2) (a3) (s : State) : (bump a1 a2 a3 s).mor = s.mor := by rfl
@[simp] theorem bump_keeper (a1) (a2) (a3) (s : State) : (bump a1 a2 a3 s).keeper = s.keeper := by rfl
@[simp] theorem bump_start (a1) (a2) (a3) (s : State) : (bump a1 a2 a3 s).start = s.start := by rfl
@[simp] theorem bump_twin (a1) (a2) (a3) (s : State) : (bump a1 a2 a3 s).twin = s.twin := by rfl
@[simp] theorem bump_gauge (a1) (a2) (a3) (s : State) : (bump a1 a2 a3 s).gauge = s.gauge := by rfl
@[simp] theorem bump_power (a1) (a2) (a3) (s : State) : (bump a1 a2 a3 s).power = s.power := by rfl
@[simp] theorem bump_pace (a1) (a2) (a3) (s : State) : (bump a1 a2 a3 s).pace = s.pace := by rfl
@[simp] theorem bump_kw (a1) (a2) (a3) (s : State) : (bump a1 a2 a3 s).kw = s.kw := by rfl
@[simp] theorem bump_media (a1) (a2) (a3) (s : State) : (bump a1 a2 a3 s).media = s.media := by rfl
@[simp] theorem bump_ice (a1) (a2) (a3) (s : State) : (bump a1 a2 a3 s).ice = s.ice := by rfl
@[simp] theorem bump_host (a1) (a2) (a3) (s : State) : (bump a1 a2 a3 s).host = s.host := by rfl
@[simp] theorem bump_ptp (a1) (a2) (a3) (s : State) : (bump a1 a2 a3 s).ptp = s.ptp := by rfl
@[simp] theorem bump_boot (a1) (a2) (a3) (s : State) : (bump a1 a2 a3 s).boot = s.boot := by rfl
@[simp] theorem bump_coh (a1) (a2) (a3) (s : State) : (bump a1 a2 a3 s).coh = s.coh := by rfl
@[simp] theorem bump_mem (a1) (a2) (a3) (s : State) : (bump a1 a2 a3 s).mem = s.mem := by rfl
@[simp] theorem bump_ward (a1) (a2) (a3) (s : State) : (bump a1 a2 a3 s).ward = s.ward := by rfl
@[simp] theorem bump_rime (a1) (a2) (a3) (s : State) : (bump a1 a2 a3 s).rime = s.rime := by rfl
@[simp] theorem bump_sec (a1) (a2) (a3) (s : State) : (bump a1 a2 a3 s).sec = s.sec := by rfl
@[simp] theorem bump_keys (a1) (a2) (a3) (s : State) : (bump a1 a2 a3 s).keys = s.keys := by rfl
@[simp] theorem sendOn_now (a1) (a2) (a3) (s : State) : (sendOn a1 a2 a3 s).now = s.now := by
  unfold sendOn; simp
@[simp] theorem sendOn_pending (a1) (a2) (a3) (s : State) : (sendOn a1 a2 a3 s).pending = s.pending := by
  unfold sendOn; simp
@[simp] theorem sendOn_held (a1) (a2) (a3) (s : State) : (sendOn a1 a2 a3 s).held = s.held := by
  unfold sendOn; simp
@[simp] theorem sendOn_free (a1) (a2) (a3) (s : State) : (sendOn a1 a2 a3 s).free = s.free := by
  unfold sendOn; simp
@[simp] theorem sendOn_serial (a1) (a2) (a3) (s : State) : (sendOn a1 a2 a3 s).serial = s.serial := by
  unfold sendOn; simp
@[simp] theorem sendOn_cfg (a1) (a2) (a3) (s : State) : (sendOn a1 a2 a3 s).cfg = s.cfg := by
  unfold sendOn; simp
@[simp] theorem sendOn_mor (a1) (a2) (a3) (s : State) : (sendOn a1 a2 a3 s).mor = s.mor := by
  unfold sendOn; simp
@[simp] theorem sendOn_keeper (a1) (a2) (a3) (s : State) : (sendOn a1 a2 a3 s).keeper = s.keeper := by
  unfold sendOn; simp
@[simp] theorem sendOn_start (a1) (a2) (a3) (s : State) : (sendOn a1 a2 a3 s).start = s.start := by
  unfold sendOn; simp
@[simp] theorem sendOn_twin (a1) (a2) (a3) (s : State) : (sendOn a1 a2 a3 s).twin = s.twin := by
  unfold sendOn; simp
@[simp] theorem sendOn_gauge (a1) (a2) (a3) (s : State) : (sendOn a1 a2 a3 s).gauge = s.gauge := by
  unfold sendOn; simp
@[simp] theorem sendOn_power (a1) (a2) (a3) (s : State) : (sendOn a1 a2 a3 s).power = s.power := by
  unfold sendOn; simp
@[simp] theorem sendOn_pace (a1) (a2) (a3) (s : State) : (sendOn a1 a2 a3 s).pace = s.pace := by
  unfold sendOn; simp
@[simp] theorem sendOn_kw (a1) (a2) (a3) (s : State) : (sendOn a1 a2 a3 s).kw = s.kw := by
  unfold sendOn; simp
@[simp] theorem sendOn_media (a1) (a2) (a3) (s : State) : (sendOn a1 a2 a3 s).media = s.media := by
  unfold sendOn; simp
@[simp] theorem sendOn_ice (a1) (a2) (a3) (s : State) : (sendOn a1 a2 a3 s).ice = s.ice := by
  unfold sendOn; simp
@[simp] theorem sendOn_host (a1) (a2) (a3) (s : State) : (sendOn a1 a2 a3 s).host = s.host := by
  unfold sendOn; simp
@[simp] theorem sendOn_ptp (a1) (a2) (a3) (s : State) : (sendOn a1 a2 a3 s).ptp = s.ptp := by
  unfold sendOn; simp
@[simp] theorem sendOn_boot (a1) (a2) (a3) (s : State) : (sendOn a1 a2 a3 s).boot = s.boot := by
  unfold sendOn; simp
@[simp] theorem sendOn_coh (a1) (a2) (a3) (s : State) : (sendOn a1 a2 a3 s).coh = s.coh := by
  unfold sendOn; simp
@[simp] theorem sendOn_mem (a1) (a2) (a3) (s : State) : (sendOn a1 a2 a3 s).mem = s.mem := by
  unfold sendOn; simp
@[simp] theorem sendOn_ward (a1) (a2) (a3) (s : State) : (sendOn a1 a2 a3 s).ward = s.ward := by
  unfold sendOn; simp
@[simp] theorem sendOn_rime (a1) (a2) (a3) (s : State) : (sendOn a1 a2 a3 s).rime = s.rime := by
  unfold sendOn; simp
@[simp] theorem sendOn_sec (a1) (a2) (a3) (s : State) : (sendOn a1 a2 a3 s).sec = s.sec := by
  unfold sendOn; simp
@[simp] theorem sendOn_keys (a1) (a2) (a3) (s : State) : (sendOn a1 a2 a3 s).keys = s.keys := by
  unfold sendOn; simp
@[simp] theorem txFrame_now (a1) (a2) (a3) (a4) (s : State) : (txFrame a1 a2 a3 a4 s).now = s.now := by
  unfold txFrame; simp
@[simp] theorem txFrame_pending (a1) (a2) (a3) (a4) (s : State) : (txFrame a1 a2 a3 a4 s).pending = s.pending := by
  unfold txFrame; simp
@[simp] theorem txFrame_held (a1) (a2) (a3) (a4) (s : State) : (txFrame a1 a2 a3 a4 s).held = s.held := by
  unfold txFrame; simp
@[simp] theorem txFrame_free (a1) (a2) (a3) (a4) (s : State) : (txFrame a1 a2 a3 a4 s).free = s.free := by
  unfold txFrame; simp
@[simp] theorem txFrame_serial (a1) (a2) (a3) (a4) (s : State) : (txFrame a1 a2 a3 a4 s).serial = s.serial := by
  unfold txFrame; simp
@[simp] theorem txFrame_cfg (a1) (a2) (a3) (a4) (s : State) : (txFrame a1 a2 a3 a4 s).cfg = s.cfg := by
  unfold txFrame; simp
@[simp] theorem txFrame_mor (a1) (a2) (a3) (a4) (s : State) : (txFrame a1 a2 a3 a4 s).mor = s.mor := by
  unfold txFrame; simp
@[simp] theorem txFrame_keeper (a1) (a2) (a3) (a4) (s : State) : (txFrame a1 a2 a3 a4 s).keeper = s.keeper := by
  unfold txFrame; simp
@[simp] theorem txFrame_start (a1) (a2) (a3) (a4) (s : State) : (txFrame a1 a2 a3 a4 s).start = s.start := by
  unfold txFrame; simp
@[simp] theorem txFrame_twin (a1) (a2) (a3) (a4) (s : State) : (txFrame a1 a2 a3 a4 s).twin = s.twin := by
  unfold txFrame; simp
@[simp] theorem txFrame_gauge (a1) (a2) (a3) (a4) (s : State) : (txFrame a1 a2 a3 a4 s).gauge = s.gauge := by
  unfold txFrame; simp
@[simp] theorem txFrame_power (a1) (a2) (a3) (a4) (s : State) : (txFrame a1 a2 a3 a4 s).power = s.power := by
  unfold txFrame; simp
@[simp] theorem txFrame_pace (a1) (a2) (a3) (a4) (s : State) : (txFrame a1 a2 a3 a4 s).pace = s.pace := by
  unfold txFrame; simp
@[simp] theorem txFrame_kw (a1) (a2) (a3) (a4) (s : State) : (txFrame a1 a2 a3 a4 s).kw = s.kw := by
  unfold txFrame; simp
@[simp] theorem txFrame_media (a1) (a2) (a3) (a4) (s : State) : (txFrame a1 a2 a3 a4 s).media = s.media := by
  unfold txFrame; simp
@[simp] theorem txFrame_ice (a1) (a2) (a3) (a4) (s : State) : (txFrame a1 a2 a3 a4 s).ice = s.ice := by
  unfold txFrame; simp
@[simp] theorem txFrame_host (a1) (a2) (a3) (a4) (s : State) : (txFrame a1 a2 a3 a4 s).host = s.host := by
  unfold txFrame; simp
@[simp] theorem txFrame_ptp (a1) (a2) (a3) (a4) (s : State) : (txFrame a1 a2 a3 a4 s).ptp = s.ptp := by
  unfold txFrame; simp
@[simp] theorem txFrame_boot (a1) (a2) (a3) (a4) (s : State) : (txFrame a1 a2 a3 a4 s).boot = s.boot := by
  unfold txFrame; simp
@[simp] theorem txFrame_coh (a1) (a2) (a3) (a4) (s : State) : (txFrame a1 a2 a3 a4 s).coh = s.coh := by
  unfold txFrame; simp
@[simp] theorem txFrame_mem (a1) (a2) (a3) (a4) (s : State) : (txFrame a1 a2 a3 a4 s).mem = s.mem := by
  unfold txFrame; simp
@[simp] theorem txFrame_ward (a1) (a2) (a3) (a4) (s : State) : (txFrame a1 a2 a3 a4 s).ward = s.ward := by
  unfold txFrame; simp
@[simp] theorem txFrame_rime (a1) (a2) (a3) (a4) (s : State) : (txFrame a1 a2 a3 a4 s).rime = s.rime := by
  unfold txFrame; simp
@[simp] theorem txFrame_sec (a1) (a2) (a3) (a4) (s : State) : (txFrame a1 a2 a3 a4 s).sec = s.sec := by
  unfold txFrame; simp
@[simp] theorem txFrame_keys (a1) (a2) (a3) (a4) (s : State) : (txFrame a1 a2 a3 a4 s).keys = s.keys := by
  unfold txFrame; simp
@[simp] theorem emitNow_now (a1) (s : State) : (emitNow a1 s).now = s.now := by
  unfold emitNow; (repeat' split) <;> simp
@[simp] theorem emitNow_pending (a1) (s : State) : (emitNow a1 s).pending = s.pending := by
  unfold emitNow; (repeat' split) <;> simp
@[simp] theorem emitNow_held (a1) (s : State) : (emitNow a1 s).held = s.held := by
  unfold emitNow; (repeat' split) <;> simp
@[simp] theorem emitNow_free (a1) (s : State) : (emitNow a1 s).free = s.free := by
  unfold emitNow; (repeat' split) <;> simp
@[simp] theorem emitNow_serial (a1) (s : State) : (emitNow a1 s).serial = s.serial := by
  unfold emitNow; (repeat' split) <;> simp
@[simp] theorem emitNow_cfg (a1) (s : State) : (emitNow a1 s).cfg = s.cfg := by
  unfold emitNow; (repeat' split) <;> simp
@[simp] theorem emitNow_mor (a1) (s : State) : (emitNow a1 s).mor = s.mor := by
  unfold emitNow; (repeat' split) <;> simp
@[simp] theorem emitNow_keeper (a1) (s : State) : (emitNow a1 s).keeper = s.keeper := by
  unfold emitNow; (repeat' split) <;> simp
@[simp] theorem emitNow_start (a1) (s : State) : (emitNow a1 s).start = s.start := by
  unfold emitNow; (repeat' split) <;> simp
@[simp] theorem emitNow_twin (a1) (s : State) : (emitNow a1 s).twin = s.twin := by
  unfold emitNow; (repeat' split) <;> simp
@[simp] theorem emitNow_gauge (a1) (s : State) : (emitNow a1 s).gauge = s.gauge := by
  unfold emitNow; (repeat' split) <;> simp
@[simp] theorem emitNow_power (a1) (s : State) : (emitNow a1 s).power = s.power := by
  unfold emitNow; (repeat' split) <;> simp
@[simp] theorem emitNow_pace (a1) (s : State) : (emitNow a1 s).pace = s.pace := by
  unfold emitNow; (repeat' split) <;> simp
@[simp] theorem emitNow_kw (a1) (s : State) : (emitNow a1 s).kw = s.kw := by
  unfold emitNow; (repeat' split) <;> simp
@[simp] theorem emitNow_media (a1) (s : State) : (emitNow a1 s).media = s.media := by
  unfold emitNow; (repeat' split) <;> simp
@[simp] theorem emitNow_ice (a1) (s : State) : (emitNow a1 s).ice = s.ice := by
  unfold emitNow; (repeat' split) <;> simp
@[simp] theorem emitNow_host (a1) (s : State) : (emitNow a1 s).host = s.host := by
  unfold emitNow; (repeat' split) <;> simp
@[simp] theorem emitNow_ptp (a1) (s : State) : (emitNow a1 s).ptp = s.ptp := by
  unfold emitNow; (repeat' split) <;> simp
@[simp] theorem emitNow_boot (a1) (s : State) : (emitNow a1 s).boot = s.boot := by
  unfold emitNow; (repeat' split) <;> simp
@[simp] theorem emitNow_coh (a1) (s : State) : (emitNow a1 s).coh = s.coh := by
  unfold emitNow; (repeat' split) <;> simp
@[simp] theorem emitNow_mem (a1) (s : State) : (emitNow a1 s).mem = s.mem := by
  unfold emitNow; (repeat' split) <;> simp
@[simp] theorem emitNow_ward (a1) (s : State) : (emitNow a1 s).ward = s.ward := by
  unfold emitNow; (repeat' split) <;> simp
@[simp] theorem emitNow_rime (a1) (s : State) : (emitNow a1 s).rime = s.rime := by
  unfold emitNow; (repeat' split) <;> simp
@[simp] theorem emitNow_sec (a1) (s : State) : (emitNow a1 s).sec = s.sec := by
  unfold emitNow; (repeat' split) <;> simp
@[simp] theorem emitNow_keys (a1) (s : State) : (emitNow a1 s).keys = s.keys := by
  unfold emitNow; (repeat' split) <;> simp
@[simp] theorem sendFrame_now (a1) (s : State) : (sendFrame a1 s).now = s.now := by
  unfold sendFrame; simp
@[simp] theorem sendFrame_pending (a1) (s : State) : (sendFrame a1 s).pending = s.pending := by
  unfold sendFrame; simp
@[simp] theorem sendFrame_held (a1) (s : State) : (sendFrame a1 s).held = s.held := by
  unfold sendFrame; simp
@[simp] theorem sendFrame_free (a1) (s : State) : (sendFrame a1 s).free = s.free := by
  unfold sendFrame; simp
@[simp] theorem sendFrame_serial (a1) (s : State) : (sendFrame a1 s).serial = s.serial := by
  unfold sendFrame; simp
@[simp] theorem sendFrame_cfg (a1) (s : State) : (sendFrame a1 s).cfg = s.cfg := by
  unfold sendFrame; simp
@[simp] theorem sendFrame_mor (a1) (s : State) : (sendFrame a1 s).mor = s.mor := by
  unfold sendFrame; simp
@[simp] theorem sendFrame_keeper (a1) (s : State) : (sendFrame a1 s).keeper = s.keeper := by
  unfold sendFrame; simp
@[simp] theorem sendFrame_start (a1) (s : State) : (sendFrame a1 s).start = s.start := by
  unfold sendFrame; simp
@[simp] theorem sendFrame_gauge (a1) (s : State) : (sendFrame a1 s).gauge = s.gauge := by
  unfold sendFrame; simp
@[simp] theorem sendFrame_power (a1) (s : State) : (sendFrame a1 s).power = s.power := by
  unfold sendFrame; simp
@[simp] theorem sendFrame_pace (a1) (s : State) : (sendFrame a1 s).pace = s.pace := by
  unfold sendFrame; simp
@[simp] theorem sendFrame_kw (a1) (s : State) : (sendFrame a1 s).kw = s.kw := by
  unfold sendFrame; simp
@[simp] theorem sendFrame_media (a1) (s : State) : (sendFrame a1 s).media = s.media := by
  unfold sendFrame; simp
@[simp] theorem sendFrame_ice (a1) (s : State) : (sendFrame a1 s).ice = s.ice := by
  unfold sendFrame; simp
@[simp] theorem sendFrame_host (a1) (s : State) : (sendFrame a1 s).host = s.host := by
  unfold sendFrame; simp
@[simp] theorem sendFrame_ptp (a1) (s : State) : (sendFrame a1 s).ptp = s.ptp := by
  unfold sendFrame; simp
@[simp] theorem sendFrame_net (a1) (s : State) : (sendFrame a1 s).net = s.net := by
  unfold sendFrame; simp
@[simp] theorem sendFrame_boot (a1) (s : State) : (sendFrame a1 s).boot = s.boot := by
  unfold sendFrame; simp
@[simp] theorem sendFrame_coh (a1) (s : State) : (sendFrame a1 s).coh = s.coh := by
  unfold sendFrame; simp
@[simp] theorem sendFrame_mem (a1) (s : State) : (sendFrame a1 s).mem = s.mem := by
  unfold sendFrame; simp
@[simp] theorem sendFrame_ward (a1) (s : State) : (sendFrame a1 s).ward = s.ward := by
  unfold sendFrame; simp
@[simp] theorem sendFrame_rime (a1) (s : State) : (sendFrame a1 s).rime = s.rime := by
  unfold sendFrame; simp
@[simp] theorem sendFrame_sec (a1) (s : State) : (sendFrame a1 s).sec = s.sec := by
  unfold sendFrame; simp
@[simp] theorem sendFrame_keys (a1) (s : State) : (sendFrame a1 s).keys = s.keys := by
  unfold sendFrame; simp
@[simp] theorem mirror_now (a1) (s : State) : (mirror a1 s).now = s.now := by
  unfold mirror; simp
@[simp] theorem mirror_pending (a1) (s : State) : (mirror a1 s).pending = s.pending := by
  unfold mirror; simp
@[simp] theorem mirror_held (a1) (s : State) : (mirror a1 s).held = s.held := by
  unfold mirror; simp
@[simp] theorem mirror_free (a1) (s : State) : (mirror a1 s).free = s.free := by
  unfold mirror; simp
@[simp] theorem mirror_serial (a1) (s : State) : (mirror a1 s).serial = s.serial := by
  unfold mirror; simp
@[simp] theorem mirror_cfg (a1) (s : State) : (mirror a1 s).cfg = s.cfg := by
  unfold mirror; simp
@[simp] theorem mirror_mor (a1) (s : State) : (mirror a1 s).mor = s.mor := by
  unfold mirror; simp
@[simp] theorem mirror_keeper (a1) (s : State) : (mirror a1 s).keeper = s.keeper := by
  unfold mirror; simp
@[simp] theorem mirror_start (a1) (s : State) : (mirror a1 s).start = s.start := by
  unfold mirror; simp
@[simp] theorem mirror_gauge (a1) (s : State) : (mirror a1 s).gauge = s.gauge := by
  unfold mirror; simp
@[simp] theorem mirror_power (a1) (s : State) : (mirror a1 s).power = s.power := by
  unfold mirror; simp
@[simp] theorem mirror_pace (a1) (s : State) : (mirror a1 s).pace = s.pace := by
  unfold mirror; simp
@[simp] theorem mirror_kw (a1) (s : State) : (mirror a1 s).kw = s.kw := by
  unfold mirror; simp
@[simp] theorem mirror_media (a1) (s : State) : (mirror a1 s).media = s.media := by
  unfold mirror; simp
@[simp] theorem mirror_ice (a1) (s : State) : (mirror a1 s).ice = s.ice := by
  unfold mirror; simp
@[simp] theorem mirror_host (a1) (s : State) : (mirror a1 s).host = s.host := by
  unfold mirror; simp
@[simp] theorem mirror_ptp (a1) (s : State) : (mirror a1 s).ptp = s.ptp := by
  unfold mirror; simp
@[simp] theorem mirror_net (a1) (s : State) : (mirror a1 s).net = s.net := by
  unfold mirror; simp
@[simp] theorem mirror_boot (a1) (s : State) : (mirror a1 s).boot = s.boot := by
  unfold mirror; simp
@[simp] theorem mirror_coh (a1) (s : State) : (mirror a1 s).coh = s.coh := by
  unfold mirror; simp
@[simp] theorem mirror_mem (a1) (s : State) : (mirror a1 s).mem = s.mem := by
  unfold mirror; simp
@[simp] theorem mirror_ward (a1) (s : State) : (mirror a1 s).ward = s.ward := by
  unfold mirror; simp
@[simp] theorem mirror_rime (a1) (s : State) : (mirror a1 s).rime = s.rime := by
  unfold mirror; simp
@[simp] theorem mirror_sec (a1) (s : State) : (mirror a1 s).sec = s.sec := by
  unfold mirror; simp
@[simp] theorem mirror_keys (a1) (s : State) : (mirror a1 s).keys = s.keys := by
  unfold mirror; simp
@[simp] theorem emit_now (a1) (s : State) : (emit a1 s).now = s.now := by
  unfold emit; (repeat' split) <;> simp
@[simp] theorem emit_pending (a1) (s : State) : (emit a1 s).pending = s.pending := by
  unfold emit; (repeat' split) <;> simp
@[simp] theorem emit_free (a1) (s : State) : (emit a1 s).free = s.free := by
  unfold emit; (repeat' split) <;> simp
@[simp] theorem emit_serial (a1) (s : State) : (emit a1 s).serial = s.serial := by
  unfold emit; (repeat' split) <;> simp
@[simp] theorem emit_cfg (a1) (s : State) : (emit a1 s).cfg = s.cfg := by
  unfold emit; (repeat' split) <;> simp
@[simp] theorem emit_mor (a1) (s : State) : (emit a1 s).mor = s.mor := by
  unfold emit; (repeat' split) <;> simp
@[simp] theorem emit_keeper (a1) (s : State) : (emit a1 s).keeper = s.keeper := by
  unfold emit; (repeat' split) <;> simp
@[simp] theorem emit_start (a1) (s : State) : (emit a1 s).start = s.start := by
  unfold emit; (repeat' split) <;> simp
@[simp] theorem emit_twin (a1) (s : State) : (emit a1 s).twin = s.twin := by
  unfold emit; (repeat' split) <;> simp
@[simp] theorem emit_gauge (a1) (s : State) : (emit a1 s).gauge = s.gauge := by
  unfold emit; (repeat' split) <;> simp
@[simp] theorem emit_power (a1) (s : State) : (emit a1 s).power = s.power := by
  unfold emit; (repeat' split) <;> simp
@[simp] theorem emit_pace (a1) (s : State) : (emit a1 s).pace = s.pace := by
  unfold emit; (repeat' split) <;> simp
@[simp] theorem emit_kw (a1) (s : State) : (emit a1 s).kw = s.kw := by
  unfold emit; (repeat' split) <;> simp
@[simp] theorem emit_media (a1) (s : State) : (emit a1 s).media = s.media := by
  unfold emit; (repeat' split) <;> simp
@[simp] theorem emit_ice (a1) (s : State) : (emit a1 s).ice = s.ice := by
  unfold emit; (repeat' split) <;> simp
@[simp] theorem emit_host (a1) (s : State) : (emit a1 s).host = s.host := by
  unfold emit; (repeat' split) <;> simp
@[simp] theorem emit_ptp (a1) (s : State) : (emit a1 s).ptp = s.ptp := by
  unfold emit; (repeat' split) <;> simp
@[simp] theorem emit_boot (a1) (s : State) : (emit a1 s).boot = s.boot := by
  unfold emit; (repeat' split) <;> simp
@[simp] theorem emit_coh (a1) (s : State) : (emit a1 s).coh = s.coh := by
  unfold emit; (repeat' split) <;> simp
@[simp] theorem emit_mem (a1) (s : State) : (emit a1 s).mem = s.mem := by
  unfold emit; (repeat' split) <;> simp
@[simp] theorem emit_ward (a1) (s : State) : (emit a1 s).ward = s.ward := by
  unfold emit; (repeat' split) <;> simp
@[simp] theorem emit_rime (a1) (s : State) : (emit a1 s).rime = s.rime := by
  unfold emit; (repeat' split) <;> simp
@[simp] theorem emit_sec (a1) (s : State) : (emit a1 s).sec = s.sec := by
  unfold emit; (repeat' split) <;> simp
@[simp] theorem emit_keys (a1) (s : State) : (emit a1 s).keys = s.keys := by
  unfold emit; (repeat' split) <;> simp
@[simp] theorem releaseUpTo_now (a1) (s : State) : (releaseUpTo a1 s).now = s.now := by
  unfold releaseUpTo; simp
@[simp] theorem releaseUpTo_pending (a1) (s : State) : (releaseUpTo a1 s).pending = s.pending := by
  unfold releaseUpTo; simp
@[simp] theorem releaseUpTo_free (a1) (s : State) : (releaseUpTo a1 s).free = s.free := by
  unfold releaseUpTo; simp
@[simp] theorem releaseUpTo_serial (a1) (s : State) : (releaseUpTo a1 s).serial = s.serial := by
  unfold releaseUpTo; simp
@[simp] theorem releaseUpTo_cfg (a1) (s : State) : (releaseUpTo a1 s).cfg = s.cfg := by
  unfold releaseUpTo; simp
@[simp] theorem releaseUpTo_mor (a1) (s : State) : (releaseUpTo a1 s).mor = s.mor := by
  unfold releaseUpTo; simp
@[simp] theorem releaseUpTo_keeper (a1) (s : State) : (releaseUpTo a1 s).keeper = s.keeper := by
  unfold releaseUpTo; simp
@[simp] theorem releaseUpTo_start (a1) (s : State) : (releaseUpTo a1 s).start = s.start := by
  unfold releaseUpTo; simp
@[simp] theorem releaseUpTo_twin (a1) (s : State) : (releaseUpTo a1 s).twin = s.twin := by
  unfold releaseUpTo; simp
@[simp] theorem releaseUpTo_gauge (a1) (s : State) : (releaseUpTo a1 s).gauge = s.gauge := by
  unfold releaseUpTo; simp
@[simp] theorem releaseUpTo_power (a1) (s : State) : (releaseUpTo a1 s).power = s.power := by
  unfold releaseUpTo; simp
@[simp] theorem releaseUpTo_pace (a1) (s : State) : (releaseUpTo a1 s).pace = s.pace := by
  unfold releaseUpTo; simp
@[simp] theorem releaseUpTo_kw (a1) (s : State) : (releaseUpTo a1 s).kw = s.kw := by
  unfold releaseUpTo; simp
@[simp] theorem releaseUpTo_media (a1) (s : State) : (releaseUpTo a1 s).media = s.media := by
  unfold releaseUpTo; simp
@[simp] theorem releaseUpTo_ice (a1) (s : State) : (releaseUpTo a1 s).ice = s.ice := by
  unfold releaseUpTo; simp
@[simp] theorem releaseUpTo_host (a1) (s : State) : (releaseUpTo a1 s).host = s.host := by
  unfold releaseUpTo; simp
@[simp] theorem releaseUpTo_ptp (a1) (s : State) : (releaseUpTo a1 s).ptp = s.ptp := by
  unfold releaseUpTo; simp
@[simp] theorem releaseUpTo_boot (a1) (s : State) : (releaseUpTo a1 s).boot = s.boot := by
  unfold releaseUpTo; simp
@[simp] theorem releaseUpTo_coh (a1) (s : State) : (releaseUpTo a1 s).coh = s.coh := by
  unfold releaseUpTo; simp
@[simp] theorem releaseUpTo_mem (a1) (s : State) : (releaseUpTo a1 s).mem = s.mem := by
  unfold releaseUpTo; simp
@[simp] theorem releaseUpTo_ward (a1) (s : State) : (releaseUpTo a1 s).ward = s.ward := by
  unfold releaseUpTo; simp
@[simp] theorem releaseUpTo_rime (a1) (s : State) : (releaseUpTo a1 s).rime = s.rime := by
  unfold releaseUpTo; simp
@[simp] theorem releaseUpTo_sec (a1) (s : State) : (releaseUpTo a1 s).sec = s.sec := by
  unfold releaseUpTo; simp
@[simp] theorem releaseUpTo_keys (a1) (s : State) : (releaseUpTo a1 s).keys = s.keys := by
  unfold releaseUpTo; simp
@[simp] theorem releaseAll_now (s : State) : (releaseAll s).now = s.now := by
  unfold releaseAll; simp
@[simp] theorem releaseAll_pending (s : State) : (releaseAll s).pending = s.pending := by
  unfold releaseAll; simp
@[simp] theorem releaseAll_free (s : State) : (releaseAll s).free = s.free := by
  unfold releaseAll; simp
@[simp] theorem releaseAll_serial (s : State) : (releaseAll s).serial = s.serial := by
  unfold releaseAll; simp
@[simp] theorem releaseAll_cfg (s : State) : (releaseAll s).cfg = s.cfg := by
  unfold releaseAll; simp
@[simp] theorem releaseAll_mor (s : State) : (releaseAll s).mor = s.mor := by
  unfold releaseAll; simp
@[simp] theorem releaseAll_keeper (s : State) : (releaseAll s).keeper = s.keeper := by
  unfold releaseAll; simp
@[simp] theorem releaseAll_start (s : State) : (releaseAll s).start = s.start := by
  unfold releaseAll; simp
@[simp] theorem releaseAll_twin (s : State) : (releaseAll s).twin = s.twin := by
  unfold releaseAll; simp
@[simp] theorem releaseAll_gauge (s : State) : (releaseAll s).gauge = s.gauge := by
  unfold releaseAll; simp
@[simp] theorem releaseAll_power (s : State) : (releaseAll s).power = s.power := by
  unfold releaseAll; simp
@[simp] theorem releaseAll_pace (s : State) : (releaseAll s).pace = s.pace := by
  unfold releaseAll; simp
@[simp] theorem releaseAll_kw (s : State) : (releaseAll s).kw = s.kw := by
  unfold releaseAll; simp
@[simp] theorem releaseAll_media (s : State) : (releaseAll s).media = s.media := by
  unfold releaseAll; simp
@[simp] theorem releaseAll_ice (s : State) : (releaseAll s).ice = s.ice := by
  unfold releaseAll; simp
@[simp] theorem releaseAll_host (s : State) : (releaseAll s).host = s.host := by
  unfold releaseAll; simp
@[simp] theorem releaseAll_ptp (s : State) : (releaseAll s).ptp = s.ptp := by
  unfold releaseAll; simp
@[simp] theorem releaseAll_boot (s : State) : (releaseAll s).boot = s.boot := by
  unfold releaseAll; simp
@[simp] theorem releaseAll_coh (s : State) : (releaseAll s).coh = s.coh := by
  unfold releaseAll; simp
@[simp] theorem releaseAll_mem (s : State) : (releaseAll s).mem = s.mem := by
  unfold releaseAll; simp
@[simp] theorem releaseAll_ward (s : State) : (releaseAll s).ward = s.ward := by
  unfold releaseAll; simp
@[simp] theorem releaseAll_rime (s : State) : (releaseAll s).rime = s.rime := by
  unfold releaseAll; simp
@[simp] theorem releaseAll_sec (s : State) : (releaseAll s).sec = s.sec := by
  unfold releaseAll; simp
@[simp] theorem releaseAll_keys (s : State) : (releaseAll s).keys = s.keys := by
  unfold releaseAll; simp
@[simp] theorem mirrorPlan_now (a1) (a2) (s : State) : (mirrorPlan a1 a2 s).now = s.now := by
  unfold mirrorPlan; simp
@[simp] theorem mirrorPlan_pending (a1) (a2) (s : State) : (mirrorPlan a1 a2 s).pending = s.pending := by
  unfold mirrorPlan; simp
@[simp] theorem mirrorPlan_held (a1) (a2) (s : State) : (mirrorPlan a1 a2 s).held = s.held := by
  unfold mirrorPlan; simp
@[simp] theorem mirrorPlan_free (a1) (a2) (s : State) : (mirrorPlan a1 a2 s).free = s.free := by
  unfold mirrorPlan; simp
@[simp] theorem mirrorPlan_serial (a1) (a2) (s : State) : (mirrorPlan a1 a2 s).serial = s.serial := by
  unfold mirrorPlan; simp
@[simp] theorem mirrorPlan_cfg (a1) (a2) (s : State) : (mirrorPlan a1 a2 s).cfg = s.cfg := by
  unfold mirrorPlan; simp
@[simp] theorem mirrorPlan_mor (a1) (a2) (s : State) : (mirrorPlan a1 a2 s).mor = s.mor := by
  unfold mirrorPlan; simp
@[simp] theorem mirrorPlan_keeper (a1) (a2) (s : State) : (mirrorPlan a1 a2 s).keeper = s.keeper := by
  unfold mirrorPlan; simp
@[simp] theorem mirrorPlan_start (a1) (a2) (s : State) : (mirrorPlan a1 a2 s).start = s.start := by
  unfold mirrorPlan; simp
@[simp] theorem mirrorPlan_gauge (a1) (a2) (s : State) : (mirrorPlan a1 a2 s).gauge = s.gauge := by
  unfold mirrorPlan; simp
@[simp] theorem mirrorPlan_power (a1) (a2) (s : State) : (mirrorPlan a1 a2 s).power = s.power := by
  unfold mirrorPlan; simp
@[simp] theorem mirrorPlan_pace (a1) (a2) (s : State) : (mirrorPlan a1 a2 s).pace = s.pace := by
  unfold mirrorPlan; simp
@[simp] theorem mirrorPlan_kw (a1) (a2) (s : State) : (mirrorPlan a1 a2 s).kw = s.kw := by
  unfold mirrorPlan; simp
@[simp] theorem mirrorPlan_media (a1) (a2) (s : State) : (mirrorPlan a1 a2 s).media = s.media := by
  unfold mirrorPlan; simp
@[simp] theorem mirrorPlan_ice (a1) (a2) (s : State) : (mirrorPlan a1 a2 s).ice = s.ice := by
  unfold mirrorPlan; simp
@[simp] theorem mirrorPlan_host (a1) (a2) (s : State) : (mirrorPlan a1 a2 s).host = s.host := by
  unfold mirrorPlan; simp
@[simp] theorem mirrorPlan_ptp (a1) (a2) (s : State) : (mirrorPlan a1 a2 s).ptp = s.ptp := by
  unfold mirrorPlan; simp
@[simp] theorem mirrorPlan_net (a1) (a2) (s : State) : (mirrorPlan a1 a2 s).net = s.net := by
  unfold mirrorPlan; simp
@[simp] theorem mirrorPlan_boot (a1) (a2) (s : State) : (mirrorPlan a1 a2 s).boot = s.boot := by
  unfold mirrorPlan; simp
@[simp] theorem mirrorPlan_coh (a1) (a2) (s : State) : (mirrorPlan a1 a2 s).coh = s.coh := by
  unfold mirrorPlan; simp
@[simp] theorem mirrorPlan_mem (a1) (a2) (s : State) : (mirrorPlan a1 a2 s).mem = s.mem := by
  unfold mirrorPlan; simp
@[simp] theorem mirrorPlan_ward (a1) (a2) (s : State) : (mirrorPlan a1 a2 s).ward = s.ward := by
  unfold mirrorPlan; simp
@[simp] theorem mirrorPlan_rime (a1) (a2) (s : State) : (mirrorPlan a1 a2 s).rime = s.rime := by
  unfold mirrorPlan; simp
@[simp] theorem mirrorPlan_sec (a1) (a2) (s : State) : (mirrorPlan a1 a2 s).sec = s.sec := by
  unfold mirrorPlan; simp
@[simp] theorem mirrorPlan_keys (a1) (a2) (s : State) : (mirrorPlan a1 a2 s).keys = s.keys := by
  unfold mirrorPlan; simp
@[simp] theorem sentOn_now (a1) (a2) (s : State) : (sentOn a1 a2 s).now = s.now := by rfl
@[simp] theorem sentOn_pending (a1) (a2) (s : State) : (sentOn a1 a2 s).pending = s.pending := by rfl
@[simp] theorem sentOn_out (a1) (a2) (s : State) : (sentOn a1 a2 s).out = s.out := by rfl
@[simp] theorem sentOn_held (a1) (a2) (s : State) : (sentOn a1 a2 s).held = s.held := by rfl
@[simp] theorem sentOn_free (a1) (a2) (s : State) : (sentOn a1 a2 s).free = s.free := by rfl
@[simp] theorem sentOn_serial (a1) (a2) (s : State) : (sentOn a1 a2 s).serial = s.serial := by rfl
@[simp] theorem sentOn_cfg (a1) (a2) (s : State) : (sentOn a1 a2 s).cfg = s.cfg := by rfl
@[simp] theorem sentOn_mor (a1) (a2) (s : State) : (sentOn a1 a2 s).mor = s.mor := by rfl
@[simp] theorem sentOn_keeper (a1) (a2) (s : State) : (sentOn a1 a2 s).keeper = s.keeper := by rfl
@[simp] theorem sentOn_start (a1) (a2) (s : State) : (sentOn a1 a2 s).start = s.start := by rfl
@[simp] theorem sentOn_twin (a1) (a2) (s : State) : (sentOn a1 a2 s).twin = s.twin := by rfl
@[simp] theorem sentOn_gauge (a1) (a2) (s : State) : (sentOn a1 a2 s).gauge = s.gauge := by rfl
@[simp] theorem sentOn_power (a1) (a2) (s : State) : (sentOn a1 a2 s).power = s.power := by rfl
@[simp] theorem sentOn_pace (a1) (a2) (s : State) : (sentOn a1 a2 s).pace = s.pace := by rfl
@[simp] theorem sentOn_kw (a1) (a2) (s : State) : (sentOn a1 a2 s).kw = s.kw := by rfl
@[simp] theorem sentOn_media (a1) (a2) (s : State) : (sentOn a1 a2 s).media = s.media := by rfl
@[simp] theorem sentOn_ice (a1) (a2) (s : State) : (sentOn a1 a2 s).ice = s.ice := by rfl
@[simp] theorem sentOn_ptp (a1) (a2) (s : State) : (sentOn a1 a2 s).ptp = s.ptp := by rfl
@[simp] theorem sentOn_net (a1) (a2) (s : State) : (sentOn a1 a2 s).net = s.net := by rfl
@[simp] theorem sentOn_boot (a1) (a2) (s : State) : (sentOn a1 a2 s).boot = s.boot := by rfl
@[simp] theorem sentOn_coh (a1) (a2) (s : State) : (sentOn a1 a2 s).coh = s.coh := by rfl
@[simp] theorem sentOn_mem (a1) (a2) (s : State) : (sentOn a1 a2 s).mem = s.mem := by rfl
@[simp] theorem sentOn_ward (a1) (a2) (s : State) : (sentOn a1 a2 s).ward = s.ward := by rfl
@[simp] theorem sentOn_rime (a1) (a2) (s : State) : (sentOn a1 a2 s).rime = s.rime := by rfl
@[simp] theorem sentOn_sec (a1) (a2) (s : State) : (sentOn a1 a2 s).sec = s.sec := by rfl
@[simp] theorem sentOn_keys (a1) (a2) (s : State) : (sentOn a1 a2 s).keys = s.keys := by rfl
@[simp] theorem mirrorConn_now (a1) (s : State) : (mirrorConn a1 s).now = s.now := by
  unfold mirrorConn; (repeat' split) <;> simp
@[simp] theorem mirrorConn_pending (a1) (s : State) : (mirrorConn a1 s).pending = s.pending := by
  unfold mirrorConn; (repeat' split) <;> simp
@[simp] theorem mirrorConn_held (a1) (s : State) : (mirrorConn a1 s).held = s.held := by
  unfold mirrorConn; (repeat' split) <;> simp
@[simp] theorem mirrorConn_free (a1) (s : State) : (mirrorConn a1 s).free = s.free := by
  unfold mirrorConn; (repeat' split) <;> simp
@[simp] theorem mirrorConn_serial (a1) (s : State) : (mirrorConn a1 s).serial = s.serial := by
  unfold mirrorConn; (repeat' split) <;> simp
@[simp] theorem mirrorConn_cfg (a1) (s : State) : (mirrorConn a1 s).cfg = s.cfg := by
  unfold mirrorConn; (repeat' split) <;> simp
@[simp] theorem mirrorConn_mor (a1) (s : State) : (mirrorConn a1 s).mor = s.mor := by
  unfold mirrorConn; (repeat' split) <;> simp
@[simp] theorem mirrorConn_keeper (a1) (s : State) : (mirrorConn a1 s).keeper = s.keeper := by
  unfold mirrorConn; (repeat' split) <;> simp
@[simp] theorem mirrorConn_start (a1) (s : State) : (mirrorConn a1 s).start = s.start := by
  unfold mirrorConn; (repeat' split) <;> simp
@[simp] theorem mirrorConn_gauge (a1) (s : State) : (mirrorConn a1 s).gauge = s.gauge := by
  unfold mirrorConn; (repeat' split) <;> simp
@[simp] theorem mirrorConn_power (a1) (s : State) : (mirrorConn a1 s).power = s.power := by
  unfold mirrorConn; (repeat' split) <;> simp
@[simp] theorem mirrorConn_pace (a1) (s : State) : (mirrorConn a1 s).pace = s.pace := by
  unfold mirrorConn; (repeat' split) <;> simp
@[simp] theorem mirrorConn_kw (a1) (s : State) : (mirrorConn a1 s).kw = s.kw := by
  unfold mirrorConn; (repeat' split) <;> simp
@[simp] theorem mirrorConn_media (a1) (s : State) : (mirrorConn a1 s).media = s.media := by
  unfold mirrorConn; (repeat' split) <;> simp
@[simp] theorem mirrorConn_ice (a1) (s : State) : (mirrorConn a1 s).ice = s.ice := by
  unfold mirrorConn; (repeat' split) <;> simp
@[simp] theorem mirrorConn_host (a1) (s : State) : (mirrorConn a1 s).host = s.host := by
  unfold mirrorConn; (repeat' split) <;> simp
@[simp] theorem mirrorConn_ptp (a1) (s : State) : (mirrorConn a1 s).ptp = s.ptp := by
  unfold mirrorConn; (repeat' split) <;> simp
@[simp] theorem mirrorConn_net (a1) (s : State) : (mirrorConn a1 s).net = s.net := by
  unfold mirrorConn; (repeat' split) <;> simp
@[simp] theorem mirrorConn_boot (a1) (s : State) : (mirrorConn a1 s).boot = s.boot := by
  unfold mirrorConn; (repeat' split) <;> simp
@[simp] theorem mirrorConn_coh (a1) (s : State) : (mirrorConn a1 s).coh = s.coh := by
  unfold mirrorConn; (repeat' split) <;> simp
@[simp] theorem mirrorConn_mem (a1) (s : State) : (mirrorConn a1 s).mem = s.mem := by
  unfold mirrorConn; (repeat' split) <;> simp
@[simp] theorem mirrorConn_ward (a1) (s : State) : (mirrorConn a1 s).ward = s.ward := by
  unfold mirrorConn; (repeat' split) <;> simp
@[simp] theorem mirrorConn_rime (a1) (s : State) : (mirrorConn a1 s).rime = s.rime := by
  unfold mirrorConn; (repeat' split) <;> simp
@[simp] theorem mirrorConn_sec (a1) (s : State) : (mirrorConn a1 s).sec = s.sec := by
  unfold mirrorConn; (repeat' split) <;> simp
@[simp] theorem mirrorConn_keys (a1) (s : State) : (mirrorConn a1 s).keys = s.keys := by
  unfold mirrorConn; (repeat' split) <;> simp
@[simp] theorem raiseAt_now (a1) (a2) (a3) (s : State) : (raiseAt a1 a2 a3 s).now = s.now := by
  (unfold raiseAt; dsimp only; repeat' (first | split | rfl)); ((refine (foldl_now _ _ _ fun _ _ => ?_).trans ?_) <;> simp)
@[simp] theorem raiseAt_pending (a1) (a2) (a3) (s : State) : (raiseAt a1 a2 a3 s).pending = s.pending := by
  (unfold raiseAt; dsimp only; repeat' (first | split | rfl)); ((refine (foldl_pending _ _ _ fun _ _ => ?_).trans ?_) <;> simp)
@[simp] theorem raiseAt_free (a1) (a2) (a3) (s : State) : (raiseAt a1 a2 a3 s).free = s.free := by
  (unfold raiseAt; dsimp only; repeat' (first | split | rfl)); ((refine (foldl_free _ _ _ fun _ _ => ?_).trans ?_) <;> simp)
@[simp] theorem raiseAt_serial (a1) (a2) (a3) (s : State) : (raiseAt a1 a2 a3 s).serial = s.serial := by
  (unfold raiseAt; dsimp only; repeat' (first | split | rfl)); ((refine (foldl_serial _ _ _ fun _ _ => ?_).trans ?_) <;> simp)
@[simp] theorem raiseAt_cfg (a1) (a2) (a3) (s : State) : (raiseAt a1 a2 a3 s).cfg = s.cfg := by
  (unfold raiseAt; dsimp only; repeat' (first | split | rfl)); ((refine (foldl_cfg _ _ _ fun _ _ => ?_).trans ?_) <;> simp)
@[simp] theorem raiseAt_mor (a1) (a2) (a3) (s : State) : (raiseAt a1 a2 a3 s).mor = s.mor := by
  (unfold raiseAt; dsimp only; repeat' (first | split | rfl)); ((refine (foldl_mor _ _ _ fun _ _ => ?_).trans ?_) <;> simp)
@[simp] theorem raiseAt_keeper (a1) (a2) (a3) (s : State) : (raiseAt a1 a2 a3 s).keeper = s.keeper := by
  (unfold raiseAt; dsimp only; repeat' (first | split | rfl)); ((refine (foldl_keeper _ _ _ fun _ _ => ?_).trans ?_) <;> simp)
@[simp] theorem raiseAt_start (a1) (a2) (a3) (s : State) : (raiseAt a1 a2 a3 s).start = s.start := by
  (unfold raiseAt; dsimp only; repeat' (first | split | rfl)); ((refine (foldl_start _ _ _ fun _ _ => ?_).trans ?_) <;> simp)
@[simp] theorem raiseAt_gauge (a1) (a2) (a3) (s : State) : (raiseAt a1 a2 a3 s).gauge = s.gauge := by
  (unfold raiseAt; dsimp only; repeat' (first | split | rfl)); ((refine (foldl_gauge _ _ _ fun _ _ => ?_).trans ?_) <;> simp)
@[simp] theorem raiseAt_power (a1) (a2) (a3) (s : State) : (raiseAt a1 a2 a3 s).power = s.power := by
  (unfold raiseAt; dsimp only; repeat' (first | split | rfl)); ((refine (foldl_power _ _ _ fun _ _ => ?_).trans ?_) <;> simp)
@[simp] theorem raiseAt_pace (a1) (a2) (a3) (s : State) : (raiseAt a1 a2 a3 s).pace = s.pace := by
  (unfold raiseAt; dsimp only; repeat' (first | split | rfl)); ((refine (foldl_pace _ _ _ fun _ _ => ?_).trans ?_) <;> simp)
@[simp] theorem raiseAt_kw (a1) (a2) (a3) (s : State) : (raiseAt a1 a2 a3 s).kw = s.kw := by
  (unfold raiseAt; dsimp only; repeat' (first | split | rfl)); ((refine (foldl_kw _ _ _ fun _ _ => ?_).trans ?_) <;> simp)
@[simp] theorem raiseAt_media (a1) (a2) (a3) (s : State) : (raiseAt a1 a2 a3 s).media = s.media := by
  (unfold raiseAt; dsimp only; repeat' (first | split | rfl)); ((refine (foldl_media _ _ _ fun _ _ => ?_).trans ?_) <;> simp)
@[simp] theorem raiseAt_ice (a1) (a2) (a3) (s : State) : (raiseAt a1 a2 a3 s).ice = s.ice := by
  (unfold raiseAt; dsimp only; repeat' (first | split | rfl)); ((refine (foldl_ice _ _ _ fun _ _ => ?_).trans ?_) <;> simp)
@[simp] theorem raiseAt_ptp (a1) (a2) (a3) (s : State) : (raiseAt a1 a2 a3 s).ptp = s.ptp := by
  (unfold raiseAt; dsimp only; repeat' (first | split | rfl)); ((refine (foldl_ptp _ _ _ fun _ _ => ?_).trans ?_) <;> simp)
@[simp] theorem raiseAt_boot (a1) (a2) (a3) (s : State) : (raiseAt a1 a2 a3 s).boot = s.boot := by
  (unfold raiseAt; dsimp only; repeat' (first | split | rfl)); ((refine (foldl_boot _ _ _ fun _ _ => ?_).trans ?_) <;> simp)
@[simp] theorem raiseAt_coh (a1) (a2) (a3) (s : State) : (raiseAt a1 a2 a3 s).coh = s.coh := by
  (unfold raiseAt; dsimp only; repeat' (first | split | rfl)); ((refine (foldl_coh _ _ _ fun _ _ => ?_).trans ?_) <;> simp)
@[simp] theorem raiseAt_mem (a1) (a2) (a3) (s : State) : (raiseAt a1 a2 a3 s).mem = s.mem := by
  (unfold raiseAt; dsimp only; repeat' (first | split | rfl)); ((refine (foldl_mem _ _ _ fun _ _ => ?_).trans ?_) <;> simp)
@[simp] theorem raiseAt_ward (a1) (a2) (a3) (s : State) : (raiseAt a1 a2 a3 s).ward = s.ward := by
  (unfold raiseAt; dsimp only; repeat' (first | split | rfl)); ((refine (foldl_ward _ _ _ fun _ _ => ?_).trans ?_) <;> simp)
@[simp] theorem raiseAt_rime (a1) (a2) (a3) (s : State) : (raiseAt a1 a2 a3 s).rime = s.rime := by
  (unfold raiseAt; dsimp only; repeat' (first | split | rfl)); ((refine (foldl_rime _ _ _ fun _ _ => ?_).trans ?_) <;> simp)
@[simp] theorem raiseAt_sec (a1) (a2) (a3) (s : State) : (raiseAt a1 a2 a3 s).sec = s.sec := by
  (unfold raiseAt; dsimp only; repeat' (first | split | rfl)); ((refine (foldl_sec _ _ _ fun _ _ => ?_).trans ?_) <;> simp)
@[simp] theorem raiseAt_keys (a1) (a2) (a3) (s : State) : (raiseAt a1 a2 a3 s).keys = s.keys := by
  (unfold raiseAt; dsimp only; repeat' (first | split | rfl)); ((refine (foldl_keys _ _ _ fun _ _ => ?_).trans ?_) <;> simp)
@[simp] theorem raiseAsync_now (a1) (a2) (s : State) : (raiseAsync a1 a2 s).now = s.now := by
  unfold raiseAsync; simp
@[simp] theorem raiseAsync_pending (a1) (a2) (s : State) : (raiseAsync a1 a2 s).pending = s.pending := by
  unfold raiseAsync; simp
@[simp] theorem raiseAsync_free (a1) (a2) (s : State) : (raiseAsync a1 a2 s).free = s.free := by
  unfold raiseAsync; simp
@[simp] theorem raiseAsync_serial (a1) (a2) (s : State) : (raiseAsync a1 a2 s).serial = s.serial := by
  unfold raiseAsync; simp
@[simp] theorem raiseAsync_cfg (a1) (a2) (s : State) : (raiseAsync a1 a2 s).cfg = s.cfg := by
  unfold raiseAsync; simp
@[simp] theorem raiseAsync_mor (a1) (a2) (s : State) : (raiseAsync a1 a2 s).mor = s.mor := by
  unfold raiseAsync; simp
@[simp] theorem raiseAsync_keeper (a1) (a2) (s : State) : (raiseAsync a1 a2 s).keeper = s.keeper := by
  unfold raiseAsync; simp
@[simp] theorem raiseAsync_start (a1) (a2) (s : State) : (raiseAsync a1 a2 s).start = s.start := by
  unfold raiseAsync; simp
@[simp] theorem raiseAsync_gauge (a1) (a2) (s : State) : (raiseAsync a1 a2 s).gauge = s.gauge := by
  unfold raiseAsync; simp
@[simp] theorem raiseAsync_power (a1) (a2) (s : State) : (raiseAsync a1 a2 s).power = s.power := by
  unfold raiseAsync; simp
@[simp] theorem raiseAsync_pace (a1) (a2) (s : State) : (raiseAsync a1 a2 s).pace = s.pace := by
  unfold raiseAsync; simp
@[simp] theorem raiseAsync_kw (a1) (a2) (s : State) : (raiseAsync a1 a2 s).kw = s.kw := by
  unfold raiseAsync; simp
@[simp] theorem raiseAsync_media (a1) (a2) (s : State) : (raiseAsync a1 a2 s).media = s.media := by
  unfold raiseAsync; simp
@[simp] theorem raiseAsync_ice (a1) (a2) (s : State) : (raiseAsync a1 a2 s).ice = s.ice := by
  unfold raiseAsync; simp
@[simp] theorem raiseAsync_ptp (a1) (a2) (s : State) : (raiseAsync a1 a2 s).ptp = s.ptp := by
  unfold raiseAsync; simp
@[simp] theorem raiseAsync_boot (a1) (a2) (s : State) : (raiseAsync a1 a2 s).boot = s.boot := by
  unfold raiseAsync; simp
@[simp] theorem raiseAsync_coh (a1) (a2) (s : State) : (raiseAsync a1 a2 s).coh = s.coh := by
  unfold raiseAsync; simp
@[simp] theorem raiseAsync_mem (a1) (a2) (s : State) : (raiseAsync a1 a2 s).mem = s.mem := by
  unfold raiseAsync; simp
@[simp] theorem raiseAsync_ward (a1) (a2) (s : State) : (raiseAsync a1 a2 s).ward = s.ward := by
  unfold raiseAsync; simp
@[simp] theorem raiseAsync_rime (a1) (a2) (s : State) : (raiseAsync a1 a2 s).rime = s.rime := by
  unfold raiseAsync; simp
@[simp] theorem raiseAsync_sec (a1) (a2) (s : State) : (raiseAsync a1 a2 s).sec = s.sec := by
  unfold raiseAsync; simp
@[simp] theorem raiseAsync_keys (a1) (a2) (s : State) : (raiseAsync a1 a2 s).keys = s.keys := by
  unfold raiseAsync; simp
@[simp] theorem firstFull_now (a1) (s : State) : (firstFull a1 s).now = s.now := by
  unfold firstFull; simp
@[simp] theorem firstFull_pending (a1) (s : State) : (firstFull a1 s).pending = s.pending := by
  unfold firstFull; simp
@[simp] theorem firstFull_out (a1) (s : State) : (firstFull a1 s).out = s.out := by
  unfold firstFull; simp
@[simp] theorem firstFull_held (a1) (s : State) : (firstFull a1 s).held = s.held := by
  unfold firstFull; simp
@[simp] theorem firstFull_free (a1) (s : State) : (firstFull a1 s).free = s.free := by
  unfold firstFull; simp
@[simp] theorem firstFull_serial (a1) (s : State) : (firstFull a1 s).serial = s.serial := by
  unfold firstFull; simp
@[simp] theorem firstFull_cfg (a1) (s : State) : (firstFull a1 s).cfg = s.cfg := by
  unfold firstFull; simp
@[simp] theorem firstFull_keeper (a1) (s : State) : (firstFull a1 s).keeper = s.keeper := by
  unfold firstFull; simp
@[simp] theorem firstFull_start (a1) (s : State) : (firstFull a1 s).start = s.start := by
  unfold firstFull; simp
@[simp] theorem firstFull_twin (a1) (s : State) : (firstFull a1 s).twin = s.twin := by
  unfold firstFull; simp
@[simp] theorem firstFull_gauge (a1) (s : State) : (firstFull a1 s).gauge = s.gauge := by
  unfold firstFull; simp
@[simp] theorem firstFull_power (a1) (s : State) : (firstFull a1 s).power = s.power := by
  unfold firstFull; simp
@[simp] theorem firstFull_pace (a1) (s : State) : (firstFull a1 s).pace = s.pace := by
  unfold firstFull; simp
@[simp] theorem firstFull_kw (a1) (s : State) : (firstFull a1 s).kw = s.kw := by
  unfold firstFull; simp
@[simp] theorem firstFull_media (a1) (s : State) : (firstFull a1 s).media = s.media := by
  unfold firstFull; simp
@[simp] theorem firstFull_ice (a1) (s : State) : (firstFull a1 s).ice = s.ice := by
  unfold firstFull; simp
@[simp] theorem firstFull_host (a1) (s : State) : (firstFull a1 s).host = s.host := by
  unfold firstFull; simp
@[simp] theorem firstFull_ptp (a1) (s : State) : (firstFull a1 s).ptp = s.ptp := by
  unfold firstFull; simp
@[simp] theorem firstFull_net (a1) (s : State) : (firstFull a1 s).net = s.net := by
  unfold firstFull; simp
@[simp] theorem firstFull_boot (a1) (s : State) : (firstFull a1 s).boot = s.boot := by
  unfold firstFull; simp
@[simp] theorem firstFull_coh (a1) (s : State) : (firstFull a1 s).coh = s.coh := by
  unfold firstFull; simp
@[simp] theorem firstFull_mem (a1) (s : State) : (firstFull a1 s).mem = s.mem := by
  unfold firstFull; simp
@[simp] theorem firstFull_ward (a1) (s : State) : (firstFull a1 s).ward = s.ward := by
  unfold firstFull; simp
@[simp] theorem firstFull_rime (a1) (s : State) : (firstFull a1 s).rime = s.rime := by
  unfold firstFull; simp
@[simp] theorem firstFull_sec (a1) (s : State) : (firstFull a1 s).sec = s.sec := by
  unfold firstFull; simp
@[simp] theorem firstFull_keys (a1) (s : State) : (firstFull a1 s).keys = s.keys := by
  unfold firstFull; simp
@[simp] theorem onMor_now (a1) (s : State) : (onMor a1 s).now = s.now := by
  unfold onMor; simp
@[simp] theorem onMor_pending (a1) (s : State) : (onMor a1 s).pending = s.pending := by
  unfold onMor; simp
@[simp] theorem onMor_free (a1) (s : State) : (onMor a1 s).free = s.free := by
  unfold onMor; simp
@[simp] theorem onMor_serial (a1) (s : State) : (onMor a1 s).serial = s.serial := by
  unfold onMor; simp
@[simp] theorem onMor_cfg (a1) (s : State) : (onMor a1 s).cfg = s.cfg := by
  unfold onMor; simp
@[simp] theorem onMor_keeper (a1) (s : State) : (onMor a1 s).keeper = s.keeper := by
  unfold onMor; simp
@[simp] theorem onMor_start (a1) (s : State) : (onMor a1 s).start = s.start := by
  unfold onMor; simp
@[simp] theorem onMor_gauge (a1) (s : State) : (onMor a1 s).gauge = s.gauge := by
  unfold onMor; simp
@[simp] theorem onMor_power (a1) (s : State) : (onMor a1 s).power = s.power := by
  unfold onMor; simp
@[simp] theorem onMor_pace (a1) (s : State) : (onMor a1 s).pace = s.pace := by
  unfold onMor; simp
@[simp] theorem onMor_kw (a1) (s : State) : (onMor a1 s).kw = s.kw := by
  unfold onMor; simp
@[simp] theorem onMor_media (a1) (s : State) : (onMor a1 s).media = s.media := by
  unfold onMor; simp
@[simp] theorem onMor_ice (a1) (s : State) : (onMor a1 s).ice = s.ice := by
  unfold onMor; simp
@[simp] theorem onMor_ptp (a1) (s : State) : (onMor a1 s).ptp = s.ptp := by
  unfold onMor; simp
@[simp] theorem onMor_boot (a1) (s : State) : (onMor a1 s).boot = s.boot := by
  unfold onMor; simp
@[simp] theorem onMor_coh (a1) (s : State) : (onMor a1 s).coh = s.coh := by
  unfold onMor; simp
@[simp] theorem onMor_mem (a1) (s : State) : (onMor a1 s).mem = s.mem := by
  unfold onMor; simp
@[simp] theorem onMor_ward (a1) (s : State) : (onMor a1 s).ward = s.ward := by
  unfold onMor; simp
@[simp] theorem onMor_rime (a1) (s : State) : (onMor a1 s).rime = s.rime := by
  unfold onMor; simp
@[simp] theorem onMor_sec (a1) (s : State) : (onMor a1 s).sec = s.sec := by
  unfold onMor; simp
@[simp] theorem onMor_keys (a1) (s : State) : (onMor a1 s).keys = s.keys := by
  unfold onMor; simp
@[simp] theorem recordAs_now (a1) (a2) (a3) (a4) (s : State) : (recordAs a1 a2 a3 a4 s).now = s.now := by
  unfold recordAs; simp
@[simp] theorem recordAs_pending (a1) (a2) (a3) (a4) (s : State) : (recordAs a1 a2 a3 a4 s).pending = s.pending := by
  unfold recordAs; simp
@[simp] theorem recordAs_free (a1) (a2) (a3) (a4) (s : State) : (recordAs a1 a2 a3 a4 s).free = s.free := by
  unfold recordAs; simp
@[simp] theorem recordAs_serial (a1) (a2) (a3) (a4) (s : State) : (recordAs a1 a2 a3 a4 s).serial = s.serial := by
  unfold recordAs; simp
@[simp] theorem recordAs_cfg (a1) (a2) (a3) (a4) (s : State) : (recordAs a1 a2 a3 a4 s).cfg = s.cfg := by
  unfold recordAs; simp
@[simp] theorem recordAs_keeper (a1) (a2) (a3) (a4) (s : State) : (recordAs a1 a2 a3 a4 s).keeper = s.keeper := by
  unfold recordAs; simp
@[simp] theorem recordAs_start (a1) (a2) (a3) (a4) (s : State) : (recordAs a1 a2 a3 a4 s).start = s.start := by
  unfold recordAs; simp
@[simp] theorem recordAs_gauge (a1) (a2) (a3) (a4) (s : State) : (recordAs a1 a2 a3 a4 s).gauge = s.gauge := by
  unfold recordAs; simp
@[simp] theorem recordAs_power (a1) (a2) (a3) (a4) (s : State) : (recordAs a1 a2 a3 a4 s).power = s.power := by
  unfold recordAs; simp
@[simp] theorem recordAs_pace (a1) (a2) (a3) (a4) (s : State) : (recordAs a1 a2 a3 a4 s).pace = s.pace := by
  unfold recordAs; simp
@[simp] theorem recordAs_kw (a1) (a2) (a3) (a4) (s : State) : (recordAs a1 a2 a3 a4 s).kw = s.kw := by
  unfold recordAs; simp
@[simp] theorem recordAs_media (a1) (a2) (a3) (a4) (s : State) : (recordAs a1 a2 a3 a4 s).media = s.media := by
  unfold recordAs; simp
@[simp] theorem recordAs_ice (a1) (a2) (a3) (a4) (s : State) : (recordAs a1 a2 a3 a4 s).ice = s.ice := by
  unfold recordAs; simp
@[simp] theorem recordAs_ptp (a1) (a2) (a3) (a4) (s : State) : (recordAs a1 a2 a3 a4 s).ptp = s.ptp := by
  unfold recordAs; simp
@[simp] theorem recordAs_boot (a1) (a2) (a3) (a4) (s : State) : (recordAs a1 a2 a3 a4 s).boot = s.boot := by
  unfold recordAs; simp
@[simp] theorem recordAs_coh (a1) (a2) (a3) (a4) (s : State) : (recordAs a1 a2 a3 a4 s).coh = s.coh := by
  unfold recordAs; simp
@[simp] theorem recordAs_mem (a1) (a2) (a3) (a4) (s : State) : (recordAs a1 a2 a3 a4 s).mem = s.mem := by
  unfold recordAs; simp
@[simp] theorem recordAs_ward (a1) (a2) (a3) (a4) (s : State) : (recordAs a1 a2 a3 a4 s).ward = s.ward := by
  unfold recordAs; simp
@[simp] theorem recordAs_rime (a1) (a2) (a3) (a4) (s : State) : (recordAs a1 a2 a3 a4 s).rime = s.rime := by
  unfold recordAs; simp
@[simp] theorem recordAs_sec (a1) (a2) (a3) (a4) (s : State) : (recordAs a1 a2 a3 a4 s).sec = s.sec := by
  unfold recordAs; simp
@[simp] theorem recordAs_keys (a1) (a2) (a3) (a4) (s : State) : (recordAs a1 a2 a3 a4 s).keys = s.keys := by
  unfold recordAs; simp
@[simp] theorem record_now (a1) (a2) (a3) (s : State) : (record a1 a2 a3 s).now = s.now := by
  unfold record; simp
@[simp] theorem record_pending (a1) (a2) (a3) (s : State) : (record a1 a2 a3 s).pending = s.pending := by
  unfold record; simp
@[simp] theorem record_free (a1) (a2) (a3) (s : State) : (record a1 a2 a3 s).free = s.free := by
  unfold record; simp
@[simp] theorem record_serial (a1) (a2) (a3) (s : State) : (record a1 a2 a3 s).serial = s.serial := by
  unfold record; simp
@[simp] theorem record_cfg (a1) (a2) (a3) (s : State) : (record a1 a2 a3 s).cfg = s.cfg := by
  unfold record; simp
@[simp] theorem record_keeper (a1) (a2) (a3) (s : State) : (record a1 a2 a3 s).keeper = s.keeper := by
  unfold record; simp
@[simp] theorem record_start (a1) (a2) (a3) (s : State) : (record a1 a2 a3 s).start = s.start := by
  unfold record; simp
@[simp] theorem record_gauge (a1) (a2) (a3) (s : State) : (record a1 a2 a3 s).gauge = s.gauge := by
  unfold record; simp
@[simp] theorem record_power (a1) (a2) (a3) (s : State) : (record a1 a2 a3 s).power = s.power := by
  unfold record; simp
@[simp] theorem record_pace (a1) (a2) (a3) (s : State) : (record a1 a2 a3 s).pace = s.pace := by
  unfold record; simp
@[simp] theorem record_kw (a1) (a2) (a3) (s : State) : (record a1 a2 a3 s).kw = s.kw := by
  unfold record; simp
@[simp] theorem record_media (a1) (a2) (a3) (s : State) : (record a1 a2 a3 s).media = s.media := by
  unfold record; simp
@[simp] theorem record_ice (a1) (a2) (a3) (s : State) : (record a1 a2 a3 s).ice = s.ice := by
  unfold record; simp
@[simp] theorem record_ptp (a1) (a2) (a3) (s : State) : (record a1 a2 a3 s).ptp = s.ptp := by
  unfold record; simp
@[simp] theorem record_boot (a1) (a2) (a3) (s : State) : (record a1 a2 a3 s).boot = s.boot := by
  unfold record; simp
@[simp] theorem record_coh (a1) (a2) (a3) (s : State) : (record a1 a2 a3 s).coh = s.coh := by
  unfold record; simp
@[simp] theorem record_mem (a1) (a2) (a3) (s : State) : (record a1 a2 a3 s).mem = s.mem := by
  unfold record; simp
@[simp] theorem record_ward (a1) (a2) (a3) (s : State) : (record a1 a2 a3 s).ward = s.ward := by
  unfold record; simp
@[simp] theorem record_rime (a1) (a2) (a3) (s : State) : (record a1 a2 a3 s).rime = s.rime := by
  unfold record; simp
@[simp] theorem record_sec (a1) (a2) (a3) (s : State) : (record a1 a2 a3 s).sec = s.sec := by
  unfold record; simp
@[simp] theorem record_keys (a1) (a2) (a3) (s : State) : (record a1 a2 a3 s).keys = s.keys := by
  unfold record; simp
@[simp] theorem onCtrl_now (a1) (a2) (s : State) : (onCtrl a1 a2 s).now = s.now := by
  unfold onCtrl; (repeat' split) <;> simp
@[simp] theorem onCtrl_pending (a1) (a2) (s : State) : (onCtrl a1 a2 s).pending = s.pending := by
  unfold onCtrl; (repeat' split) <;> simp
@[simp] theorem onCtrl_out (a1) (a2) (s : State) : (onCtrl a1 a2 s).out = s.out := by
  unfold onCtrl; (repeat' split) <;> simp
@[simp] theorem onCtrl_held (a1) (a2) (s : State) : (onCtrl a1 a2 s).held = s.held := by
  unfold onCtrl; (repeat' split) <;> simp
@[simp] theorem onCtrl_free (a1) (a2) (s : State) : (onCtrl a1 a2 s).free = s.free := by
  unfold onCtrl; (repeat' split) <;> simp
@[simp] theorem onCtrl_serial (a1) (a2) (s : State) : (onCtrl a1 a2 s).serial = s.serial := by
  unfold onCtrl; (repeat' split) <;> simp
@[simp] theorem onCtrl_cfg (a1) (a2) (s : State) : (onCtrl a1 a2 s).cfg = s.cfg := by
  unfold onCtrl; (repeat' split) <;> simp
@[simp] theorem onCtrl_mor (a1) (a2) (s : State) : (onCtrl a1 a2 s).mor = s.mor := by
  unfold onCtrl; (repeat' split) <;> simp
@[simp] theorem onCtrl_keeper (a1) (a2) (s : State) : (onCtrl a1 a2 s).keeper = s.keeper := by
  unfold onCtrl; (repeat' split) <;> simp
@[simp] theorem onCtrl_start (a1) (a2) (s : State) : (onCtrl a1 a2 s).start = s.start := by
  unfold onCtrl; (repeat' split) <;> simp
@[simp] theorem onCtrl_twin (a1) (a2) (s : State) : (onCtrl a1 a2 s).twin = s.twin := by
  unfold onCtrl; (repeat' split) <;> simp
@[simp] theorem onCtrl_gauge (a1) (a2) (s : State) : (onCtrl a1 a2 s).gauge = s.gauge := by
  unfold onCtrl; (repeat' split) <;> simp
@[simp] theorem onCtrl_power (a1) (a2) (s : State) : (onCtrl a1 a2 s).power = s.power := by
  unfold onCtrl; (repeat' split) <;> simp
@[simp] theorem onCtrl_pace (a1) (a2) (s : State) : (onCtrl a1 a2 s).pace = s.pace := by
  unfold onCtrl; (repeat' split) <;> simp
@[simp] theorem onCtrl_kw (a1) (a2) (s : State) : (onCtrl a1 a2 s).kw = s.kw := by
  unfold onCtrl; (repeat' split) <;> simp
@[simp] theorem onCtrl_media (a1) (a2) (s : State) : (onCtrl a1 a2 s).media = s.media := by
  unfold onCtrl; (repeat' split) <;> simp
@[simp] theorem onCtrl_ice (a1) (a2) (s : State) : (onCtrl a1 a2 s).ice = s.ice := by
  unfold onCtrl; (repeat' split) <;> simp
@[simp] theorem onCtrl_ptp (a1) (a2) (s : State) : (onCtrl a1 a2 s).ptp = s.ptp := by
  unfold onCtrl; (repeat' split) <;> simp
@[simp] theorem onCtrl_net (a1) (a2) (s : State) : (onCtrl a1 a2 s).net = s.net := by
  unfold onCtrl; (repeat' split) <;> simp
@[simp] theorem onCtrl_boot (a1) (a2) (s : State) : (onCtrl a1 a2 s).boot = s.boot := by
  unfold onCtrl; (repeat' split) <;> simp
@[simp] theorem onCtrl_coh (a1) (a2) (s : State) : (onCtrl a1 a2 s).coh = s.coh := by
  unfold onCtrl; (repeat' split) <;> simp
@[simp] theorem onCtrl_mem (a1) (a2) (s : State) : (onCtrl a1 a2 s).mem = s.mem := by
  unfold onCtrl; (repeat' split) <;> simp
@[simp] theorem onCtrl_ward (a1) (a2) (s : State) : (onCtrl a1 a2 s).ward = s.ward := by
  unfold onCtrl; (repeat' split) <;> simp
@[simp] theorem onCtrl_rime (a1) (a2) (s : State) : (onCtrl a1 a2 s).rime = s.rime := by
  unfold onCtrl; (repeat' split) <;> simp
@[simp] theorem onCtrl_sec (a1) (a2) (s : State) : (onCtrl a1 a2 s).sec = s.sec := by
  unfold onCtrl; (repeat' split) <;> simp
@[simp] theorem onCtrl_keys (a1) (a2) (s : State) : (onCtrl a1 a2 s).keys = s.keys := by
  unfold onCtrl; (repeat' split) <;> simp
@[simp] theorem noteError_now (a1) (a2) (a3) (a4) (s : State) : (noteError a1 a2 a3 a4 s).now = s.now := by
  unfold noteError; simp
@[simp] theorem noteError_pending (a1) (a2) (a3) (a4) (s : State) : (noteError a1 a2 a3 a4 s).pending = s.pending := by
  unfold noteError; simp
@[simp] theorem noteError_out (a1) (a2) (a3) (a4) (s : State) : (noteError a1 a2 a3 a4 s).out = s.out := by
  unfold noteError; simp
@[simp] theorem noteError_held (a1) (a2) (a3) (a4) (s : State) : (noteError a1 a2 a3 a4 s).held = s.held := by
  unfold noteError; simp
@[simp] theorem noteError_free (a1) (a2) (a3) (a4) (s : State) : (noteError a1 a2 a3 a4 s).free = s.free := by
  unfold noteError; simp
@[simp] theorem noteError_serial (a1) (a2) (a3) (a4) (s : State) : (noteError a1 a2 a3 a4 s).serial = s.serial := by
  unfold noteError; simp
@[simp] theorem noteError_cfg (a1) (a2) (a3) (a4) (s : State) : (noteError a1 a2 a3 a4 s).cfg = s.cfg := by
  unfold noteError; simp
@[simp] theorem noteError_mor (a1) (a2) (a3) (a4) (s : State) : (noteError a1 a2 a3 a4 s).mor = s.mor := by
  unfold noteError; simp
@[simp] theorem noteError_keeper (a1) (a2) (a3) (a4) (s : State) : (noteError a1 a2 a3 a4 s).keeper = s.keeper := by
  unfold noteError; simp
@[simp] theorem noteError_start (a1) (a2) (a3) (a4) (s : State) : (noteError a1 a2 a3 a4 s).start = s.start := by
  unfold noteError; simp
@[simp] theorem noteError_twin (a1) (a2) (a3) (a4) (s : State) : (noteError a1 a2 a3 a4 s).twin = s.twin := by
  unfold noteError; simp
@[simp] theorem noteError_gauge (a1) (a2) (a3) (a4) (s : State) : (noteError a1 a2 a3 a4 s).gauge = s.gauge := by
  unfold noteError; simp
@[simp] theorem noteError_power (a1) (a2) (a3) (a4) (s : State) : (noteError a1 a2 a3 a4 s).power = s.power := by
  unfold noteError; simp
@[simp] theorem noteError_pace (a1) (a2) (a3) (a4) (s : State) : (noteError a1 a2 a3 a4 s).pace = s.pace := by
  unfold noteError; simp
@[simp] theorem noteError_kw (a1) (a2) (a3) (a4) (s : State) : (noteError a1 a2 a3 a4 s).kw = s.kw := by
  unfold noteError; simp
@[simp] theorem noteError_media (a1) (a2) (a3) (a4) (s : State) : (noteError a1 a2 a3 a4 s).media = s.media := by
  unfold noteError; simp
@[simp] theorem noteError_ice (a1) (a2) (a3) (a4) (s : State) : (noteError a1 a2 a3 a4 s).ice = s.ice := by
  unfold noteError; simp
@[simp] theorem noteError_ptp (a1) (a2) (a3) (a4) (s : State) : (noteError a1 a2 a3 a4 s).ptp = s.ptp := by
  unfold noteError; simp
@[simp] theorem noteError_net (a1) (a2) (a3) (a4) (s : State) : (noteError a1 a2 a3 a4 s).net = s.net := by
  unfold noteError; simp
@[simp] theorem noteError_boot (a1) (a2) (a3) (a4) (s : State) : (noteError a1 a2 a3 a4 s).boot = s.boot := by
  unfold noteError; simp
@[simp] theorem noteError_coh (a1) (a2) (a3) (a4) (s : State) : (noteError a1 a2 a3 a4 s).coh = s.coh := by
  unfold noteError; simp
@[simp] theorem noteError_mem (a1) (a2) (a3) (a4) (s : State) : (noteError a1 a2 a3 a4 s).mem = s.mem := by
  unfold noteError; simp
@[simp] theorem noteError_ward (a1) (a2) (a3) (a4) (s : State) : (noteError a1 a2 a3 a4 s).ward = s.ward := by
  unfold noteError; simp
@[simp] theorem noteError_rime (a1) (a2) (a3) (a4) (s : State) : (noteError a1 a2 a3 a4 s).rime = s.rime := by
  unfold noteError; simp
@[simp] theorem noteError_sec (a1) (a2) (a3) (a4) (s : State) : (noteError a1 a2 a3 a4 s).sec = s.sec := by
  unfold noteError; simp
@[simp] theorem noteError_keys (a1) (a2) (a3) (a4) (s : State) : (noteError a1 a2 a3 a4 s).keys = s.keys := by
  unfold noteError; simp
@[simp] theorem complete_now (a1) (a2) (a3) (a4) (a5) (a6) (a7) (s : State) : (complete a1 a2 a3 a4 a5 a6 a7 s).now = s.now := by
  unfold complete; (repeat' split) <;> simp
@[simp] theorem complete_pending (a1) (a2) (a3) (a4) (a5) (a6) (a7) (s : State) : (complete a1 a2 a3 a4 a5 a6 a7 s).pending = s.pending := by
  unfold complete; (repeat' split) <;> simp
@[simp] theorem complete_free (a1) (a2) (a3) (a4) (a5) (a6) (a7) (s : State) : (complete a1 a2 a3 a4 a5 a6 a7 s).free = s.free := by
  unfold complete; (repeat' split) <;> simp
@[simp] theorem complete_serial (a1) (a2) (a3) (a4) (a5) (a6) (a7) (s : State) : (complete a1 a2 a3 a4 a5 a6 a7 s).serial = s.serial := by
  unfold complete; (repeat' split) <;> simp
@[simp] theorem complete_cfg (a1) (a2) (a3) (a4) (a5) (a6) (a7) (s : State) : (complete a1 a2 a3 a4 a5 a6 a7 s).cfg = s.cfg := by
  unfold complete; (repeat' split) <;> simp
@[simp] theorem complete_mor (a1) (a2) (a3) (a4) (a5) (a6) (a7) (s : State) : (complete a1 a2 a3 a4 a5 a6 a7 s).mor = s.mor := by
  unfold complete; (repeat' split) <;> simp
@[simp] theorem complete_keeper (a1) (a2) (a3) (a4) (a5) (a6) (a7) (s : State) : (complete a1 a2 a3 a4 a5 a6 a7 s).keeper = s.keeper := by
  unfold complete; (repeat' split) <;> simp
@[simp] theorem complete_start (a1) (a2) (a3) (a4) (a5) (a6) (a7) (s : State) : (complete a1 a2 a3 a4 a5 a6 a7 s).start = s.start := by
  unfold complete; (repeat' split) <;> simp
@[simp] theorem complete_gauge (a1) (a2) (a3) (a4) (a5) (a6) (a7) (s : State) : (complete a1 a2 a3 a4 a5 a6 a7 s).gauge = s.gauge := by
  unfold complete; (repeat' split) <;> simp
@[simp] theorem complete_power (a1) (a2) (a3) (a4) (a5) (a6) (a7) (s : State) : (complete a1 a2 a3 a4 a5 a6 a7 s).power = s.power := by
  unfold complete; (repeat' split) <;> simp
@[simp] theorem complete_pace (a1) (a2) (a3) (a4) (a5) (a6) (a7) (s : State) : (complete a1 a2 a3 a4 a5 a6 a7 s).pace = s.pace := by
  unfold complete; (repeat' split) <;> simp
@[simp] theorem complete_kw (a1) (a2) (a3) (a4) (a5) (a6) (a7) (s : State) : (complete a1 a2 a3 a4 a5 a6 a7 s).kw = s.kw := by
  unfold complete; (repeat' split) <;> simp
@[simp] theorem complete_media (a1) (a2) (a3) (a4) (a5) (a6) (a7) (s : State) : (complete a1 a2 a3 a4 a5 a6 a7 s).media = s.media := by
  unfold complete; (repeat' split) <;> simp
@[simp] theorem complete_ice (a1) (a2) (a3) (a4) (a5) (a6) (a7) (s : State) : (complete a1 a2 a3 a4 a5 a6 a7 s).ice = s.ice := by
  unfold complete; (repeat' split) <;> simp
@[simp] theorem complete_ptp (a1) (a2) (a3) (a4) (a5) (a6) (a7) (s : State) : (complete a1 a2 a3 a4 a5 a6 a7 s).ptp = s.ptp := by
  unfold complete; (repeat' split) <;> simp
@[simp] theorem complete_boot (a1) (a2) (a3) (a4) (a5) (a6) (a7) (s : State) : (complete a1 a2 a3 a4 a5 a6 a7 s).boot = s.boot := by
  unfold complete; (repeat' split) <;> simp
@[simp] theorem complete_coh (a1) (a2) (a3) (a4) (a5) (a6) (a7) (s : State) : (complete a1 a2 a3 a4 a5 a6 a7 s).coh = s.coh := by
  unfold complete; (repeat' split) <;> simp
@[simp] theorem complete_mem (a1) (a2) (a3) (a4) (a5) (a6) (a7) (s : State) : (complete a1 a2 a3 a4 a5 a6 a7 s).mem = s.mem := by
  unfold complete; (repeat' split) <;> simp
@[simp] theorem complete_ward (a1) (a2) (a3) (a4) (a5) (a6) (a7) (s : State) : (complete a1 a2 a3 a4 a5 a6 a7 s).ward = s.ward := by
  unfold complete; (repeat' split) <;> simp
@[simp] theorem complete_rime (a1) (a2) (a3) (a4) (a5) (a6) (a7) (s : State) : (complete a1 a2 a3 a4 a5 a6 a7 s).rime = s.rime := by
  unfold complete; (repeat' split) <;> simp
@[simp] theorem complete_sec (a1) (a2) (a3) (a4) (a5) (a6) (a7) (s : State) : (complete a1 a2 a3 a4 a5 a6 a7 s).sec = s.sec := by
  unfold complete; (repeat' split) <;> simp
@[simp] theorem complete_keys (a1) (a2) (a3) (a4) (a5) (a6) (a7) (s : State) : (complete a1 a2 a3 a4 a5 a6 a7 s).keys = s.keys := by
  unfold complete; (repeat' split) <;> simp
@[simp] theorem done_now (a1) (a2) (s : State) : (done a1 a2 s).now = s.now := by
  unfold done; simp
@[simp] theorem done_pending (a1) (a2) (s : State) : (done a1 a2 s).pending = s.pending := by
  unfold done; simp
@[simp] theorem done_free (a1) (a2) (s : State) : (done a1 a2 s).free = s.free := by
  unfold done; simp
@[simp] theorem done_serial (a1) (a2) (s : State) : (done a1 a2 s).serial = s.serial := by
  unfold done; simp
@[simp] theorem done_cfg (a1) (a2) (s : State) : (done a1 a2 s).cfg = s.cfg := by
  unfold done; simp
@[simp] theorem done_mor (a1) (a2) (s : State) : (done a1 a2 s).mor = s.mor := by
  unfold done; simp
@[simp] theorem done_keeper (a1) (a2) (s : State) : (done a1 a2 s).keeper = s.keeper := by
  unfold done; simp
@[simp] theorem done_start (a1) (a2) (s : State) : (done a1 a2 s).start = s.start := by
  unfold done; simp
@[simp] theorem done_gauge (a1) (a2) (s : State) : (done a1 a2 s).gauge = s.gauge := by
  unfold done; simp
@[simp] theorem done_power (a1) (a2) (s : State) : (done a1 a2 s).power = s.power := by
  unfold done; simp
@[simp] theorem done_pace (a1) (a2) (s : State) : (done a1 a2 s).pace = s.pace := by
  unfold done; simp
@[simp] theorem done_kw (a1) (a2) (s : State) : (done a1 a2 s).kw = s.kw := by
  unfold done; simp
@[simp] theorem done_media (a1) (a2) (s : State) : (done a1 a2 s).media = s.media := by
  unfold done; simp
@[simp] theorem done_ice (a1) (a2) (s : State) : (done a1 a2 s).ice = s.ice := by
  unfold done; simp
@[simp] theorem done_ptp (a1) (a2) (s : State) : (done a1 a2 s).ptp = s.ptp := by
  unfold done; simp
@[simp] theorem done_boot (a1) (a2) (s : State) : (done a1 a2 s).boot = s.boot := by
  unfold done; simp
@[simp] theorem done_coh (a1) (a2) (s : State) : (done a1 a2 s).coh = s.coh := by
  unfold done; simp
@[simp] theorem done_mem (a1) (a2) (s : State) : (done a1 a2 s).mem = s.mem := by
  unfold done; simp
@[simp] theorem done_ward (a1) (a2) (s : State) : (done a1 a2 s).ward = s.ward := by
  unfold done; simp
@[simp] theorem done_rime (a1) (a2) (s : State) : (done a1 a2 s).rime = s.rime := by
  unfold done; simp
@[simp] theorem done_sec (a1) (a2) (s : State) : (done a1 a2 s).sec = s.sec := by
  unfold done; simp
@[simp] theorem done_keys (a1) (a2) (s : State) : (done a1 a2 s).keys = s.keys := by
  unfold done; simp
@[simp] theorem useKey_now (a1) (s : State) : (useKey a1 s).now = s.now := by rfl
@[simp] theorem useKey_pending (a1) (s : State) : (useKey a1 s).pending = s.pending := by rfl
@[simp] theorem useKey_out (a1) (s : State) : (useKey a1 s).out = s.out := by rfl
@[simp] theorem useKey_held (a1) (s : State) : (useKey a1 s).held = s.held := by rfl
@[simp] theorem useKey_free (a1) (s : State) : (useKey a1 s).free = s.free := by rfl
@[simp] theorem useKey_serial (a1) (s : State) : (useKey a1 s).serial = s.serial := by rfl
@[simp] theorem useKey_cfg (a1) (s : State) : (useKey a1 s).cfg = s.cfg := by rfl
@[simp] theorem useKey_mor (a1) (s : State) : (useKey a1 s).mor = s.mor := by rfl
@[simp] theorem useKey_keeper (a1) (s : State) : (useKey a1 s).keeper = s.keeper := by rfl
@[simp] theorem useKey_start (a1) (s : State) : (useKey a1 s).start = s.start := by rfl
@[simp] theorem useKey_twin (a1) (s : State) : (useKey a1 s).twin = s.twin := by rfl
@[simp] theorem useKey_gauge (a1) (s : State) : (useKey a1 s).gauge = s.gauge := by rfl
@[simp] theorem useKey_power (a1) (s : State) : (useKey a1 s).power = s.power := by rfl
@[simp] theorem useKey_pace (a1) (s : State) : (useKey a1 s).pace = s.pace := by rfl
@[simp] theorem useKey_kw (a1) (s : State) : (useKey a1 s).kw = s.kw := by rfl
@[simp] theorem useKey_media (a1) (s : State) : (useKey a1 s).media = s.media := by rfl
@[simp] theorem useKey_ice (a1) (s : State) : (useKey a1 s).ice = s.ice := by rfl
@[simp] theorem useKey_host (a1) (s : State) : (useKey a1 s).host = s.host := by rfl
@[simp] theorem useKey_ptp (a1) (s : State) : (useKey a1 s).ptp = s.ptp := by rfl
@[simp] theorem useKey_net (a1) (s : State) : (useKey a1 s).net = s.net := by rfl
@[simp] theorem useKey_boot (a1) (s : State) : (useKey a1 s).boot = s.boot := by rfl
@[simp] theorem useKey_coh (a1) (s : State) : (useKey a1 s).coh = s.coh := by rfl
@[simp] theorem useKey_mem (a1) (s : State) : (useKey a1 s).mem = s.mem := by rfl
@[simp] theorem useKey_ward (a1) (s : State) : (useKey a1 s).ward = s.ward := by rfl
@[simp] theorem useKey_rime (a1) (s : State) : (useKey a1 s).rime = s.rime := by rfl
@[simp] theorem useKey_sec (a1) (s : State) : (useKey a1 s).sec = s.sec := by rfl
@[simp] theorem dropKeys_now (a1) (s : State) : (dropKeys a1 s).now = s.now := by rfl
@[simp] theorem dropKeys_pending (a1) (s : State) : (dropKeys a1 s).pending = s.pending := by rfl
@[simp] theorem dropKeys_out (a1) (s : State) : (dropKeys a1 s).out = s.out := by rfl
@[simp] theorem dropKeys_held (a1) (s : State) : (dropKeys a1 s).held = s.held := by rfl
@[simp] theorem dropKeys_free (a1) (s : State) : (dropKeys a1 s).free = s.free := by rfl
@[simp] theorem dropKeys_serial (a1) (s : State) : (dropKeys a1 s).serial = s.serial := by rfl
@[simp] theorem dropKeys_cfg (a1) (s : State) : (dropKeys a1 s).cfg = s.cfg := by rfl
@[simp] theorem dropKeys_mor (a1) (s : State) : (dropKeys a1 s).mor = s.mor := by rfl
@[simp] theorem dropKeys_keeper (a1) (s : State) : (dropKeys a1 s).keeper = s.keeper := by rfl
@[simp] theorem dropKeys_start (a1) (s : State) : (dropKeys a1 s).start = s.start := by rfl
@[simp] theorem dropKeys_twin (a1) (s : State) : (dropKeys a1 s).twin = s.twin := by rfl
@[simp] theorem dropKeys_gauge (a1) (s : State) : (dropKeys a1 s).gauge = s.gauge := by rfl
@[simp] theorem dropKeys_power (a1) (s : State) : (dropKeys a1 s).power = s.power := by rfl
@[simp] theorem dropKeys_pace (a1) (s : State) : (dropKeys a1 s).pace = s.pace := by rfl
@[simp] theorem dropKeys_kw (a1) (s : State) : (dropKeys a1 s).kw = s.kw := by rfl
@[simp] theorem dropKeys_media (a1) (s : State) : (dropKeys a1 s).media = s.media := by rfl
@[simp] theorem dropKeys_ice (a1) (s : State) : (dropKeys a1 s).ice = s.ice := by rfl
@[simp] theorem dropKeys_host (a1) (s : State) : (dropKeys a1 s).host = s.host := by rfl
@[simp] theorem dropKeys_ptp (a1) (s : State) : (dropKeys a1 s).ptp = s.ptp := by rfl
@[simp] theorem dropKeys_net (a1) (s : State) : (dropKeys a1 s).net = s.net := by rfl
@[simp] theorem dropKeys_boot (a1) (s : State) : (dropKeys a1 s).boot = s.boot := by rfl
@[simp] theorem dropKeys_coh (a1) (s : State) : (dropKeys a1 s).coh = s.coh := by rfl
@[simp] theorem dropKeys_mem (a1) (s : State) : (dropKeys a1 s).mem = s.mem := by rfl
@[simp] theorem dropKeys_ward (a1) (s : State) : (dropKeys a1 s).ward = s.ward := by rfl
@[simp] theorem dropKeys_rime (a1) (s : State) : (dropKeys a1 s).rime = s.rime := by rfl
@[simp] theorem dropKeys_sec (a1) (s : State) : (dropKeys a1 s).sec = s.sec := by rfl
@[simp] theorem useGrainKey_now (a1) (a2) (s : State) : (useGrainKey a1 a2 s).now = s.now := by rfl
@[simp] theorem useGrainKey_pending (a1) (a2) (s : State) : (useGrainKey a1 a2 s).pending = s.pending := by rfl
@[simp] theorem useGrainKey_out (a1) (a2) (s : State) : (useGrainKey a1 a2 s).out = s.out := by rfl
@[simp] theorem useGrainKey_held (a1) (a2) (s : State) : (useGrainKey a1 a2 s).held = s.held := by rfl
@[simp] theorem useGrainKey_free (a1) (a2) (s : State) : (useGrainKey a1 a2 s).free = s.free := by rfl
@[simp] theorem useGrainKey_serial (a1) (a2) (s : State) : (useGrainKey a1 a2 s).serial = s.serial := by rfl
@[simp] theorem useGrainKey_cfg (a1) (a2) (s : State) : (useGrainKey a1 a2 s).cfg = s.cfg := by rfl
@[simp] theorem useGrainKey_mor (a1) (a2) (s : State) : (useGrainKey a1 a2 s).mor = s.mor := by rfl
@[simp] theorem useGrainKey_keeper (a1) (a2) (s : State) : (useGrainKey a1 a2 s).keeper = s.keeper := by rfl
@[simp] theorem useGrainKey_start (a1) (a2) (s : State) : (useGrainKey a1 a2 s).start = s.start := by rfl
@[simp] theorem useGrainKey_twin (a1) (a2) (s : State) : (useGrainKey a1 a2 s).twin = s.twin := by rfl
@[simp] theorem useGrainKey_gauge (a1) (a2) (s : State) : (useGrainKey a1 a2 s).gauge = s.gauge := by rfl
@[simp] theorem useGrainKey_power (a1) (a2) (s : State) : (useGrainKey a1 a2 s).power = s.power := by rfl
@[simp] theorem useGrainKey_pace (a1) (a2) (s : State) : (useGrainKey a1 a2 s).pace = s.pace := by rfl
@[simp] theorem useGrainKey_kw (a1) (a2) (s : State) : (useGrainKey a1 a2 s).kw = s.kw := by rfl
@[simp] theorem useGrainKey_media (a1) (a2) (s : State) : (useGrainKey a1 a2 s).media = s.media := by rfl
@[simp] theorem useGrainKey_ice (a1) (a2) (s : State) : (useGrainKey a1 a2 s).ice = s.ice := by rfl
@[simp] theorem useGrainKey_host (a1) (a2) (s : State) : (useGrainKey a1 a2 s).host = s.host := by rfl
@[simp] theorem useGrainKey_ptp (a1) (a2) (s : State) : (useGrainKey a1 a2 s).ptp = s.ptp := by rfl
@[simp] theorem useGrainKey_net (a1) (a2) (s : State) : (useGrainKey a1 a2 s).net = s.net := by rfl
@[simp] theorem useGrainKey_boot (a1) (a2) (s : State) : (useGrainKey a1 a2 s).boot = s.boot := by rfl
@[simp] theorem useGrainKey_coh (a1) (a2) (s : State) : (useGrainKey a1 a2 s).coh = s.coh := by rfl
@[simp] theorem useGrainKey_mem (a1) (a2) (s : State) : (useGrainKey a1 a2 s).mem = s.mem := by rfl
@[simp] theorem useGrainKey_ward (a1) (a2) (s : State) : (useGrainKey a1 a2 s).ward = s.ward := by rfl
@[simp] theorem useGrainKey_rime (a1) (a2) (s : State) : (useGrainKey a1 a2 s).rime = s.rime := by rfl
@[simp] theorem useGrainKey_sec (a1) (a2) (s : State) : (useGrainKey a1 a2 s).sec = s.sec := by rfl
@[simp] theorem milmo_now (a1) (a2) (a3) (s : State) : (milmo a1 a2 a3 s).now = s.now := by
  unfold milmo; simp
@[simp] theorem milmo_pending (a1) (a2) (a3) (s : State) : (milmo a1 a2 a3 s).pending = s.pending := by
  unfold milmo; simp
@[simp] theorem milmo_free (a1) (a2) (a3) (s : State) : (milmo a1 a2 a3 s).free = s.free := by
  unfold milmo; simp
@[simp] theorem milmo_serial (a1) (a2) (a3) (s : State) : (milmo a1 a2 a3 s).serial = s.serial := by
  unfold milmo; simp
@[simp] theorem milmo_cfg (a1) (a2) (a3) (s : State) : (milmo a1 a2 a3 s).cfg = s.cfg := by
  unfold milmo; simp
@[simp] theorem milmo_mor (a1) (a2) (a3) (s : State) : (milmo a1 a2 a3 s).mor = s.mor := by
  unfold milmo; simp
@[simp] theorem milmo_keeper (a1) (a2) (a3) (s : State) : (milmo a1 a2 a3 s).keeper = s.keeper := by
  unfold milmo; simp
@[simp] theorem milmo_start (a1) (a2) (a3) (s : State) : (milmo a1 a2 a3 s).start = s.start := by
  unfold milmo; simp
@[simp] theorem milmo_twin (a1) (a2) (a3) (s : State) : (milmo a1 a2 a3 s).twin = s.twin := by
  unfold milmo; simp
@[simp] theorem milmo_gauge (a1) (a2) (a3) (s : State) : (milmo a1 a2 a3 s).gauge = s.gauge := by
  unfold milmo; simp
@[simp] theorem milmo_power (a1) (a2) (a3) (s : State) : (milmo a1 a2 a3 s).power = s.power := by
  unfold milmo; simp
@[simp] theorem milmo_pace (a1) (a2) (a3) (s : State) : (milmo a1 a2 a3 s).pace = s.pace := by
  unfold milmo; simp
@[simp] theorem milmo_kw (a1) (a2) (a3) (s : State) : (milmo a1 a2 a3 s).kw = s.kw := by
  unfold milmo; simp
@[simp] theorem milmo_media (a1) (a2) (a3) (s : State) : (milmo a1 a2 a3 s).media = s.media := by
  unfold milmo; simp
@[simp] theorem milmo_host (a1) (a2) (a3) (s : State) : (milmo a1 a2 a3 s).host = s.host := by
  unfold milmo; simp
@[simp] theorem milmo_ptp (a1) (a2) (a3) (s : State) : (milmo a1 a2 a3 s).ptp = s.ptp := by
  unfold milmo; simp
@[simp] theorem milmo_boot (a1) (a2) (a3) (s : State) : (milmo a1 a2 a3 s).boot = s.boot := by
  unfold milmo; simp
@[simp] theorem milmo_coh (a1) (a2) (a3) (s : State) : (milmo a1 a2 a3 s).coh = s.coh := by
  unfold milmo; simp
@[simp] theorem milmo_mem (a1) (a2) (a3) (s : State) : (milmo a1 a2 a3 s).mem = s.mem := by
  unfold milmo; simp
@[simp] theorem milmo_ward (a1) (a2) (a3) (s : State) : (milmo a1 a2 a3 s).ward = s.ward := by
  unfold milmo; simp
@[simp] theorem milmo_rime (a1) (a2) (a3) (s : State) : (milmo a1 a2 a3 s).rime = s.rime := by
  unfold milmo; simp
@[simp] theorem milmo_sec (a1) (a2) (a3) (s : State) : (milmo a1 a2 a3 s).sec = s.sec := by
  unfold milmo; simp
@[simp] theorem milmoAll_now (a1) (a2) (a3) (s : State) : (milmoAll a1 a2 a3 s).now = s.now := by
  unfold milmoAll; simp
@[simp] theorem milmoAll_pending (a1) (a2) (a3) (s : State) : (milmoAll a1 a2 a3 s).pending = s.pending := by
  unfold milmoAll; simp
@[simp] theorem milmoAll_free (a1) (a2) (a3) (s : State) : (milmoAll a1 a2 a3 s).free = s.free := by
  unfold milmoAll; simp
@[simp] theorem milmoAll_serial (a1) (a2) (a3) (s : State) : (milmoAll a1 a2 a3 s).serial = s.serial := by
  unfold milmoAll; simp
@[simp] theorem milmoAll_cfg (a1) (a2) (a3) (s : State) : (milmoAll a1 a2 a3 s).cfg = s.cfg := by
  unfold milmoAll; simp
@[simp] theorem milmoAll_mor (a1) (a2) (a3) (s : State) : (milmoAll a1 a2 a3 s).mor = s.mor := by
  unfold milmoAll; simp
@[simp] theorem milmoAll_keeper (a1) (a2) (a3) (s : State) : (milmoAll a1 a2 a3 s).keeper = s.keeper := by
  unfold milmoAll; simp
@[simp] theorem milmoAll_start (a1) (a2) (a3) (s : State) : (milmoAll a1 a2 a3 s).start = s.start := by
  unfold milmoAll; simp
@[simp] theorem milmoAll_twin (a1) (a2) (a3) (s : State) : (milmoAll a1 a2 a3 s).twin = s.twin := by
  unfold milmoAll; simp
@[simp] theorem milmoAll_gauge (a1) (a2) (a3) (s : State) : (milmoAll a1 a2 a3 s).gauge = s.gauge := by
  unfold milmoAll; simp
@[simp] theorem milmoAll_power (a1) (a2) (a3) (s : State) : (milmoAll a1 a2 a3 s).power = s.power := by
  unfold milmoAll; simp
@[simp] theorem milmoAll_pace (a1) (a2) (a3) (s : State) : (milmoAll a1 a2 a3 s).pace = s.pace := by
  unfold milmoAll; simp
@[simp] theorem milmoAll_kw (a1) (a2) (a3) (s : State) : (milmoAll a1 a2 a3 s).kw = s.kw := by
  unfold milmoAll; simp
@[simp] theorem milmoAll_media (a1) (a2) (a3) (s : State) : (milmoAll a1 a2 a3 s).media = s.media := by
  unfold milmoAll; simp
@[simp] theorem milmoAll_host (a1) (a2) (a3) (s : State) : (milmoAll a1 a2 a3 s).host = s.host := by
  unfold milmoAll; simp
@[simp] theorem milmoAll_ptp (a1) (a2) (a3) (s : State) : (milmoAll a1 a2 a3 s).ptp = s.ptp := by
  unfold milmoAll; simp
@[simp] theorem milmoAll_boot (a1) (a2) (a3) (s : State) : (milmoAll a1 a2 a3 s).boot = s.boot := by
  unfold milmoAll; simp
@[simp] theorem milmoAll_coh (a1) (a2) (a3) (s : State) : (milmoAll a1 a2 a3 s).coh = s.coh := by
  unfold milmoAll; simp
@[simp] theorem milmoAll_mem (a1) (a2) (a3) (s : State) : (milmoAll a1 a2 a3 s).mem = s.mem := by
  unfold milmoAll; simp
@[simp] theorem milmoAll_ward (a1) (a2) (a3) (s : State) : (milmoAll a1 a2 a3 s).ward = s.ward := by
  unfold milmoAll; simp
@[simp] theorem milmoAll_rime (a1) (a2) (a3) (s : State) : (milmoAll a1 a2 a3 s).rime = s.rime := by
  unfold milmoAll; simp
@[simp] theorem milmoAll_sec (a1) (a2) (a3) (s : State) : (milmoAll a1 a2 a3 s).sec = s.sec := by
  unfold milmoAll; simp
@[simp] theorem applyJ_now (a1) (s : State) : (applyJ a1 s).now = s.now := by
  unfold applyJ; (repeat' split) <;> simp
@[simp] theorem applyJ_pending (a1) (s : State) : (applyJ a1 s).pending = s.pending := by
  unfold applyJ; (repeat' split) <;> simp
@[simp] theorem applyJ_out (a1) (s : State) : (applyJ a1 s).out = s.out := by
  unfold applyJ; (repeat' split) <;> simp
@[simp] theorem applyJ_held (a1) (s : State) : (applyJ a1 s).held = s.held := by
  unfold applyJ; (repeat' split) <;> simp
@[simp] theorem applyJ_free (a1) (s : State) : (applyJ a1 s).free = s.free := by
  unfold applyJ; (repeat' split) <;> simp
@[simp] theorem applyJ_serial (a1) (s : State) : (applyJ a1 s).serial = s.serial := by
  unfold applyJ; (repeat' split) <;> simp
@[simp] theorem applyJ_cfg (a1) (s : State) : (applyJ a1 s).cfg = s.cfg := by
  unfold applyJ; (repeat' split) <;> simp
@[simp] theorem applyJ_mor (a1) (s : State) : (applyJ a1 s).mor = s.mor := by
  unfold applyJ; (repeat' split) <;> simp
@[simp] theorem applyJ_keeper (a1) (s : State) : (applyJ a1 s).keeper = s.keeper := by
  unfold applyJ; (repeat' split) <;> simp
@[simp] theorem applyJ_start (a1) (s : State) : (applyJ a1 s).start = s.start := by
  unfold applyJ; (repeat' split) <;> simp
@[simp] theorem applyJ_twin (a1) (s : State) : (applyJ a1 s).twin = s.twin := by
  unfold applyJ; (repeat' split) <;> simp
@[simp] theorem applyJ_gauge (a1) (s : State) : (applyJ a1 s).gauge = s.gauge := by
  unfold applyJ; (repeat' split) <;> simp
@[simp] theorem applyJ_pace (a1) (s : State) : (applyJ a1 s).pace = s.pace := by
  unfold applyJ; (repeat' split) <;> simp
@[simp] theorem applyJ_host (a1) (s : State) : (applyJ a1 s).host = s.host := by
  unfold applyJ; (repeat' split) <;> simp
@[simp] theorem applyJ_ptp (a1) (s : State) : (applyJ a1 s).ptp = s.ptp := by
  unfold applyJ; (repeat' split) <;> simp
@[simp] theorem applyJ_net (a1) (s : State) : (applyJ a1 s).net = s.net := by
  unfold applyJ; (repeat' split) <;> simp
@[simp] theorem applyJ_boot (a1) (s : State) : (applyJ a1 s).boot = s.boot := by
  unfold applyJ; (repeat' split) <;> simp
@[simp] theorem applyJ_coh (a1) (s : State) : (applyJ a1 s).coh = s.coh := by
  unfold applyJ; (repeat' split) <;> simp
@[simp] theorem applyJ_mem (a1) (s : State) : (applyJ a1 s).mem = s.mem := by
  unfold applyJ; (repeat' split) <;> simp
@[simp] theorem applyJ_ward (a1) (s : State) : (applyJ a1 s).ward = s.ward := by
  unfold applyJ; (repeat' split) <;> simp
@[simp] theorem applyJ_rime (a1) (s : State) : (applyJ a1 s).rime = s.rime := by
  unfold applyJ; (repeat' split) <;> simp
@[simp] theorem journal_now (a1) (s : State) : (journal a1 s).now = s.now := by
  unfold journal; simp
@[simp] theorem journal_pending (a1) (s : State) : (journal a1 s).pending = s.pending := by
  unfold journal; simp
@[simp] theorem journal_held (a1) (s : State) : (journal a1 s).held = s.held := by
  unfold journal; simp
@[simp] theorem journal_free (a1) (s : State) : (journal a1 s).free = s.free := by
  unfold journal; simp
@[simp] theorem journal_serial (a1) (s : State) : (journal a1 s).serial = s.serial := by
  unfold journal; simp
@[simp] theorem journal_cfg (a1) (s : State) : (journal a1 s).cfg = s.cfg := by
  unfold journal; simp
@[simp] theorem journal_mor (a1) (s : State) : (journal a1 s).mor = s.mor := by
  unfold journal; simp
@[simp] theorem journal_keeper (a1) (s : State) : (journal a1 s).keeper = s.keeper := by
  unfold journal; simp
@[simp] theorem journal_start (a1) (s : State) : (journal a1 s).start = s.start := by
  unfold journal; simp
@[simp] theorem journal_gauge (a1) (s : State) : (journal a1 s).gauge = s.gauge := by
  unfold journal; simp
@[simp] theorem journal_pace (a1) (s : State) : (journal a1 s).pace = s.pace := by
  unfold journal; simp
@[simp] theorem journal_host (a1) (s : State) : (journal a1 s).host = s.host := by
  unfold journal; simp
@[simp] theorem journal_ptp (a1) (s : State) : (journal a1 s).ptp = s.ptp := by
  unfold journal; simp
@[simp] theorem journal_net (a1) (s : State) : (journal a1 s).net = s.net := by
  unfold journal; simp
@[simp] theorem journal_boot (a1) (s : State) : (journal a1 s).boot = s.boot := by
  unfold journal; simp
@[simp] theorem journal_coh (a1) (s : State) : (journal a1 s).coh = s.coh := by
  unfold journal; simp
@[simp] theorem journal_mem (a1) (s : State) : (journal a1 s).mem = s.mem := by
  unfold journal; simp
@[simp] theorem journal_ward (a1) (s : State) : (journal a1 s).ward = s.ward := by
  unfold journal; simp
@[simp] theorem journal_rime (a1) (s : State) : (journal a1 s).rime = s.rime := by
  unfold journal; simp
@[simp] theorem sendStatus_now (s : State) : (sendStatus s).now = s.now := by
  unfold sendStatus; simp
@[simp] theorem sendStatus_pending (s : State) : (sendStatus s).pending = s.pending := by
  unfold sendStatus; simp
@[simp] theorem sendStatus_held (s : State) : (sendStatus s).held = s.held := by
  unfold sendStatus; simp
@[simp] theorem sendStatus_free (s : State) : (sendStatus s).free = s.free := by
  unfold sendStatus; simp
@[simp] theorem sendStatus_serial (s : State) : (sendStatus s).serial = s.serial := by
  unfold sendStatus; simp
@[simp] theorem sendStatus_cfg (s : State) : (sendStatus s).cfg = s.cfg := by
  unfold sendStatus; simp
@[simp] theorem sendStatus_mor (s : State) : (sendStatus s).mor = s.mor := by
  unfold sendStatus; simp
@[simp] theorem sendStatus_keeper (s : State) : (sendStatus s).keeper = s.keeper := by
  unfold sendStatus; simp
@[simp] theorem sendStatus_start (s : State) : (sendStatus s).start = s.start := by
  unfold sendStatus; simp
@[simp] theorem sendStatus_gauge (s : State) : (sendStatus s).gauge = s.gauge := by
  unfold sendStatus; simp
@[simp] theorem sendStatus_power (s : State) : (sendStatus s).power = s.power := by
  unfold sendStatus; simp
@[simp] theorem sendStatus_pace (s : State) : (sendStatus s).pace = s.pace := by
  unfold sendStatus; simp
@[simp] theorem sendStatus_kw (s : State) : (sendStatus s).kw = s.kw := by
  unfold sendStatus; simp
@[simp] theorem sendStatus_media (s : State) : (sendStatus s).media = s.media := by
  unfold sendStatus; simp
@[simp] theorem sendStatus_ice (s : State) : (sendStatus s).ice = s.ice := by
  unfold sendStatus; simp
@[simp] theorem sendStatus_host (s : State) : (sendStatus s).host = s.host := by
  unfold sendStatus; simp
@[simp] theorem sendStatus_ptp (s : State) : (sendStatus s).ptp = s.ptp := by
  unfold sendStatus; simp
@[simp] theorem sendStatus_net (s : State) : (sendStatus s).net = s.net := by
  unfold sendStatus; simp
@[simp] theorem sendStatus_boot (s : State) : (sendStatus s).boot = s.boot := by
  unfold sendStatus; simp
@[simp] theorem sendStatus_coh (s : State) : (sendStatus s).coh = s.coh := by
  unfold sendStatus; simp
@[simp] theorem sendStatus_mem (s : State) : (sendStatus s).mem = s.mem := by
  unfold sendStatus; simp
@[simp] theorem sendStatus_ward (s : State) : (sendStatus s).ward = s.ward := by
  unfold sendStatus; simp
@[simp] theorem sendStatus_rime (s : State) : (sendStatus s).rime = s.rime := by
  unfold sendStatus; simp
@[simp] theorem sendStatus_sec (s : State) : (sendStatus s).sec = s.sec := by
  unfold sendStatus; simp
@[simp] theorem sendStatus_keys (s : State) : (sendStatus s).keys = s.keys := by
  unfold sendStatus; simp
@[simp] theorem applyGate_now (s : State) : (applyGate s).now = s.now := by rfl
@[simp] theorem applyGate_pending (s : State) : (applyGate s).pending = s.pending := by rfl
@[simp] theorem applyGate_out (s : State) : (applyGate s).out = s.out := by rfl
@[simp] theorem applyGate_held (s : State) : (applyGate s).held = s.held := by rfl
@[simp] theorem applyGate_free (s : State) : (applyGate s).free = s.free := by rfl
@[simp] theorem applyGate_serial (s : State) : (applyGate s).serial = s.serial := by rfl
@[simp] theorem applyGate_cfg (s : State) : (applyGate s).cfg = s.cfg := by rfl
@[simp] theorem applyGate_mor (s : State) : (applyGate s).mor = s.mor := by rfl
@[simp] theorem applyGate_start (s : State) : (applyGate s).start = s.start := by rfl
@[simp] theorem applyGate_twin (s : State) : (applyGate s).twin = s.twin := by rfl
@[simp] theorem applyGate_gauge (s : State) : (applyGate s).gauge = s.gauge := by rfl
@[simp] theorem applyGate_power (s : State) : (applyGate s).power = s.power := by rfl
@[simp] theorem applyGate_pace (s : State) : (applyGate s).pace = s.pace := by rfl
@[simp] theorem applyGate_kw (s : State) : (applyGate s).kw = s.kw := by rfl
@[simp] theorem applyGate_media (s : State) : (applyGate s).media = s.media := by rfl
@[simp] theorem applyGate_ice (s : State) : (applyGate s).ice = s.ice := by rfl
@[simp] theorem applyGate_host (s : State) : (applyGate s).host = s.host := by rfl
@[simp] theorem applyGate_ptp (s : State) : (applyGate s).ptp = s.ptp := by rfl
@[simp] theorem applyGate_net (s : State) : (applyGate s).net = s.net := by rfl
@[simp] theorem applyGate_boot (s : State) : (applyGate s).boot = s.boot := by rfl
@[simp] theorem applyGate_coh (s : State) : (applyGate s).coh = s.coh := by rfl
@[simp] theorem applyGate_mem (s : State) : (applyGate s).mem = s.mem := by rfl
@[simp] theorem applyGate_ward (s : State) : (applyGate s).ward = s.ward := by rfl
@[simp] theorem applyGate_rime (s : State) : (applyGate s).rime = s.rime := by rfl
@[simp] theorem applyGate_sec (s : State) : (applyGate s).sec = s.sec := by rfl
@[simp] theorem applyGate_keys (s : State) : (applyGate s).keys = s.keys := by rfl
@[simp] theorem driveHold_now (s : State) : (driveHold s).now = s.now := by
  unfold driveHold; simp
@[simp] theorem driveHold_pending (s : State) : (driveHold s).pending = s.pending := by
  unfold driveHold; simp
@[simp] theorem driveHold_held (s : State) : (driveHold s).held = s.held := by
  unfold driveHold; simp
@[simp] theorem driveHold_free (s : State) : (driveHold s).free = s.free := by
  unfold driveHold; simp
@[simp] theorem driveHold_serial (s : State) : (driveHold s).serial = s.serial := by
  unfold driveHold; simp
@[simp] theorem driveHold_cfg (s : State) : (driveHold s).cfg = s.cfg := by
  unfold driveHold; simp
@[simp] theorem driveHold_mor (s : State) : (driveHold s).mor = s.mor := by
  unfold driveHold; simp
@[simp] theorem driveHold_start (s : State) : (driveHold s).start = s.start := by
  unfold driveHold; simp
@[simp] theorem driveHold_gauge (s : State) : (driveHold s).gauge = s.gauge := by
  unfold driveHold; simp
@[simp] theorem driveHold_power (s : State) : (driveHold s).power = s.power := by
  unfold driveHold; simp
@[simp] theorem driveHold_pace (s : State) : (driveHold s).pace = s.pace := by
  unfold driveHold; simp
@[simp] theorem driveHold_kw (s : State) : (driveHold s).kw = s.kw := by
  unfold driveHold; simp
@[simp] theorem driveHold_media (s : State) : (driveHold s).media = s.media := by
  unfold driveHold; simp
@[simp] theorem driveHold_ice (s : State) : (driveHold s).ice = s.ice := by
  unfold driveHold; simp
@[simp] theorem driveHold_host (s : State) : (driveHold s).host = s.host := by
  unfold driveHold; simp
@[simp] theorem driveHold_ptp (s : State) : (driveHold s).ptp = s.ptp := by
  unfold driveHold; simp
@[simp] theorem driveHold_net (s : State) : (driveHold s).net = s.net := by
  unfold driveHold; simp
@[simp] theorem driveHold_boot (s : State) : (driveHold s).boot = s.boot := by
  unfold driveHold; simp
@[simp] theorem driveHold_coh (s : State) : (driveHold s).coh = s.coh := by
  unfold driveHold; simp
@[simp] theorem driveHold_mem (s : State) : (driveHold s).mem = s.mem := by
  unfold driveHold; simp
@[simp] theorem driveHold_ward (s : State) : (driveHold s).ward = s.ward := by
  unfold driveHold; simp
@[simp] theorem driveHold_rime (s : State) : (driveHold s).rime = s.rime := by
  unfold driveHold; simp
@[simp] theorem driveHold_sec (s : State) : (driveHold s).sec = s.sec := by
  unfold driveHold; simp
@[simp] theorem driveHold_keys (s : State) : (driveHold s).keys = s.keys := by
  unfold driveHold; simp
@[simp] theorem releaseHold_now (s : State) : (releaseHold s).now = s.now := by
  unfold releaseHold; simp
@[simp] theorem releaseHold_pending (s : State) : (releaseHold s).pending = s.pending := by
  unfold releaseHold; simp
@[simp] theorem releaseHold_held (s : State) : (releaseHold s).held = s.held := by
  unfold releaseHold; simp
@[simp] theorem releaseHold_free (s : State) : (releaseHold s).free = s.free := by
  unfold releaseHold; simp
@[simp] theorem releaseHold_serial (s : State) : (releaseHold s).serial = s.serial := by
  unfold releaseHold; simp
@[simp] theorem releaseHold_cfg (s : State) : (releaseHold s).cfg = s.cfg := by
  unfold releaseHold; simp
@[simp] theorem releaseHold_mor (s : State) : (releaseHold s).mor = s.mor := by
  unfold releaseHold; simp
@[simp] theorem releaseHold_gauge (s : State) : (releaseHold s).gauge = s.gauge := by
  unfold releaseHold; simp
@[simp] theorem releaseHold_power (s : State) : (releaseHold s).power = s.power := by
  unfold releaseHold; simp
@[simp] theorem releaseHold_pace (s : State) : (releaseHold s).pace = s.pace := by
  unfold releaseHold; simp
@[simp] theorem releaseHold_kw (s : State) : (releaseHold s).kw = s.kw := by
  unfold releaseHold; simp
@[simp] theorem releaseHold_media (s : State) : (releaseHold s).media = s.media := by
  unfold releaseHold; simp
@[simp] theorem releaseHold_ice (s : State) : (releaseHold s).ice = s.ice := by
  unfold releaseHold; simp
@[simp] theorem releaseHold_host (s : State) : (releaseHold s).host = s.host := by
  unfold releaseHold; simp
@[simp] theorem releaseHold_ptp (s : State) : (releaseHold s).ptp = s.ptp := by
  unfold releaseHold; simp
@[simp] theorem releaseHold_boot (s : State) : (releaseHold s).boot = s.boot := by
  unfold releaseHold; simp
@[simp] theorem releaseHold_coh (s : State) : (releaseHold s).coh = s.coh := by
  unfold releaseHold; simp
@[simp] theorem releaseHold_mem (s : State) : (releaseHold s).mem = s.mem := by
  unfold releaseHold; simp
@[simp] theorem releaseHold_ward (s : State) : (releaseHold s).ward = s.ward := by
  unfold releaseHold; simp
@[simp] theorem releaseHold_rime (s : State) : (releaseHold s).rime = s.rime := by
  unfold releaseHold; simp
@[simp] theorem releaseHold_sec (s : State) : (releaseHold s).sec = s.sec := by
  unfold releaseHold; simp
@[simp] theorem releaseHold_keys (s : State) : (releaseHold s).keys = s.keys := by
  unfold releaseHold; simp
@[simp] theorem criticalMiss_now (s : State) : (criticalMiss s).now = s.now := by rfl
@[simp] theorem criticalMiss_pending (s : State) : (criticalMiss s).pending = s.pending := by rfl
@[simp] theorem criticalMiss_out (s : State) : (criticalMiss s).out = s.out := by rfl
@[simp] theorem criticalMiss_held (s : State) : (criticalMiss s).held = s.held := by rfl
@[simp] theorem criticalMiss_free (s : State) : (criticalMiss s).free = s.free := by rfl
@[simp] theorem criticalMiss_serial (s : State) : (criticalMiss s).serial = s.serial := by rfl
@[simp] theorem criticalMiss_cfg (s : State) : (criticalMiss s).cfg = s.cfg := by rfl
@[simp] theorem criticalMiss_mor (s : State) : (criticalMiss s).mor = s.mor := by rfl
@[simp] theorem criticalMiss_keeper (s : State) : (criticalMiss s).keeper = s.keeper := by rfl
@[simp] theorem criticalMiss_start (s : State) : (criticalMiss s).start = s.start := by rfl
@[simp] theorem criticalMiss_gauge (s : State) : (criticalMiss s).gauge = s.gauge := by rfl
@[simp] theorem criticalMiss_power (s : State) : (criticalMiss s).power = s.power := by rfl
@[simp] theorem criticalMiss_pace (s : State) : (criticalMiss s).pace = s.pace := by rfl
@[simp] theorem criticalMiss_kw (s : State) : (criticalMiss s).kw = s.kw := by rfl
@[simp] theorem criticalMiss_media (s : State) : (criticalMiss s).media = s.media := by rfl
@[simp] theorem criticalMiss_ice (s : State) : (criticalMiss s).ice = s.ice := by rfl
@[simp] theorem criticalMiss_host (s : State) : (criticalMiss s).host = s.host := by rfl
@[simp] theorem criticalMiss_ptp (s : State) : (criticalMiss s).ptp = s.ptp := by rfl
@[simp] theorem criticalMiss_net (s : State) : (criticalMiss s).net = s.net := by rfl
@[simp] theorem criticalMiss_boot (s : State) : (criticalMiss s).boot = s.boot := by rfl
@[simp] theorem criticalMiss_coh (s : State) : (criticalMiss s).coh = s.coh := by rfl
@[simp] theorem criticalMiss_mem (s : State) : (criticalMiss s).mem = s.mem := by rfl
@[simp] theorem criticalMiss_ward (s : State) : (criticalMiss s).ward = s.ward := by rfl
@[simp] theorem criticalMiss_rime (s : State) : (criticalMiss s).rime = s.rime := by rfl
@[simp] theorem criticalMiss_sec (s : State) : (criticalMiss s).sec = s.sec := by rfl
@[simp] theorem criticalMiss_keys (s : State) : (criticalMiss s).keys = s.keys := by rfl
@[simp] theorem addBgAt_now (a1) (a2) (a3) (a4) (a5) (s : State) : (addBgAt a1 a2 a3 a4 a5 s).now = s.now := by
  unfold addBgAt; simp
@[simp] theorem addBgAt_pending (a1) (a2) (a3) (a4) (a5) (s : State) : (addBgAt a1 a2 a3 a4 a5 s).pending = s.pending := by
  unfold addBgAt; simp
@[simp] theorem addBgAt_out (a1) (a2) (a3) (a4) (a5) (s : State) : (addBgAt a1 a2 a3 a4 a5 s).out = s.out := by
  unfold addBgAt; simp
@[simp] theorem addBgAt_held (a1) (a2) (a3) (a4) (a5) (s : State) : (addBgAt a1 a2 a3 a4 a5 s).held = s.held := by
  unfold addBgAt; simp
@[simp] theorem addBgAt_free (a1) (a2) (a3) (a4) (a5) (s : State) : (addBgAt a1 a2 a3 a4 a5 s).free = s.free := by
  unfold addBgAt; simp
@[simp] theorem addBgAt_serial (a1) (a2) (a3) (a4) (a5) (s : State) : (addBgAt a1 a2 a3 a4 a5 s).serial = s.serial := by
  unfold addBgAt; simp
@[simp] theorem addBgAt_cfg (a1) (a2) (a3) (a4) (a5) (s : State) : (addBgAt a1 a2 a3 a4 a5 s).cfg = s.cfg := by
  unfold addBgAt; simp
@[simp] theorem addBgAt_mor (a1) (a2) (a3) (a4) (a5) (s : State) : (addBgAt a1 a2 a3 a4 a5 s).mor = s.mor := by
  unfold addBgAt; simp
@[simp] theorem addBgAt_keeper (a1) (a2) (a3) (a4) (a5) (s : State) : (addBgAt a1 a2 a3 a4 a5 s).keeper = s.keeper := by
  unfold addBgAt; simp
@[simp] theorem addBgAt_start (a1) (a2) (a3) (a4) (a5) (s : State) : (addBgAt a1 a2 a3 a4 a5 s).start = s.start := by
  unfold addBgAt; simp
@[simp] theorem addBgAt_twin (a1) (a2) (a3) (a4) (a5) (s : State) : (addBgAt a1 a2 a3 a4 a5 s).twin = s.twin := by
  unfold addBgAt; simp
@[simp] theorem addBgAt_gauge (a1) (a2) (a3) (a4) (a5) (s : State) : (addBgAt a1 a2 a3 a4 a5 s).gauge = s.gauge := by
  unfold addBgAt; simp
@[simp] theorem addBgAt_power (a1) (a2) (a3) (a4) (a5) (s : State) : (addBgAt a1 a2 a3 a4 a5 s).power = s.power := by
  unfold addBgAt; simp
@[simp] theorem addBgAt_pace (a1) (a2) (a3) (a4) (a5) (s : State) : (addBgAt a1 a2 a3 a4 a5 s).pace = s.pace := by
  unfold addBgAt; simp
@[simp] theorem addBgAt_kw (a1) (a2) (a3) (a4) (a5) (s : State) : (addBgAt a1 a2 a3 a4 a5 s).kw = s.kw := by
  unfold addBgAt; simp
@[simp] theorem addBgAt_ice (a1) (a2) (a3) (a4) (a5) (s : State) : (addBgAt a1 a2 a3 a4 a5 s).ice = s.ice := by
  unfold addBgAt; simp
@[simp] theorem addBgAt_host (a1) (a2) (a3) (a4) (a5) (s : State) : (addBgAt a1 a2 a3 a4 a5 s).host = s.host := by
  unfold addBgAt; simp
@[simp] theorem addBgAt_ptp (a1) (a2) (a3) (a4) (a5) (s : State) : (addBgAt a1 a2 a3 a4 a5 s).ptp = s.ptp := by
  unfold addBgAt; simp
@[simp] theorem addBgAt_net (a1) (a2) (a3) (a4) (a5) (s : State) : (addBgAt a1 a2 a3 a4 a5 s).net = s.net := by
  unfold addBgAt; simp
@[simp] theorem addBgAt_boot (a1) (a2) (a3) (a4) (a5) (s : State) : (addBgAt a1 a2 a3 a4 a5 s).boot = s.boot := by
  unfold addBgAt; simp
@[simp] theorem addBgAt_coh (a1) (a2) (a3) (a4) (a5) (s : State) : (addBgAt a1 a2 a3 a4 a5 s).coh = s.coh := by
  unfold addBgAt; simp
@[simp] theorem addBgAt_mem (a1) (a2) (a3) (a4) (a5) (s : State) : (addBgAt a1 a2 a3 a4 a5 s).mem = s.mem := by
  unfold addBgAt; simp
@[simp] theorem addBgAt_ward (a1) (a2) (a3) (a4) (a5) (s : State) : (addBgAt a1 a2 a3 a4 a5 s).ward = s.ward := by
  unfold addBgAt; simp
@[simp] theorem addBgAt_rime (a1) (a2) (a3) (a4) (a5) (s : State) : (addBgAt a1 a2 a3 a4 a5 s).rime = s.rime := by
  unfold addBgAt; simp
@[simp] theorem addBgAt_sec (a1) (a2) (a3) (a4) (a5) (s : State) : (addBgAt a1 a2 a3 a4 a5 s).sec = s.sec := by
  unfold addBgAt; simp
@[simp] theorem addBgAt_keys (a1) (a2) (a3) (a4) (a5) (s : State) : (addBgAt a1 a2 a3 a4 a5 s).keys = s.keys := by
  unfold addBgAt; simp
@[simp] theorem addBg_now (a1) (a2) (a3) (a4) (s : State) : (addBg a1 a2 a3 a4 s).now = s.now := by
  unfold addBg; simp
@[simp] theorem addBg_pending (a1) (a2) (a3) (a4) (s : State) : (addBg a1 a2 a3 a4 s).pending = s.pending := by
  unfold addBg; simp
@[simp] theorem addBg_out (a1) (a2) (a3) (a4) (s : State) : (addBg a1 a2 a3 a4 s).out = s.out := by
  unfold addBg; simp
@[simp] theorem addBg_held (a1) (a2) (a3) (a4) (s : State) : (addBg a1 a2 a3 a4 s).held = s.held := by
  unfold addBg; simp
@[simp] theorem addBg_free (a1) (a2) (a3) (a4) (s : State) : (addBg a1 a2 a3 a4 s).free = s.free := by
  unfold addBg; simp
@[simp] theorem addBg_serial (a1) (a2) (a3) (a4) (s : State) : (addBg a1 a2 a3 a4 s).serial = s.serial := by
  unfold addBg; simp
@[simp] theorem addBg_cfg (a1) (a2) (a3) (a4) (s : State) : (addBg a1 a2 a3 a4 s).cfg = s.cfg := by
  unfold addBg; simp
@[simp] theorem addBg_mor (a1) (a2) (a3) (a4) (s : State) : (addBg a1 a2 a3 a4 s).mor = s.mor := by
  unfold addBg; simp
@[simp] theorem addBg_keeper (a1) (a2) (a3) (a4) (s : State) : (addBg a1 a2 a3 a4 s).keeper = s.keeper := by
  unfold addBg; simp
@[simp] theorem addBg_start (a1) (a2) (a3) (a4) (s : State) : (addBg a1 a2 a3 a4 s).start = s.start := by
  unfold addBg; simp
@[simp] theorem addBg_twin (a1) (a2) (a3) (a4) (s : State) : (addBg a1 a2 a3 a4 s).twin = s.twin := by
  unfold addBg; simp
@[simp] theorem addBg_gauge (a1) (a2) (a3) (a4) (s : State) : (addBg a1 a2 a3 a4 s).gauge = s.gauge := by
  unfold addBg; simp
@[simp] theorem addBg_power (a1) (a2) (a3) (a4) (s : State) : (addBg a1 a2 a3 a4 s).power = s.power := by
  unfold addBg; simp
@[simp] theorem addBg_pace (a1) (a2) (a3) (a4) (s : State) : (addBg a1 a2 a3 a4 s).pace = s.pace := by
  unfold addBg; simp
@[simp] theorem addBg_kw (a1) (a2) (a3) (a4) (s : State) : (addBg a1 a2 a3 a4 s).kw = s.kw := by
  unfold addBg; simp
@[simp] theorem addBg_ice (a1) (a2) (a3) (a4) (s : State) : (addBg a1 a2 a3 a4 s).ice = s.ice := by
  unfold addBg; simp
@[simp] theorem addBg_host (a1) (a2) (a3) (a4) (s : State) : (addBg a1 a2 a3 a4 s).host = s.host := by
  unfold addBg; simp
@[simp] theorem addBg_ptp (a1) (a2) (a3) (a4) (s : State) : (addBg a1 a2 a3 a4 s).ptp = s.ptp := by
  unfold addBg; simp
@[simp] theorem addBg_net (a1) (a2) (a3) (a4) (s : State) : (addBg a1 a2 a3 a4 s).net = s.net := by
  unfold addBg; simp
@[simp] theorem addBg_boot (a1) (a2) (a3) (a4) (s : State) : (addBg a1 a2 a3 a4 s).boot = s.boot := by
  unfold addBg; simp
@[simp] theorem addBg_coh (a1) (a2) (a3) (a4) (s : State) : (addBg a1 a2 a3 a4 s).coh = s.coh := by
  unfold addBg; simp
@[simp] theorem addBg_mem (a1) (a2) (a3) (a4) (s : State) : (addBg a1 a2 a3 a4 s).mem = s.mem := by
  unfold addBg; simp
@[simp] theorem addBg_ward (a1) (a2) (a3) (a4) (s : State) : (addBg a1 a2 a3 a4 s).ward = s.ward := by
  unfold addBg; simp
@[simp] theorem addBg_rime (a1) (a2) (a3) (a4) (s : State) : (addBg a1 a2 a3 a4 s).rime = s.rime := by
  unfold addBg; simp
@[simp] theorem addBg_sec (a1) (a2) (a3) (a4) (s : State) : (addBg a1 a2 a3 a4 s).sec = s.sec := by
  unfold addBg; simp
@[simp] theorem addBg_keys (a1) (a2) (a3) (a4) (s : State) : (addBg a1 a2 a3 a4 s).keys = s.keys := by
  unfold addBg; simp
@[simp] theorem doneBg_now (a1) (a2) (a3) (s : State) : (doneBg a1 a2 a3 s).now = s.now := by rfl
@[simp] theorem doneBg_pending (a1) (a2) (a3) (s : State) : (doneBg a1 a2 a3 s).pending = s.pending := by rfl
@[simp] theorem doneBg_out (a1) (a2) (a3) (s : State) : (doneBg a1 a2 a3 s).out = s.out := by rfl
@[simp] theorem doneBg_held (a1) (a2) (a3) (s : State) : (doneBg a1 a2 a3 s).held = s.held := by rfl
@[simp] theorem doneBg_free (a1) (a2) (a3) (s : State) : (doneBg a1 a2 a3 s).free = s.free := by rfl
@[simp] theorem doneBg_serial (a1) (a2) (a3) (s : State) : (doneBg a1 a2 a3 s).serial = s.serial := by rfl
@[simp] theorem doneBg_cfg (a1) (a2) (a3) (s : State) : (doneBg a1 a2 a3 s).cfg = s.cfg := by rfl
@[simp] theorem doneBg_mor (a1) (a2) (a3) (s : State) : (doneBg a1 a2 a3 s).mor = s.mor := by rfl
@[simp] theorem doneBg_keeper (a1) (a2) (a3) (s : State) : (doneBg a1 a2 a3 s).keeper = s.keeper := by rfl
@[simp] theorem doneBg_start (a1) (a2) (a3) (s : State) : (doneBg a1 a2 a3 s).start = s.start := by rfl
@[simp] theorem doneBg_twin (a1) (a2) (a3) (s : State) : (doneBg a1 a2 a3 s).twin = s.twin := by rfl
@[simp] theorem doneBg_gauge (a1) (a2) (a3) (s : State) : (doneBg a1 a2 a3 s).gauge = s.gauge := by rfl
@[simp] theorem doneBg_power (a1) (a2) (a3) (s : State) : (doneBg a1 a2 a3 s).power = s.power := by rfl
@[simp] theorem doneBg_pace (a1) (a2) (a3) (s : State) : (doneBg a1 a2 a3 s).pace = s.pace := by rfl
@[simp] theorem doneBg_kw (a1) (a2) (a3) (s : State) : (doneBg a1 a2 a3 s).kw = s.kw := by rfl
@[simp] theorem doneBg_ice (a1) (a2) (a3) (s : State) : (doneBg a1 a2 a3 s).ice = s.ice := by rfl
@[simp] theorem doneBg_host (a1) (a2) (a3) (s : State) : (doneBg a1 a2 a3 s).host = s.host := by rfl
@[simp] theorem doneBg_ptp (a1) (a2) (a3) (s : State) : (doneBg a1 a2 a3 s).ptp = s.ptp := by rfl
@[simp] theorem doneBg_net (a1) (a2) (a3) (s : State) : (doneBg a1 a2 a3 s).net = s.net := by rfl
@[simp] theorem doneBg_boot (a1) (a2) (a3) (s : State) : (doneBg a1 a2 a3 s).boot = s.boot := by rfl
@[simp] theorem doneBg_coh (a1) (a2) (a3) (s : State) : (doneBg a1 a2 a3 s).coh = s.coh := by rfl
@[simp] theorem doneBg_mem (a1) (a2) (a3) (s : State) : (doneBg a1 a2 a3 s).mem = s.mem := by rfl
@[simp] theorem doneBg_ward (a1) (a2) (a3) (s : State) : (doneBg a1 a2 a3 s).ward = s.ward := by rfl
@[simp] theorem doneBg_rime (a1) (a2) (a3) (s : State) : (doneBg a1 a2 a3 s).rime = s.rime := by rfl
@[simp] theorem doneBg_sec (a1) (a2) (a3) (s : State) : (doneBg a1 a2 a3 s).sec = s.sec := by rfl
@[simp] theorem doneBg_keys (a1) (a2) (a3) (s : State) : (doneBg a1 a2 a3 s).keys = s.keys := by rfl
@[simp] theorem leaveGroup_now (a1) (s : State) : (leaveGroup a1 s).now = s.now := by
  unfold leaveGroup; simp
@[simp] theorem leaveGroup_pending (a1) (s : State) : (leaveGroup a1 s).pending = s.pending := by
  unfold leaveGroup; simp
@[simp] theorem leaveGroup_held (a1) (s : State) : (leaveGroup a1 s).held = s.held := by
  unfold leaveGroup; simp
@[simp] theorem leaveGroup_free (a1) (s : State) : (leaveGroup a1 s).free = s.free := by
  unfold leaveGroup; simp
@[simp] theorem leaveGroup_serial (a1) (s : State) : (leaveGroup a1 s).serial = s.serial := by
  unfold leaveGroup; simp
@[simp] theorem leaveGroup_cfg (a1) (s : State) : (leaveGroup a1 s).cfg = s.cfg := by
  unfold leaveGroup; simp
@[simp] theorem leaveGroup_mor (a1) (s : State) : (leaveGroup a1 s).mor = s.mor := by
  unfold leaveGroup; simp
@[simp] theorem leaveGroup_keeper (a1) (s : State) : (leaveGroup a1 s).keeper = s.keeper := by
  unfold leaveGroup; simp
@[simp] theorem leaveGroup_start (a1) (s : State) : (leaveGroup a1 s).start = s.start := by
  unfold leaveGroup; simp
@[simp] theorem leaveGroup_twin (a1) (s : State) : (leaveGroup a1 s).twin = s.twin := by
  unfold leaveGroup; simp
@[simp] theorem leaveGroup_gauge (a1) (s : State) : (leaveGroup a1 s).gauge = s.gauge := by
  unfold leaveGroup; simp
@[simp] theorem leaveGroup_power (a1) (s : State) : (leaveGroup a1 s).power = s.power := by
  unfold leaveGroup; simp
@[simp] theorem leaveGroup_pace (a1) (s : State) : (leaveGroup a1 s).pace = s.pace := by
  unfold leaveGroup; simp
@[simp] theorem leaveGroup_kw (a1) (s : State) : (leaveGroup a1 s).kw = s.kw := by
  unfold leaveGroup; simp
@[simp] theorem leaveGroup_media (a1) (s : State) : (leaveGroup a1 s).media = s.media := by
  unfold leaveGroup; simp
@[simp] theorem leaveGroup_ice (a1) (s : State) : (leaveGroup a1 s).ice = s.ice := by
  unfold leaveGroup; simp
@[simp] theorem leaveGroup_host (a1) (s : State) : (leaveGroup a1 s).host = s.host := by
  unfold leaveGroup; simp
@[simp] theorem leaveGroup_ptp (a1) (s : State) : (leaveGroup a1 s).ptp = s.ptp := by
  unfold leaveGroup; simp
@[simp] theorem leaveGroup_boot (a1) (s : State) : (leaveGroup a1 s).boot = s.boot := by
  unfold leaveGroup; simp
@[simp] theorem leaveGroup_coh (a1) (s : State) : (leaveGroup a1 s).coh = s.coh := by
  unfold leaveGroup; simp
@[simp] theorem leaveGroup_mem (a1) (s : State) : (leaveGroup a1 s).mem = s.mem := by
  unfold leaveGroup; simp
@[simp] theorem leaveGroup_ward (a1) (s : State) : (leaveGroup a1 s).ward = s.ward := by
  unfold leaveGroup; simp
@[simp] theorem leaveGroup_rime (a1) (s : State) : (leaveGroup a1 s).rime = s.rime := by
  unfold leaveGroup; simp
@[simp] theorem leaveGroup_sec (a1) (s : State) : (leaveGroup a1 s).sec = s.sec := by
  unfold leaveGroup; simp
@[simp] theorem leaveGroup_keys (a1) (s : State) : (leaveGroup a1 s).keys = s.keys := by
  unfold leaveGroup; simp
@[simp] theorem openGrain_now (a1) (a2) (s : State) : (openGrain a1 a2 s).now = s.now := by
  unfold openGrain; (repeat' split) <;> simp
@[simp] theorem openGrain_pending (a1) (a2) (s : State) : (openGrain a1 a2 s).pending = s.pending := by
  unfold openGrain; (repeat' split) <;> simp
@[simp] theorem openGrain_out (a1) (a2) (s : State) : (openGrain a1 a2 s).out = s.out := by
  unfold openGrain; (repeat' split) <;> simp
@[simp] theorem openGrain_held (a1) (a2) (s : State) : (openGrain a1 a2 s).held = s.held := by
  unfold openGrain; (repeat' split) <;> simp
@[simp] theorem openGrain_free (a1) (a2) (s : State) : (openGrain a1 a2 s).free = s.free := by
  unfold openGrain; (repeat' split) <;> simp
@[simp] theorem openGrain_serial (a1) (a2) (s : State) : (openGrain a1 a2 s).serial = s.serial := by
  unfold openGrain; (repeat' split) <;> simp
@[simp] theorem openGrain_cfg (a1) (a2) (s : State) : (openGrain a1 a2 s).cfg = s.cfg := by
  unfold openGrain; (repeat' split) <;> simp
@[simp] theorem openGrain_mor (a1) (a2) (s : State) : (openGrain a1 a2 s).mor = s.mor := by
  unfold openGrain; (repeat' split) <;> simp
@[simp] theorem openGrain_keeper (a1) (a2) (s : State) : (openGrain a1 a2 s).keeper = s.keeper := by
  unfold openGrain; (repeat' split) <;> simp
@[simp] theorem openGrain_start (a1) (a2) (s : State) : (openGrain a1 a2 s).start = s.start := by
  unfold openGrain; (repeat' split) <;> simp
@[simp] theorem openGrain_twin (a1) (a2) (s : State) : (openGrain a1 a2 s).twin = s.twin := by
  unfold openGrain; (repeat' split) <;> simp
@[simp] theorem openGrain_gauge (a1) (a2) (s : State) : (openGrain a1 a2 s).gauge = s.gauge := by
  unfold openGrain; (repeat' split) <;> simp
@[simp] theorem openGrain_power (a1) (a2) (s : State) : (openGrain a1 a2 s).power = s.power := by
  unfold openGrain; (repeat' split) <;> simp
@[simp] theorem openGrain_pace (a1) (a2) (s : State) : (openGrain a1 a2 s).pace = s.pace := by
  unfold openGrain; (repeat' split) <;> simp
@[simp] theorem openGrain_kw (a1) (a2) (s : State) : (openGrain a1 a2 s).kw = s.kw := by
  unfold openGrain; (repeat' split) <;> simp
@[simp] theorem openGrain_media (a1) (a2) (s : State) : (openGrain a1 a2 s).media = s.media := by
  unfold openGrain; (repeat' split) <;> simp
@[simp] theorem openGrain_ice (a1) (a2) (s : State) : (openGrain a1 a2 s).ice = s.ice := by
  unfold openGrain; (repeat' split) <;> simp
@[simp] theorem openGrain_host (a1) (a2) (s : State) : (openGrain a1 a2 s).host = s.host := by
  unfold openGrain; (repeat' split) <;> simp
@[simp] theorem openGrain_ptp (a1) (a2) (s : State) : (openGrain a1 a2 s).ptp = s.ptp := by
  unfold openGrain; (repeat' split) <;> simp
@[simp] theorem openGrain_net (a1) (a2) (s : State) : (openGrain a1 a2 s).net = s.net := by
  unfold openGrain; (repeat' split) <;> simp
@[simp] theorem openGrain_boot (a1) (a2) (s : State) : (openGrain a1 a2 s).boot = s.boot := by
  unfold openGrain; (repeat' split) <;> simp
@[simp] theorem openGrain_coh (a1) (a2) (s : State) : (openGrain a1 a2 s).coh = s.coh := by
  unfold openGrain; (repeat' split) <;> simp
@[simp] theorem openGrain_mem (a1) (a2) (s : State) : (openGrain a1 a2 s).mem = s.mem := by
  unfold openGrain; (repeat' split) <;> simp
@[simp] theorem openGrain_ward (a1) (a2) (s : State) : (openGrain a1 a2 s).ward = s.ward := by
  unfold openGrain; (repeat' split) <;> simp
@[simp] theorem openGrain_rime (a1) (a2) (s : State) : (openGrain a1 a2 s).rime = s.rime := by
  unfold openGrain; (repeat' split) <;> simp
@[simp] theorem openGrain_sec (a1) (a2) (s : State) : (openGrain a1 a2 s).sec = s.sec := by
  unfold openGrain; (repeat' split) <;> simp
@[simp] theorem sendFlit_now (a1) (s : State) : (sendFlit a1 s).now = s.now := by rfl
@[simp] theorem sendFlit_pending (a1) (s : State) : (sendFlit a1 s).pending = s.pending := by rfl
@[simp] theorem sendFlit_held (a1) (s : State) : (sendFlit a1 s).held = s.held := by rfl
@[simp] theorem sendFlit_free (a1) (s : State) : (sendFlit a1 s).free = s.free := by rfl
@[simp] theorem sendFlit_serial (a1) (s : State) : (sendFlit a1 s).serial = s.serial := by rfl
@[simp] theorem sendFlit_cfg (a1) (s : State) : (sendFlit a1 s).cfg = s.cfg := by rfl
@[simp] theorem sendFlit_mor (a1) (s : State) : (sendFlit a1 s).mor = s.mor := by rfl
@[simp] theorem sendFlit_keeper (a1) (s : State) : (sendFlit a1 s).keeper = s.keeper := by rfl
@[simp] theorem sendFlit_start (a1) (s : State) : (sendFlit a1 s).start = s.start := by rfl
@[simp] theorem sendFlit_gauge (a1) (s : State) : (sendFlit a1 s).gauge = s.gauge := by rfl
@[simp] theorem sendFlit_power (a1) (s : State) : (sendFlit a1 s).power = s.power := by rfl
@[simp] theorem sendFlit_pace (a1) (s : State) : (sendFlit a1 s).pace = s.pace := by rfl
@[simp] theorem sendFlit_kw (a1) (s : State) : (sendFlit a1 s).kw = s.kw := by rfl
@[simp] theorem sendFlit_media (a1) (s : State) : (sendFlit a1 s).media = s.media := by rfl
@[simp] theorem sendFlit_ice (a1) (s : State) : (sendFlit a1 s).ice = s.ice := by rfl
@[simp] theorem sendFlit_host (a1) (s : State) : (sendFlit a1 s).host = s.host := by rfl
@[simp] theorem sendFlit_ptp (a1) (s : State) : (sendFlit a1 s).ptp = s.ptp := by rfl
@[simp] theorem sendFlit_net (a1) (s : State) : (sendFlit a1 s).net = s.net := by rfl
@[simp] theorem sendFlit_boot (a1) (s : State) : (sendFlit a1 s).boot = s.boot := by rfl
@[simp] theorem sendFlit_coh (a1) (s : State) : (sendFlit a1 s).coh = s.coh := by rfl
@[simp] theorem sendFlit_mem (a1) (s : State) : (sendFlit a1 s).mem = s.mem := by rfl
@[simp] theorem sendFlit_ward (a1) (s : State) : (sendFlit a1 s).ward = s.ward := by rfl
@[simp] theorem sendFlit_rime (a1) (s : State) : (sendFlit a1 s).rime = s.rime := by rfl
@[simp] theorem sendFlit_sec (a1) (s : State) : (sendFlit a1 s).sec = s.sec := by rfl
@[simp] theorem sendFlit_keys (a1) (s : State) : (sendFlit a1 s).keys = s.keys := by rfl
@[simp] theorem dropGram_now (a1) (s : State) : (dropGram a1 s).now = s.now := by rfl
@[simp] theorem dropGram_pending (a1) (s : State) : (dropGram a1 s).pending = s.pending := by rfl
@[simp] theorem dropGram_out (a1) (s : State) : (dropGram a1 s).out = s.out := by rfl
@[simp] theorem dropGram_held (a1) (s : State) : (dropGram a1 s).held = s.held := by rfl
@[simp] theorem dropGram_free (a1) (s : State) : (dropGram a1 s).free = s.free := by rfl
@[simp] theorem dropGram_serial (a1) (s : State) : (dropGram a1 s).serial = s.serial := by rfl
@[simp] theorem dropGram_cfg (a1) (s : State) : (dropGram a1 s).cfg = s.cfg := by rfl
@[simp] theorem dropGram_mor (a1) (s : State) : (dropGram a1 s).mor = s.mor := by rfl
@[simp] theorem dropGram_keeper (a1) (s : State) : (dropGram a1 s).keeper = s.keeper := by rfl
@[simp] theorem dropGram_start (a1) (s : State) : (dropGram a1 s).start = s.start := by rfl
@[simp] theorem dropGram_twin (a1) (s : State) : (dropGram a1 s).twin = s.twin := by rfl
@[simp] theorem dropGram_gauge (a1) (s : State) : (dropGram a1 s).gauge = s.gauge := by rfl
@[simp] theorem dropGram_power (a1) (s : State) : (dropGram a1 s).power = s.power := by rfl
@[simp] theorem dropGram_pace (a1) (s : State) : (dropGram a1 s).pace = s.pace := by rfl
@[simp] theorem dropGram_kw (a1) (s : State) : (dropGram a1 s).kw = s.kw := by rfl
@[simp] theorem dropGram_media (a1) (s : State) : (dropGram a1 s).media = s.media := by rfl
@[simp] theorem dropGram_host (a1) (s : State) : (dropGram a1 s).host = s.host := by rfl
@[simp] theorem dropGram_ptp (a1) (s : State) : (dropGram a1 s).ptp = s.ptp := by rfl
@[simp] theorem dropGram_net (a1) (s : State) : (dropGram a1 s).net = s.net := by rfl
@[simp] theorem dropGram_boot (a1) (s : State) : (dropGram a1 s).boot = s.boot := by rfl
@[simp] theorem dropGram_coh (a1) (s : State) : (dropGram a1 s).coh = s.coh := by rfl
@[simp] theorem dropGram_mem (a1) (s : State) : (dropGram a1 s).mem = s.mem := by rfl
@[simp] theorem dropGram_ward (a1) (s : State) : (dropGram a1 s).ward = s.ward := by rfl
@[simp] theorem dropGram_rime (a1) (s : State) : (dropGram a1 s).rime = s.rime := by rfl
@[simp] theorem dropGram_sec (a1) (s : State) : (dropGram a1 s).sec = s.sec := by rfl
@[simp] theorem dropGram_keys (a1) (s : State) : (dropGram a1 s).keys = s.keys := by rfl
@[simp] theorem milmoGroup_now (a1) (a2) (s : State) : (milmoGroup a1 a2 s).now = s.now := by
  unfold milmoGroup; simp
@[simp] theorem milmoGroup_pending (a1) (a2) (s : State) : (milmoGroup a1 a2 s).pending = s.pending := by
  unfold milmoGroup; simp
@[simp] theorem milmoGroup_free (a1) (a2) (s : State) : (milmoGroup a1 a2 s).free = s.free := by
  unfold milmoGroup; simp
@[simp] theorem milmoGroup_serial (a1) (a2) (s : State) : (milmoGroup a1 a2 s).serial = s.serial := by
  unfold milmoGroup; simp
@[simp] theorem milmoGroup_cfg (a1) (a2) (s : State) : (milmoGroup a1 a2 s).cfg = s.cfg := by
  unfold milmoGroup; simp
@[simp] theorem milmoGroup_mor (a1) (a2) (s : State) : (milmoGroup a1 a2 s).mor = s.mor := by
  unfold milmoGroup; simp
@[simp] theorem milmoGroup_keeper (a1) (a2) (s : State) : (milmoGroup a1 a2 s).keeper = s.keeper := by
  unfold milmoGroup; simp
@[simp] theorem milmoGroup_start (a1) (a2) (s : State) : (milmoGroup a1 a2 s).start = s.start := by
  unfold milmoGroup; simp
@[simp] theorem milmoGroup_twin (a1) (a2) (s : State) : (milmoGroup a1 a2 s).twin = s.twin := by
  unfold milmoGroup; simp
@[simp] theorem milmoGroup_gauge (a1) (a2) (s : State) : (milmoGroup a1 a2 s).gauge = s.gauge := by
  unfold milmoGroup; simp
@[simp] theorem milmoGroup_power (a1) (a2) (s : State) : (milmoGroup a1 a2 s).power = s.power := by
  unfold milmoGroup; simp
@[simp] theorem milmoGroup_pace (a1) (a2) (s : State) : (milmoGroup a1 a2 s).pace = s.pace := by
  unfold milmoGroup; simp
@[simp] theorem milmoGroup_kw (a1) (a2) (s : State) : (milmoGroup a1 a2 s).kw = s.kw := by
  unfold milmoGroup; simp
@[simp] theorem milmoGroup_media (a1) (a2) (s : State) : (milmoGroup a1 a2 s).media = s.media := by
  unfold milmoGroup; simp
@[simp] theorem milmoGroup_host (a1) (a2) (s : State) : (milmoGroup a1 a2 s).host = s.host := by
  unfold milmoGroup; simp
@[simp] theorem milmoGroup_ptp (a1) (a2) (s : State) : (milmoGroup a1 a2 s).ptp = s.ptp := by
  unfold milmoGroup; simp
@[simp] theorem milmoGroup_boot (a1) (a2) (s : State) : (milmoGroup a1 a2 s).boot = s.boot := by
  unfold milmoGroup; simp
@[simp] theorem milmoGroup_coh (a1) (a2) (s : State) : (milmoGroup a1 a2 s).coh = s.coh := by
  unfold milmoGroup; simp
@[simp] theorem milmoGroup_mem (a1) (a2) (s : State) : (milmoGroup a1 a2 s).mem = s.mem := by
  unfold milmoGroup; simp
@[simp] theorem milmoGroup_ward (a1) (a2) (s : State) : (milmoGroup a1 a2 s).ward = s.ward := by
  unfold milmoGroup; simp
@[simp] theorem milmoGroup_rime (a1) (a2) (s : State) : (milmoGroup a1 a2 s).rime = s.rime := by
  unfold milmoGroup; simp
@[simp] theorem milmoGroup_sec (a1) (a2) (s : State) : (milmoGroup a1 a2 s).sec = s.sec := by
  unfold milmoGroup; simp
@[simp] theorem onConn_now (a1) (a2) (s : State) : (onConn a1 a2 s).now = s.now := by rfl
@[simp] theorem onConn_pending (a1) (a2) (s : State) : (onConn a1 a2 s).pending = s.pending := by rfl
@[simp] theorem onConn_out (a1) (a2) (s : State) : (onConn a1 a2 s).out = s.out := by rfl
@[simp] theorem onConn_held (a1) (a2) (s : State) : (onConn a1 a2 s).held = s.held := by rfl
@[simp] theorem onConn_free (a1) (a2) (s : State) : (onConn a1 a2 s).free = s.free := by rfl
@[simp] theorem onConn_serial (a1) (a2) (s : State) : (onConn a1 a2 s).serial = s.serial := by rfl
@[simp] theorem onConn_cfg (a1) (a2) (s : State) : (onConn a1 a2 s).cfg = s.cfg := by rfl
@[simp] theorem onConn_mor (a1) (a2) (s : State) : (onConn a1 a2 s).mor = s.mor := by rfl
@[simp] theorem onConn_keeper (a1) (a2) (s : State) : (onConn a1 a2 s).keeper = s.keeper := by rfl
@[simp] theorem onConn_start (a1) (a2) (s : State) : (onConn a1 a2 s).start = s.start := by rfl
@[simp] theorem onConn_twin (a1) (a2) (s : State) : (onConn a1 a2 s).twin = s.twin := by rfl
@[simp] theorem onConn_gauge (a1) (a2) (s : State) : (onConn a1 a2 s).gauge = s.gauge := by rfl
@[simp] theorem onConn_power (a1) (a2) (s : State) : (onConn a1 a2 s).power = s.power := by rfl
@[simp] theorem onConn_pace (a1) (a2) (s : State) : (onConn a1 a2 s).pace = s.pace := by rfl
@[simp] theorem onConn_kw (a1) (a2) (s : State) : (onConn a1 a2 s).kw = s.kw := by rfl
@[simp] theorem onConn_media (a1) (a2) (s : State) : (onConn a1 a2 s).media = s.media := by rfl
@[simp] theorem onConn_ice (a1) (a2) (s : State) : (onConn a1 a2 s).ice = s.ice := by rfl
@[simp] theorem onConn_ptp (a1) (a2) (s : State) : (onConn a1 a2 s).ptp = s.ptp := by rfl
@[simp] theorem onConn_net (a1) (a2) (s : State) : (onConn a1 a2 s).net = s.net := by rfl
@[simp] theorem onConn_boot (a1) (a2) (s : State) : (onConn a1 a2 s).boot = s.boot := by rfl
@[simp] theorem onConn_coh (a1) (a2) (s : State) : (onConn a1 a2 s).coh = s.coh := by rfl
@[simp] theorem onConn_mem (a1) (a2) (s : State) : (onConn a1 a2 s).mem = s.mem := by rfl
@[simp] theorem onConn_ward (a1) (a2) (s : State) : (onConn a1 a2 s).ward = s.ward := by rfl
@[simp] theorem onConn_rime (a1) (a2) (s : State) : (onConn a1 a2 s).rime = s.rime := by rfl
@[simp] theorem onConn_sec (a1) (a2) (s : State) : (onConn a1 a2 s).sec = s.sec := by rfl
@[simp] theorem onConn_keys (a1) (a2) (s : State) : (onConn a1 a2 s).keys = s.keys := by rfl
@[simp] theorem takeAdmin_now (a1) (a2) (a3) (a4) (a5) (s : State) : (takeAdmin a1 a2 a3 a4 a5 s).now = s.now := by
  unfold takeAdmin; (repeat' split) <;> simp
@[simp] theorem takeAdmin_pending (a1) (a2) (a3) (a4) (a5) (s : State) : (takeAdmin a1 a2 a3 a4 a5 s).pending = s.pending := by
  unfold takeAdmin; (repeat' split) <;> simp
@[simp] theorem takeAdmin_held (a1) (a2) (a3) (a4) (a5) (s : State) : (takeAdmin a1 a2 a3 a4 a5 s).held = s.held := by
  unfold takeAdmin; (repeat' split) <;> simp
@[simp] theorem takeAdmin_free (a1) (a2) (a3) (a4) (a5) (s : State) : (takeAdmin a1 a2 a3 a4 a5 s).free = s.free := by
  unfold takeAdmin; (repeat' split) <;> simp
@[simp] theorem takeAdmin_serial (a1) (a2) (a3) (a4) (a5) (s : State) : (takeAdmin a1 a2 a3 a4 a5 s).serial = s.serial := by
  unfold takeAdmin; (repeat' split) <;> simp
@[simp] theorem takeAdmin_cfg (a1) (a2) (a3) (a4) (a5) (s : State) : (takeAdmin a1 a2 a3 a4 a5 s).cfg = s.cfg := by
  unfold takeAdmin; (repeat' split) <;> simp
@[simp] theorem takeAdmin_mor (a1) (a2) (a3) (a4) (a5) (s : State) : (takeAdmin a1 a2 a3 a4 a5 s).mor = s.mor := by
  unfold takeAdmin; (repeat' split) <;> simp
@[simp] theorem takeAdmin_keeper (a1) (a2) (a3) (a4) (a5) (s : State) : (takeAdmin a1 a2 a3 a4 a5 s).keeper = s.keeper := by
  unfold takeAdmin; (repeat' split) <;> simp
@[simp] theorem takeAdmin_start (a1) (a2) (a3) (a4) (a5) (s : State) : (takeAdmin a1 a2 a3 a4 a5 s).start = s.start := by
  unfold takeAdmin; (repeat' split) <;> simp
@[simp] theorem takeAdmin_gauge (a1) (a2) (a3) (a4) (a5) (s : State) : (takeAdmin a1 a2 a3 a4 a5 s).gauge = s.gauge := by
  unfold takeAdmin; (repeat' split) <;> simp
@[simp] theorem takeAdmin_power (a1) (a2) (a3) (a4) (a5) (s : State) : (takeAdmin a1 a2 a3 a4 a5 s).power = s.power := by
  unfold takeAdmin; (repeat' split) <;> simp
@[simp] theorem takeAdmin_pace (a1) (a2) (a3) (a4) (a5) (s : State) : (takeAdmin a1 a2 a3 a4 a5 s).pace = s.pace := by
  unfold takeAdmin; (repeat' split) <;> simp
@[simp] theorem takeAdmin_kw (a1) (a2) (a3) (a4) (a5) (s : State) : (takeAdmin a1 a2 a3 a4 a5 s).kw = s.kw := by
  unfold takeAdmin; (repeat' split) <;> simp
@[simp] theorem takeAdmin_media (a1) (a2) (a3) (a4) (a5) (s : State) : (takeAdmin a1 a2 a3 a4 a5 s).media = s.media := by
  unfold takeAdmin; (repeat' split) <;> simp
@[simp] theorem takeAdmin_ice (a1) (a2) (a3) (a4) (a5) (s : State) : (takeAdmin a1 a2 a3 a4 a5 s).ice = s.ice := by
  unfold takeAdmin; (repeat' split) <;> simp
@[simp] theorem takeAdmin_ptp (a1) (a2) (a3) (a4) (a5) (s : State) : (takeAdmin a1 a2 a3 a4 a5 s).ptp = s.ptp := by
  unfold takeAdmin; (repeat' split) <;> simp
@[simp] theorem takeAdmin_net (a1) (a2) (a3) (a4) (a5) (s : State) : (takeAdmin a1 a2 a3 a4 a5 s).net = s.net := by
  unfold takeAdmin; (repeat' split) <;> simp
@[simp] theorem takeAdmin_boot (a1) (a2) (a3) (a4) (a5) (s : State) : (takeAdmin a1 a2 a3 a4 a5 s).boot = s.boot := by
  unfold takeAdmin; (repeat' split) <;> simp
@[simp] theorem takeAdmin_coh (a1) (a2) (a3) (a4) (a5) (s : State) : (takeAdmin a1 a2 a3 a4 a5 s).coh = s.coh := by
  unfold takeAdmin; (repeat' split) <;> simp
@[simp] theorem takeAdmin_mem (a1) (a2) (a3) (a4) (a5) (s : State) : (takeAdmin a1 a2 a3 a4 a5 s).mem = s.mem := by
  unfold takeAdmin; (repeat' split) <;> simp
@[simp] theorem takeAdmin_ward (a1) (a2) (a3) (a4) (a5) (s : State) : (takeAdmin a1 a2 a3 a4 a5 s).ward = s.ward := by
  unfold takeAdmin; (repeat' split) <;> simp
@[simp] theorem takeAdmin_rime (a1) (a2) (a3) (a4) (a5) (s : State) : (takeAdmin a1 a2 a3 a4 a5 s).rime = s.rime := by
  unfold takeAdmin; (repeat' split) <;> simp
@[simp] theorem takeAdmin_sec (a1) (a2) (a3) (a4) (a5) (s : State) : (takeAdmin a1 a2 a3 a4 a5 s).sec = s.sec := by
  unfold takeAdmin; (repeat' split) <;> simp
@[simp] theorem takeAdmin_keys (a1) (a2) (a3) (a4) (a5) (s : State) : (takeAdmin a1 a2 a3 a4 a5 s).keys = s.keys := by
  unfold takeAdmin; (repeat' split) <;> simp
@[simp] theorem sequencingFailure_now (a1) (a2) (s : State) : (sequencingFailure a1 a2 s).now = s.now := by rfl
@[simp] theorem sequencingFailure_pending (a1) (a2) (s : State) : (sequencingFailure a1 a2 s).pending = s.pending := by rfl
@[simp] theorem sequencingFailure_out (a1) (a2) (s : State) : (sequencingFailure a1 a2 s).out = s.out := by rfl
@[simp] theorem sequencingFailure_held (a1) (a2) (s : State) : (sequencingFailure a1 a2 s).held = s.held := by rfl
@[simp] theorem sequencingFailure_free (a1) (a2) (s : State) : (sequencingFailure a1 a2 s).free = s.free := by rfl
@[simp] theorem sequencingFailure_serial (a1) (a2) (s : State) : (sequencingFailure a1 a2 s).serial = s.serial := by rfl
@[simp] theorem sequencingFailure_cfg (a1) (a2) (s : State) : (sequencingFailure a1 a2 s).cfg = s.cfg := by rfl
@[simp] theorem sequencingFailure_start (a1) (a2) (s : State) : (sequencingFailure a1 a2 s).start = s.start := by rfl
@[simp] theorem sequencingFailure_twin (a1) (a2) (s : State) : (sequencingFailure a1 a2 s).twin = s.twin := by rfl
@[simp] theorem sequencingFailure_gauge (a1) (a2) (s : State) : (sequencingFailure a1 a2 s).gauge = s.gauge := by rfl
@[simp] theorem sequencingFailure_power (a1) (a2) (s : State) : (sequencingFailure a1 a2 s).power = s.power := by rfl
@[simp] theorem sequencingFailure_pace (a1) (a2) (s : State) : (sequencingFailure a1 a2 s).pace = s.pace := by rfl
@[simp] theorem sequencingFailure_kw (a1) (a2) (s : State) : (sequencingFailure a1 a2 s).kw = s.kw := by rfl
@[simp] theorem sequencingFailure_media (a1) (a2) (s : State) : (sequencingFailure a1 a2 s).media = s.media := by rfl
@[simp] theorem sequencingFailure_ice (a1) (a2) (s : State) : (sequencingFailure a1 a2 s).ice = s.ice := by rfl
@[simp] theorem sequencingFailure_host (a1) (a2) (s : State) : (sequencingFailure a1 a2 s).host = s.host := by rfl
@[simp] theorem sequencingFailure_ptp (a1) (a2) (s : State) : (sequencingFailure a1 a2 s).ptp = s.ptp := by rfl
@[simp] theorem sequencingFailure_net (a1) (a2) (s : State) : (sequencingFailure a1 a2 s).net = s.net := by rfl
@[simp] theorem sequencingFailure_boot (a1) (a2) (s : State) : (sequencingFailure a1 a2 s).boot = s.boot := by rfl
@[simp] theorem sequencingFailure_coh (a1) (a2) (s : State) : (sequencingFailure a1 a2 s).coh = s.coh := by rfl
@[simp] theorem sequencingFailure_mem (a1) (a2) (s : State) : (sequencingFailure a1 a2 s).mem = s.mem := by rfl
@[simp] theorem sequencingFailure_ward (a1) (a2) (s : State) : (sequencingFailure a1 a2 s).ward = s.ward := by rfl
@[simp] theorem sequencingFailure_rime (a1) (a2) (s : State) : (sequencingFailure a1 a2 s).rime = s.rime := by rfl
@[simp] theorem sequencingFailure_sec (a1) (a2) (s : State) : (sequencingFailure a1 a2 s).sec = s.sec := by rfl
@[simp] theorem sequencingFailure_keys (a1) (a2) (s : State) : (sequencingFailure a1 a2 s).keys = s.keys := by rfl
@[simp] theorem noteClocks_now (a1) (a2) (s : State) : (noteClocks a1 a2 s).now = s.now := by rfl
@[simp] theorem noteClocks_pending (a1) (a2) (s : State) : (noteClocks a1 a2 s).pending = s.pending := by rfl
@[simp] theorem noteClocks_out (a1) (a2) (s : State) : (noteClocks a1 a2 s).out = s.out := by rfl
@[simp] theorem noteClocks_held (a1) (a2) (s : State) : (noteClocks a1 a2 s).held = s.held := by rfl
@[simp] theorem noteClocks_free (a1) (a2) (s : State) : (noteClocks a1 a2 s).free = s.free := by rfl
@[simp] theorem noteClocks_serial (a1) (a2) (s : State) : (noteClocks a1 a2 s).serial = s.serial := by rfl
@[simp] theorem noteClocks_cfg (a1) (a2) (s : State) : (noteClocks a1 a2 s).cfg = s.cfg := by rfl
@[simp] theorem noteClocks_mor (a1) (a2) (s : State) : (noteClocks a1 a2 s).mor = s.mor := by rfl
@[simp] theorem noteClocks_keeper (a1) (a2) (s : State) : (noteClocks a1 a2 s).keeper = s.keeper := by rfl
@[simp] theorem noteClocks_start (a1) (a2) (s : State) : (noteClocks a1 a2 s).start = s.start := by rfl
@[simp] theorem noteClocks_twin (a1) (a2) (s : State) : (noteClocks a1 a2 s).twin = s.twin := by rfl
@[simp] theorem noteClocks_gauge (a1) (a2) (s : State) : (noteClocks a1 a2 s).gauge = s.gauge := by rfl
@[simp] theorem noteClocks_power (a1) (a2) (s : State) : (noteClocks a1 a2 s).power = s.power := by rfl
@[simp] theorem noteClocks_kw (a1) (a2) (s : State) : (noteClocks a1 a2 s).kw = s.kw := by rfl
@[simp] theorem noteClocks_media (a1) (a2) (s : State) : (noteClocks a1 a2 s).media = s.media := by rfl
@[simp] theorem noteClocks_ice (a1) (a2) (s : State) : (noteClocks a1 a2 s).ice = s.ice := by rfl
@[simp] theorem noteClocks_host (a1) (a2) (s : State) : (noteClocks a1 a2 s).host = s.host := by rfl
@[simp] theorem noteClocks_ptp (a1) (a2) (s : State) : (noteClocks a1 a2 s).ptp = s.ptp := by rfl
@[simp] theorem noteClocks_net (a1) (a2) (s : State) : (noteClocks a1 a2 s).net = s.net := by rfl
@[simp] theorem noteClocks_boot (a1) (a2) (s : State) : (noteClocks a1 a2 s).boot = s.boot := by rfl
@[simp] theorem noteClocks_coh (a1) (a2) (s : State) : (noteClocks a1 a2 s).coh = s.coh := by rfl
@[simp] theorem noteClocks_mem (a1) (a2) (s : State) : (noteClocks a1 a2 s).mem = s.mem := by rfl
@[simp] theorem noteClocks_ward (a1) (a2) (s : State) : (noteClocks a1 a2 s).ward = s.ward := by rfl
@[simp] theorem noteClocks_rime (a1) (a2) (s : State) : (noteClocks a1 a2 s).rime = s.rime := by rfl
@[simp] theorem noteClocks_sec (a1) (a2) (s : State) : (noteClocks a1 a2 s).sec = s.sec := by rfl
@[simp] theorem noteClocks_keys (a1) (a2) (s : State) : (noteClocks a1 a2 s).keys = s.keys := by rfl

/-- A grain that does not decode is not opened. -/
@[simp] theorem openGrain_false (r : GrainRead) (s : State) : openGrain r false s = s := by
  unfold openGrain; split <;> rfl

end Sys2Proof.Machine
end

