-- ==== Sys2Proof/Laws/Coherence.lean ====
section
/-! SUPPORT. What the coherence operations do to the directory. -/

namespace Sys2Proof.Machine

/-- No directory entry names both an owner and a sharer. -/
def SoleOwners (k : Coherence) : Prop := ∀ d ∈ k.dir, d.owner.isSome = true → d.sharers = []

/-- What a replacement leaves in a list: the new value and old ones. -/
theorem mem_putIf {α : Type} {p : α → Bool} {x y : α} {l : List α} (h : y ∈ putIf p x l) : y = x ∨ y ∈ l := by
  induction l with
  | nil => simpa [putIf] using h
  | cons z l ih =>
    unfold putIf at h
    split at h
    · simp at h ⊢; tauto
    · simp at h ⊢; rcases h with h | h
      · exact .inr (.inl h)
      · rcases ih h with h | h
        · exact .inl h
        · exact .inr (.inr h)

/-- The value put in is the one found. -/
@[simp] theorem find_putIf_same {α : Type} (p : α → Bool) (v : α) (l : List α) (h : p v = true) : (putIf p v l).find? p = some v := by
  induction l with
  | nil => simp [putIf, h]
  | cons x r ih =>
    unfold putIf
    split
    · simp [h]
    · rename_i hx; simp [hx, ih]

/-- A coherence message only goes out: it is on no port of the network unit and on no flash pin. -/
theorem sendCoh_eq (kind : String) (r c l : Nat) (ws : List (Word × Bool)) (s : State) :
    sendCoh kind r c l ws s = { s with out := s.out ++ [.coh kind r c l ws] } := rfl

@[simp] theorem sendCoh_coh (kind : String) (r c l : Nat) (ws : List (Word × Bool)) (s : State) : (sendCoh kind r c l ws s).coh = s.coh := rfl

@[simp] theorem onCoh_coh (f : Coherence → Coherence) (s : State) : (onCoh f s).coh = f s.coh := rfl

@[simp] theorem sendInvs_coh (r l : Nat) (os : List Nat) (s : State) :
    (os.foldl (fun s o => sendCoh "Inv" r o l [] s) s).coh = s.coh := by
  induction os generalizing s with
  | nil => rfl
  | cons o os ih => simp [ih]

@[simp] theorem writeLine_dir (l : Nat) (ws : List (Word × Bool)) (s : State) : (writeLine l ws s).coh.dir = s.coh.dir := rfl

/-- Lines at the clusters are no part of the directory. -/
@[simp] theorem putLine_dir (x : CLine) (k : Coherence) : (putLine x k).dir = k.dir := rfl
@[simp] theorem dropLine_dir (c : Coh) (k : Coherence) : (dropLine c k).dir = k.dir := rfl
@[simp] theorem evictLine_dir (c : Coh) (k : Coherence) : (evictLine c k).dir = k.dir := by unfold evictLine; split <;> rfl

/-- A line that is in the eviction buffer stays in it. -/
theorem evictingAt_evictLine (c : Coh) (k : Coherence) (h : evictingAt k c = true) : evictingAt (evictLine c k) c = true := by
  unfold evictingAt at h
  split at h
  · rename_i x hx
    have hk := List.find?_some hx
    have e : clusterLine (evictLine c k) c = some { x with state := .i, evicting := true, l1 := [] } := by
      unfold evictLine; rw [hx]
      simp only [putLine, clusterLine]
      have hk' : (x.cluster == c.cluster && x.line == c.line) = true := hk
      simp only [Bool.and_eq_true, beq_iff_eq] at hk'
      rw [show (fun y : CLine => y.cluster == x.cluster && y.line == x.line) = (fun y => y.cluster == c.cluster && y.line == c.line) by
        rw [hk'.1, hk'.2]]
      exact find_putIf_same _ _ _ (by simp [hk'])
    simp [evictingAt, e]
  · cases h

theorem dirOf_dir {k k' : Coherence} (h : k.dir = k'.dir) (l : Nat) : dirOf k l = dirOf k' l := by unfold dirOf; rw [h]

/-- A line's entry in a transaction is found as it was put. -/
theorem dirOf_setDir_txn (d : DirLine) (t : CTxn) (k : Coherence) (h : d.txn = some t) : dirOf (setDir d k) d.line = d := by
  simp [dirOf, setDir, h]

/-- The entry of a line is that line's. -/
theorem dirOf_line (k : Coherence) (l : Nat) : (dirOf k l).line = l := by
  unfold dirOf
  cases e : k.dir.find? (fun d => d.line == l) with
  | none => rfl
  | some d => have := List.find?_some e; simpa using this

/-- A transient line wakes nothing while no request is held at a port. -/
theorem wake_transient (l : Nat) (s : State) (h : (dirOf s.coh l).txn.isSome = true) (hp : s.coh.ports = []) : wake l s = s := by
  simp [wake, wakeLine, h, hp]

/-- A message in service does its work at the region that owns its line, and what waited for the line goes on. -/
theorem coherent_next {c : Coh} {h : Nat} {s : State} (f : Nat → State → State) (h1 : inService s c = true) (h2 : homeOf s c.line = some h) :
    coherent c f s = .next (wake c.line (f h s)) := by simp [coherent, onlyIf, h1, homeNo, h2]

/-- What `atHome` says. -/
theorem atHome_iff {h : Nat} {c : Coh} {s : State} (hh : atHome h c s = true) : inService s c = true ∧ homeOf s c.line = some h ∧
    uncachedAt s h c.line c.cluster = false ∧ (s.coh.ports.any fun p => p.2.cluster == c.cluster) = false ∧ isCluster c.cluster = true := by
  simp only [atHome, Bool.and_eq_true, Bool.not_eq_true', beq_iff_eq] at hh
  have h3 := hh.1.2
  simp only [uncachedAt, Bool.or_eq_false_iff, Bool.not_eq_false'] at h3
  exact ⟨hh.1.1.1, hh.1.1.2, hh.1.2, hh.2, h3.1.1⟩

/-- A request that keeps a copy is served where nothing waits for the line. -/
theorem request_served {h l k c n x : Nat} {w : List (Word × Bool)} {s : State} (h1 : uncachedAt s h l c = false)
    (h2 : (s.coh.ports.any fun p => p.2.cluster == c) = false) (h3 : mustQueue s.coh l = false) (h4 : k < 6) :
    request h l ⟨k, c, n, x, w⟩ s = serveReq h l ⟨k, c, n, x, w⟩ s := by
  have e : asSeen s h l ⟨k, c, n, x, w⟩ = ⟨k, c, n, x, w⟩ := by simp [asSeen, h1]
  unfold request
  rw [e]
  dsimp only
  rw [if_neg (by rw [h2]; decide)]
  unfold takeReq
  rw [if_neg (by dsimp only; omega), if_neg (by dsimp only; omega), h3]
  rfl

/-- It takes a place in the room, or stays at its port, where something does. -/
theorem request_queued {h l k c n x : Nat} {w : List (Word × Bool)} {s : State} (h1 : uncachedAt s h l c = false)
    (h2 : (s.coh.ports.any fun p => p.2.cluster == c) = false) (h3 : mustQueue s.coh l = true) (h4 : k < 6) :
    request h l ⟨k, c, n, x, w⟩ s = { s with coh := if roomUsed s.coh h < 256
      then { s.coh with room := s.coh.room ++ [(h, l, ⟨k, c, n, x, w⟩)] } else { s.coh with ports := s.coh.ports ++ [(l, ⟨k, c, n, x, w⟩)] } } := by
  have e : asSeen s h l ⟨k, c, n, x, w⟩ = ⟨k, c, n, x, w⟩ := by simp [asSeen, h1]
  unfold request
  rw [e]
  dsimp only
  rw [if_neg (by rw [h2]; decide)]
  unfold takeReq
  rw [if_neg (by dsimp only; omega), if_neg (by dsimp only; omega), h3]
  by_cases hr : roomUsed s.coh h < 256 <;> simp [hr, onCoh]

/-- A Put is taken at once, by its data or without. -/
theorem request_put {h l k c n x : Nat} {w : List (Word × Bool)} {s : State} (h1 : uncachedAt s h l c = false)
    (h2 : (s.coh.ports.any fun p => p.2.cluster == c) = false) (h4 : k = 6 ∨ k = 7) :
    request h l ⟨k, c, n, x, w⟩ s = putArrives h l c (if k = 6 then some w else none) s := by
  have e : asSeen s h l ⟨k, c, n, x, w⟩ = ⟨k, c, n, x, w⟩ := by simp [asSeen, h1]
  unfold request
  rw [e]
  dsimp only
  rw [if_neg (by rw [h2]; decide)]
  rcases h4 with rfl | rfl <;> simp [takeReq]

/-- An access without a copy is served as one: a write for a PutM, else a read. -/
theorem request_uncached {h l k c n x : Nat} {w : List (Word × Bool)} {s : State} (h1 : uncachedAt s h l c = true)
    (h2 : (s.coh.ports.any fun p => p.2.cluster == c) = false) (h3 : mustQueue s.coh l = false) (h4 : k < 7) :
    request h l ⟨k, c, n, x, w⟩ s = serveReq h l ⟨if k = 6 then 5 else 4, c, n, x, w⟩ s := by
  have e : asSeen s h l ⟨k, c, n, x, w⟩ = ⟨if k = 6 then 5 else 4, c, n, x, w⟩ := by
    have : ¬ k = 7 := by omega
    simp [asSeen, h1, this]
  unfold request
  rw [e]
  dsimp only
  rw [if_neg (by rw [h2]; decide)]
  unfold takeReq
  rw [if_neg (by dsimp only; split <;> decide), if_neg (by dsimp only; split <;> decide), h3]
  rfl

theorem soleOwners_dir {k k' : Coherence} (h : k'.dir = k.dir) (hk : SoleOwners k) : SoleOwners k' := by
  unfold SoleOwners; rw [h]; exact hk

theorem soleOwners_dirOf {k : Coherence} (h : SoleOwners k) (l : Nat) (ho : (dirOf k l).owner.isSome = true) : (dirOf k l).sharers = [] := by
  unfold dirOf at *
  cases hf : k.dir.find? (fun d => d.line == l) with
  | none => rfl
  | some d => simp [hf] at ho ⊢; exact h d (List.mem_of_find?_eq_some hf) ho

theorem soleOwners_setDir {k : Coherence} (h : SoleOwners k) {d : DirLine} (hd : d.owner.isSome = true → d.sharers = []) : SoleOwners (setDir d k) := by
  unfold setDir
  split
  · intro x hx; simp at hx; exact h x hx.1
  · intro x hx
    rcases mem_putIf hx with rfl | hx
    · exact hd
    · exact h x hx

/-- An entry that keeps owner and sharers of the line, whatever its region and its transaction. -/
theorem soleOwners_setTxn {k k' : Coherence} (h : SoleOwners k) (h' : SoleOwners k') (r l : Nat) (t : Option CTxn) :
    SoleOwners (setDir { dirOf k l with region := r, txn := t } k') := soleOwners_setDir h' (soleOwners_dirOf h l)

/-- An entry that a cluster has left. -/
theorem soleOwners_left {k k' : Coherence} (h : SoleOwners k) (h' : SoleOwners k') (l c : Nat) (t : Option CTxn) :
    SoleOwners (setDir { dirOf k l with
      owner := if (dirOf k l).owner = some c then none else (dirOf k l).owner
      sharers := (dirOf k l).sharers.filter (· != c), txn := t } k') := by
  refine soleOwners_setDir h' ?_
  intro ho
  simp only at ho ⊢
  split at ho
  · simp at ho
  · rw [soleOwners_dirOf h l ho]; rfl

theorem soleOwners_uncached {s : State} (h : SoleOwners s.coh) (r l : Nat) (q : CReq) : SoleOwners (completeUncached r l q s).coh := by
  unfold completeUncached; split <;> exact h

theorem soleOwners_serveReq {s : State} (h : SoleOwners s.coh) (r l : Nat) (q : CReq) : SoleOwners (serveReq r l q s).coh := by
  unfold serveReq
  dsimp only
  split
  · split
    · exact h
    · exact soleOwners_setTxn h h r l _
  · split
    · exact soleOwners_uncached h r l q
    · split
      · split
        · exact soleOwners_uncached h r l q
        · exact soleOwners_setTxn h h r l _
      · simp only [sendInvs_coh, onCoh_coh]; exact soleOwners_setTxn h h r l _

theorem soleOwners_answered {s : State} (h : SoleOwners s.coh) (r l c : Nat) (t : CTxn) (ws : Option (List (Word × Bool))) :
    SoleOwners (answered r l c t ws s).coh := by
  have key : ∀ (x : Option CTxn) (k : Coherence), SoleOwners k → SoleOwners (setDir { dirOf s.coh l with
      owner := if (dirOf s.coh l).owner = some c then none else (dirOf s.coh l).owner
      sharers := (dirOf s.coh l).sharers.filter (· != c), txn := x } k) := fun x k hk =>
    soleOwners_left h hk l c x
  have s1 := key (some ({ t with waits := t.waits.filter (· != c), crossed := t.crossed.filter (· != c), put := t.put.filter (fun p => p.1 != c) } : CTxn)) _ h
  unfold answered
  cases ws with
  | none =>
    dsimp only
    split
    · exact s1
    · split
      · split
        · exact key _ _ s1
        · exact soleOwners_uncached (key _ _ s1) _ _ _
      · exact key _ _ s1
  | some w =>
    dsimp only
    split
    · split <;> exact s1
    · split
      · split
        · exact key _ _ (by split <;> exact s1)
        · exact soleOwners_uncached (key _ _ (by split <;> exact s1)) _ _ _
      · exact key _ _ (by split <;> exact s1)

theorem soleOwners_finishTxn {s : State} (h : SoleOwners s.coh) (l : Nat) : SoleOwners (finishTxn l s).coh := by
  unfold finishTxn
  dsimp only
  split
  · split
    · have e : ∀ (p : Prop) [Decidable p] (x y : DirLine), x.owner = none → y.sharers = [] →
          (if p then x else y).owner.isSome = true → (if p then x else y).sharers = [] := by
        intro p _ x y hx hy; split <;> simp [hx, hy]
      exact soleOwners_setDir h (e _ _ _ rfl rfl)
    · exact h
  · exact h

theorem soleOwners_putArrives {s : State} (h : SoleOwners s.coh) (r l c : Nat) (ws : Option (List (Word × Bool))) :
    SoleOwners (putArrives r l c ws s).coh := by
  unfold putArrives
  have h0 : SoleOwners (onCoh (evictLine ⟨c, l⟩) s).coh := soleOwners_dir (evictLine_dir _ _) h
  generalize onCoh (evictLine ⟨c, l⟩) s = t at h0 ⊢
  dsimp only
  split
  · split
    · split
      · exact soleOwners_answered h0 _ _ _ _ _
      · exact soleOwners_setTxn h0 h0 (dirOf t.coh l).region l _
    · exact h0
  · refine soleOwners_left h0 ?_ l c (dirOf t.coh l).txn
    (repeat' split) <;> exact h0

theorem soleOwners_takeReq {s t : State} (h : SoleOwners s.coh) (r l : Nat) (q : CReq) (ht : takeReq r l q s = some t) : SoleOwners t.coh := by
  unfold takeReq at ht
  split at ht
  · cases ht; exact soleOwners_putArrives h _ _ _ _
  · split at ht
    · cases ht; exact soleOwners_putArrives h _ _ _ _
    · split at ht
      · cases ht; exact soleOwners_serveReq h _ _ _
      · split at ht
        · cases ht; exact h
        · cases ht

theorem soleOwners_wakeLine (n l : Nat) {s : State} (h : SoleOwners s.coh) : SoleOwners (wakeLine n l s).coh := by
  induction n generalizing s with
  | zero => exact h
  | succ n ih =>
    unfold wakeLine
    split
    · exact h
    · split
      · exact ih (soleOwners_serveReq (by exact h) _ _ _)
      · exact h

theorem soleOwners_takeHead {s t : State} (h : SoleOwners s.coh) (ps : List (Nat × CReq)) (ht : takeHead s ps = some t) : SoleOwners t.coh := by
  unfold takeHead at ht
  obtain ⟨p, -, hp⟩ := List.exists_of_findSome?_eq_some ht
  split at hp
  · simp only [Option.map_eq_some_iff] at hp
    obtain ⟨u, hu, rfl⟩ := hp
    exact soleOwners_wakeLine _ _ (soleOwners_takeReq (by exact h) _ _ _ hu)
  · cases hp

theorem soleOwners_drainPorts (n : Nat) {s : State} (h : SoleOwners s.coh) : SoleOwners (drainPorts n s).coh := by
  induction n generalizing s with
  | zero => exact h
  | succ n ih =>
    unfold drainPorts
    split
    · rename_i t ht; exact ih (soleOwners_takeHead h _ ht)
    · exact h

theorem soleOwners_wake {s : State} (h : SoleOwners s.coh) (l : Nat) : SoleOwners (wake l s).coh := by
  unfold wake
  dsimp only
  split
  · exact soleOwners_wakeLine _ _ h
  · exact soleOwners_drainPorts _ (soleOwners_wakeLine _ _ h)

theorem soleOwners_request {s : State} (h : SoleOwners s.coh) (r l : Nat) (q : CReq) : SoleOwners (request r l q s).coh := by
  unfold request
  dsimp only
  split
  · exact h
  · split
    · rename_i t ht; exact soleOwners_takeReq h _ _ _ ht
    · exact h

/-- A message keeps what its own work and the waking of its line keep. -/
theorem soleOwners_coherent {c : Coh} {f : Nat → State → State} {s t : State} (h : SoleOwners s.coh)
    (hf : ∀ n, SoleOwners (f n s).coh) (ht : coherent c f s = .next t) : SoleOwners t.coh := by
  unfold coherent onlyIf at ht
  rw [Host.Outcome.next.injEq] at ht
  subst ht
  split
  · exact soleOwners_wake (hf _) _
  · exact h

theorem soleOwners_dataAtDir {s : State} (h : SoleOwners s.coh) (n : Nat) (c : Coh) (t : CTxn) (ws : List (Word × Bool)) :
    SoleOwners (dataAtDir n c t ws s).coh := by
  unfold dataAtDir
  split
  · exact h
  · split
    · dsimp only
      split
      · exact soleOwners_finishTxn (soleOwners_setDir (by exact h) (by simp)) _
      · exact soleOwners_setDir (by exact h) (by simp)
    · exact soleOwners_answered h _ _ _ _ _

theorem soleOwners_dataAtRequester {s : State} (h : SoleOwners s.coh) (c : Coh) (t : CTxn) (ws : List (Word × Bool)) (excl : Bool) :
    SoleOwners (dataAtRequester c t ws excl s).coh := by
  unfold dataAtRequester
  refine soleOwners_finishTxn (soleOwners_setDir (by exact h) ?_) _
  split
  · exact soleOwners_dirOf h _
  · simp

end Sys2Proof.Machine
end

