-- ==== Sys2Proof/Laws/Data.lean ====
section
/-! SUPPORT. The addressed stores: reading after a write, and that every operation keeps the canonical form. Byte order. -/

namespace Sys2Proof.Machine

variable {α : Type}

/-- The canonical form in the words of the library: keys strictly rise. -/
theorem aWf_iff (l : List (Nat × α)) : aWf l = true ↔ l.Pairwise (fun a b => a.1 < b.1) := by
  induction l with
  | nil => simp [aWf]
  | cons a l ih =>
    cases l with
    | nil => simp [aWf]
    | cons b l =>
      simp only [aWf, Bool.and_eq_true, decide_eq_true_eq, ih, List.pairwise_cons, List.mem_cons, forall_eq_or_imp]
      constructor
      · rintro ⟨h1, h2, h3⟩
        exact ⟨⟨h1, fun x hx => Nat.lt_trans h1 (h2 x hx)⟩, h2, h3⟩
      · rintro ⟨⟨h1, -⟩, h2, h3⟩
        exact ⟨h1, h2, h3⟩

/-- The entries after a write: the one written, and old ones. -/
theorem mem_aSet {k : Nat} {v : α} {x : Nat × α} {l : List (Nat × α)} (h : x ∈ aSet k v l) : x = (k, v) ∨ x ∈ l := by
  induction l with
  | nil => simpa [aSet] using h
  | cons a l ih =>
    simp only [aSet] at h
    split at h
    · simpa using h
    · split at h
      · simp at h ⊢; tauto
      · simp only [List.mem_cons] at h ⊢
        rcases h with h | h
        · exact .inr (.inl h)
        · rcases ih h with h | h
          · exact .inl h
          · exact .inr (.inr h)

/-- A write keeps the canonical form. -/
theorem aWf_aSet (k : Nat) (v : α) (l : List (Nat × α)) (h : aWf l = true) : aWf (aSet k v l) = true := by
  rw [aWf_iff] at h ⊢
  induction l with
  | nil => simp [aSet]
  | cons a l ih =>
    obtain ⟨n, x⟩ := a
    simp only [List.pairwise_cons] at h
    simp only [aSet]
    split
    · rename_i hk
      simp only [List.pairwise_cons, List.mem_cons]
      exact ⟨by rintro y (rfl | hy); exacts [hk, Nat.lt_trans hk (h.1 y hy)], h.1, h.2⟩
    · split
      · rename_i hk; subst hk
        exact List.pairwise_cons.2 ⟨h.1, h.2⟩
      · rename_i h1 h2
        refine List.pairwise_cons.2 ⟨fun y hy => ?_, ih h.2⟩
        rcases mem_aSet hy with rfl | hy
        · simp; omega
        · exact h.1 y hy

/-- A removal keeps the canonical form. -/
theorem aWf_aDel (k : Nat) (l : List (Nat × α)) (h : aWf l = true) : aWf (aDel k l) = true := by
  rw [aWf_iff] at h ⊢; exact h.filter _

/-- Reading what was written. -/
@[simp] theorem aGet_aSet_same (k : Nat) (v : α) (l : List (Nat × α)) : aGet k (aSet k v l) = some v := by
  induction l with
  | nil => simp [aSet, aGet]
  | cons a l ih =>
    obtain ⟨n, x⟩ := a
    simp only [aSet]; split
    · simp [aGet]
    · split
      · simp [aGet]
      · rename_i h; simp [aGet, Ne.symm h, ih]

/-- A write leaves every other key alone. -/
theorem aGet_aSet_other {k j : Nat} (v : α) (l : List (Nat × α)) (h : j ≠ k) : aGet j (aSet k v l) = aGet j l := by
  induction l with
  | nil => simp [aSet, aGet, Ne.symm h]
  | cons a l ih =>
    obtain ⟨n, x⟩ := a
    simp only [aSet]; split
    · simp [aGet, Ne.symm h]
    · split
      · rename_i h2; subst h2; simp [aGet, Ne.symm h]
      · simp [aGet, ih]

/-- A removal leaves every other key alone. -/
theorem aGet_aDel_other {k j : Nat} (l : List (Nat × α)) (h : j ≠ k) : aGet j (aDel k l) = aGet j l := by
  induction l with
  | nil => rfl
  | cons a l ih =>
    obtain ⟨n, x⟩ := a
    unfold aDel at *
    by_cases hn : n = k
    · subst hn; simp [aGet, Ne.symm h]; exact ih
    · simp [hn, aGet]; split <;> [rfl; exact ih]

/-- A removed key reads as absent. -/
@[simp] theorem aGet_aDel_same (k : Nat) (l : List (Nat × α)) : aGet k (aDel k l) = none := by
  induction l with
  | nil => rfl
  | cons a l ih =>
    obtain ⟨n, x⟩ := a
    unfold aDel at *
    by_cases hn : n = k
    · subst hn; simp; exact ih
    · simp [hn, aGet]; exact ih

/-- Members after an insertion. -/
theorem mem_sIns {k y : Nat} {l : List Nat} : y ∈ sIns k l ↔ y = k ∨ y ∈ l := by
  induction l with
  | nil => simp [sIns]
  | cons a l ih =>
    unfold sIns
    split
    · simp
    · split
      · rename_i h; subst h; simp
      · simp [ih]; tauto

theorem contains_sIns (k y : Nat) (l : List Nat) : (sIns k l).contains y = (y == k || l.contains y) := by
  rw [Bool.eq_iff_iff]; simp [mem_sIns]

@[simp] theorem le_length (n v : Nat) : (le n v).length = n := by
  induction n generalizing v with
  | zero => rfl
  | succ n ih => simp [le, ih]

end Sys2Proof.Machine
end

