-- ==== Sys2Proof/Laws/HoldShared.lean ====
section
/-! SUPPORT. What the shared operations, first part, do to HOLD and the flash drivers: the levels stay, or the drivers stay held. -/

namespace Sys2Proof.Machine

/-- The levels HOLD has for the drivers: enabled, HOLD_OUT driven, HOLD_IN high. -/
def kwires (k : Keeper) : Bool × Bool × Bool := (k.drivers, k.holdOut, k.holdIn)
/-- The same of a state. -/
def wires (s : State) : Bool × Bool × Bool := kwires s.keeper
/-- Drivers are enabled only while HOLD_OUT is driven and HOLD_IN is low. -/
def Held (w : Bool × Bool × Bool) : Prop := w.1 = true → w.2.1 = true ∧ w.2.2 = false
/-- A next state has the same levels. -/
def SameWires (s : State) (r : Host.Outcome State Fault Refusal) : Prop := ∀ t, r = .next t → wires t = wires s
/-- A next state keeps the drivers held. -/
def KeepsHeld (s : State) (r : Host.Outcome State Fault Refusal) : Prop := ∀ t, r = .next t → Held (wires s) → Held (wires t)
@[simp] theorem kwires_keeper (s : State) : kwires s.keeper = wires s := rfl
@[simp] theorem wires_mk a1 a2 a3 a4 a5 a6 a7 a8 a9 a10 a11 a12 a13 a14 a15 a16 a17 a18 a19 a20 a21 a22 a23 a24 a25 a26 a27 : wires ⟨a1, a2, a3, a4, a5, a6, a7, a8, a9, a10, a11, a12, a13, a14, a15, a16, a17, a18, a19, a20, a21, a22, a23, a24, a25, a26, a27⟩ = kwires a9 := rfl
@[simp] theorem sameWires_next (s t : State) : SameWires s (.next t) ↔ wires t = wires s := by simp [SameWires]
@[simp] theorem keepsHeld_next (s t : State) : KeepsHeld s (.next t) ↔ (Held (wires s) → Held (wires t)) := by simp [KeepsHeld]
theorem keepsHeld_of_same {s : State} {r : Host.Outcome State Fault Refusal} (h : SameWires s r) : KeepsHeld s r := by
  intro t ht hs; rw [h t ht]; exact hs
@[simp] theorem foldl_wires {α : Type} (l : List α) (g : State → α → State) (s : State) (h : ∀ t x, wires (g t x) = wires t) : wires (l.foldl g s) = wires s := by
  induction l generalizing s with
  | nil => rfl
  | cons x r ih => rw [List.foldl_cons, ih, h]
@[simp] theorem onlyIf_wires (c : Bool) (f : State → State) (s : State) (h : ∀ t, wires (f t) = wires t) : SameWires s (onlyIf c f s) := by
  unfold onlyIf; rw [sameWires_next]; split; exact h s; rfl
@[simp] theorem ite_wires (c : Prop) [Decidable c] (a b : State) : wires (if c then a else b) = if c then wires a else wires b := by split <;> rfl
theorem foldl_driversHeld {α : Type} (l : List α) (g : State → α → State) (s : State) (hs : Held (wires s)) (h : ∀ t x, Held (wires t) → Held (wires (g t x))) : Held (wires (l.foldl g s)) := by
  induction l generalizing s with
  | nil => exact hs
  | cons x r ih => exact ih _ (h _ _ hs)
theorem onlyIf_driversHeld (c : Bool) (f : State → State) (s : State) (h : ∀ t, Held (wires t) → Held (wires (f t))) : KeepsHeld s (onlyIf c f s) := by
  unfold onlyIf; rw [keepsHeld_next]; intro hs; split; exact h s hs; exact hs
theorem held_iff (s : State) : Held (wires s) ↔ s.keeper.drivers = true → s.keeper.holdOut = true ∧ s.keeper.holdIn = false := Iff.rfl

@[simp] theorem flashOuts_wires (a1) (s : State) : wires (flashOuts a1 s) = wires s := by rfl
@[simp] theorem onMac_wires (a1) (a2) (s : State) : wires (onMac a1 a2 s) = wires s := by rfl
@[simp] theorem bump_wires (a1) (a2) (a3) (s : State) : wires (bump a1 a2 a3 s) = wires s := by rfl
@[simp] theorem sendOn_wires (a1) (a2) (a3) (s : State) : wires (sendOn a1 a2 a3 s) = wires s := by
  first | (unfold sendOn; simp [*])
@[simp] theorem txFrame_wires (a1) (a2) (a3) (a4) (s : State) : wires (txFrame a1 a2 a3 a4 s) = wires s := by
  unfold txFrame
  split
  · split <;> exact bump_wires _ _ _ _
  · split
    · exact onMac_wires _ _ _
    · exact sendOn_wires _ _ _ _
@[simp] theorem emitNow_wires (a1) (s : State) : wires (emitNow a1 s) = wires s := by
  unfold emitNow
  split
  · rfl
  · split
    · exact bump_wires _ _ _ _
    · split
      · exact foldl_wires _ _ _ fun t k => txFrame_wires _ _ _ _ _
      · exact sendOn_wires _ _ _ _
      · split
        · split
          · exact onMac_wires _ _ _
          · exact sendOn_wires _ _ _ _
        · rfl
@[simp] theorem drainMac_wires (a1) (s : State) : wires (drainMac a1 s) = wires s := by
  first | (unfold drainMac; (repeat' split) <;> simp [*])
@[simp] theorem drainTx_wires (s : State) : wires (drainTx s) = wires s := by
  first | (unfold drainTx; simp [*])
@[simp] theorem stateOf_wires (s : State) (r : Host.Outcome State Fault Refusal) (h : SameWires s r) : wires (stateOf s r) = wires s := by
  unfold stateOf; split
  · exact h _ rfl
  · rfl
@[simp] theorem sendFrame_wires (a1) (s : State) : wires (sendFrame a1 s) = wires s := by
  first | (unfold sendFrame; (repeat' split) <;> rfl)
@[simp] theorem mirror_wires (a1) (s : State) : wires (mirror a1 s) = wires s := by
  first | (unfold mirror; simp [*])
@[simp] theorem emit_wires (a1) (s : State) : wires (emit a1 s) = wires s := by
  first | (unfold emit; (repeat' split) <;> simp [*])
@[simp] theorem releaseUpTo_wires (a1) (s : State) : wires (releaseUpTo a1 s) = wires s := by
  first | (unfold releaseUpTo; simp [*])
@[simp] theorem releaseAll_wires (s : State) : wires (releaseAll s) = wires s := by
  first | (unfold releaseAll; simp [*])
@[simp] theorem confirmOut_wires (a1) (s : State) : wires (confirmOut a1 s) = wires s := by
  first | (unfold confirmOut; (repeat' split) <;> simp [*])
@[simp] theorem mirrorPlan_wires (a1) (a2) (s : State) : wires (mirrorPlan a1 a2 s) = wires s := by
  first | (unfold mirrorPlan; simp [*])
@[simp] theorem sentOn_wires (a1) (a2) (s : State) : wires (sentOn a1 a2 s) = wires s := by rfl
@[simp] theorem mirrorConn_wires (a1) (s : State) : wires (mirrorConn a1 s) = wires s := by
  first | (unfold mirrorConn; (repeat' split) <;> simp [*])
@[simp] theorem raiseAt_wires (a1) (a2) (a3) (s : State) : wires (raiseAt a1 a2 a3 s) = wires s := by
  first | (unfold raiseAt; simp [*]; (repeat' split) <;> simp [*])
@[simp] theorem raiseAsync_wires (a1) (a2) (s : State) : wires (raiseAsync a1 a2 s) = wires s := by
  first | (unfold raiseAsync; grind [raiseAt_wires, SameWires, onlyIf_wires, foldl_wires, wires, kwires])
@[simp] theorem firstFull_wires (a1) (s : State) : wires (firstFull a1 s) = wires s := by
  first | (unfold firstFull; (repeat' split) <;> rfl)
@[simp] theorem onMor_wires (a1) (s : State) : wires (onMor a1 s) = wires s := by
  first | (unfold onMor; simp [*])
@[simp] theorem recordAs_wires (a1) (a2) (a3) (a4) (s : State) : wires (recordAs a1 a2 a3 a4 s) = wires s := by
  first | (unfold recordAs; simp [*])
@[simp] theorem record_wires (a1) (a2) (a3) (s : State) : wires (record a1 a2 a3 s) = wires s := by
  first | (unfold record; simp [*])
@[simp] theorem recordRule_wires (a1) (a2) (a3) (s : State) : wires (recordRule a1 a2 a3 s) = wires s := by
  first | (unfold recordRule; simp [*])
@[simp] theorem onCtrl_wires (a1) (a2) (s : State) : wires (onCtrl a1 a2 s) = wires s := by
  first | (unfold onCtrl; (repeat' split) <;> rfl)
@[simp] theorem noteError_wires (a1) (a2) (a3) (a4) (s : State) : wires (noteError a1 a2 a3 a4 s) = wires s := by
  first | (unfold noteError; simp [*])
@[simp] theorem complete_wires (a1) (a2) (a3) (a4) (a5) (a6) (a7) (s : State) : wires (complete a1 a2 a3 a4 a5 a6 a7 s) = wires s := by
  first | (unfold complete; (repeat' split) <;> simp [*])
@[simp] theorem done_wires (a1) (a2) (s : State) : wires (done a1 a2 s) = wires s := by
  first | (unfold done; simp [*])
@[simp] theorem useKey_wires (a1) (s : State) : wires (useKey a1 s) = wires s := by rfl
@[simp] theorem dropKeys_wires (a1) (s : State) : wires (dropKeys a1 s) = wires s := by rfl
@[simp] theorem drawMasks_wires (a1) (s : State) : wires (drawMasks a1 s) = wires s := by rfl
@[simp] theorem useGrainKey_wires (a1) (a2) (s : State) : wires (useGrainKey a1 a2 s) = wires s := by rfl
@[simp] theorem milmo_wires (a1) (a2) (a3) (s : State) : wires (milmo a1 a2 a3 s) = wires s := by
  first | (unfold milmo; simp [*])
@[simp] theorem milmoAll_wires (a1) (a2) (a3) (s : State) : wires (milmoAll a1 a2 a3 s) = wires s := by
  first | (unfold milmoAll; simp [*])
@[simp] theorem applyJ_wires (a1) (s : State) : wires (applyJ a1 s) = wires s := by
  first | (unfold applyJ; (repeat' split) <;> rfl)
@[simp] theorem journal_wires (a1) (s : State) : wires (journal a1 s) = wires s := by
  first | (unfold journal; simp [*])
@[simp] theorem sendStatus_wires (s : State) : wires (sendStatus s) = wires s := by
  first | (unfold sendStatus; simp [*])
@[simp] theorem applyGate_driversHeld (s : State) (h : Held (wires s)) : Held (wires (applyGate s)) := by
  intro hd
  have hd' : gateOpen s = true := hd
  simp only [gateOpen, Bool.and_eq_true, Bool.not_eq_true'] at hd'
  exact ⟨hd'.1.1, hd'.1.2⟩
@[simp] theorem noteHold_wires (s : State) (s2 : State) : wires (noteHold s s2) = wires s2 := by
  unfold noteHold; split
  · rfl
  · exact sendStatus_wires _
@[simp] theorem followGate_driversHeld (s : State) (h : Held (wires s)) : Held (wires (followGate s)) := by
  first | (unfold followGate; simp +contextual [*])
@[simp] theorem driveHold_driversHeld (s : State) (h : Held (wires s)) : Held (wires (driveHold s)) := by
  first | (unfold driveHold; grind [sendStatus_wires, applyGate_driversHeld, KeepsHeld, onlyIf_driversHeld, Held, wires, kwires])
@[simp] theorem releaseHold_driversHeld (s : State) (h : Held (wires s)) : Held (wires (releaseHold s)) := by
  first | (unfold releaseHold; grind [sendStatus_wires, KeepsHeld, onlyIf_driversHeld, Held, wires, kwires])
@[simp] theorem setRaised_wires (a1) (a2) (s : State) : wires (setRaised a1 a2 s) = wires s := by
  first | (unfold setRaised; simp [*])
@[simp] theorem abandonPlanned_wires (s : State) : wires (abandonPlanned s) = wires s := by
  first | (unfold abandonPlanned; (repeat' split) <;> simp [*])
@[simp] theorem loseStandby_wires (a1) (s : State) : wires (loseStandby a1 s) = wires s := by
  first | (unfold loseStandby; simp [*])
@[simp] theorem gainStandby_wires (s : State) : wires (gainStandby s) = wires s := by
  first | (unfold gainStandby; simp [*])
@[simp] theorem becomeHealthy_wires (s : State) : wires (becomeHealthy s) = wires s := by
  first | (unfold becomeHealthy; simp [*])
@[simp] theorem loseHealth_wires (s : State) : wires (loseHealth s) = wires s := by
  first | (unfold loseHealth; (repeat' split) <;> rfl)
@[simp] theorem endSession_wires (s : State) : wires (endSession s) = wires s := by
  first | (unfold endSession; simp [*])
@[simp] theorem linkDownNow_wires (a1) (s : State) : wires (linkDownNow a1 s) = wires s := by
  first | (unfold linkDownNow; simp [*])
@[simp] theorem gotFrame_wires (a1) (s : State) : wires (gotFrame a1 s) = wires s := by rfl
@[simp] theorem ackFrames_wires (s : State) : wires (ackFrames s) = wires s := by
  first | (unfold ackFrames; simp [*])
@[simp] theorem criticalMiss_wires (s : State) : wires (criticalMiss s) = wires s := by rfl
@[simp] theorem dueWarm_wires (a1) (s : State) : wires (dueWarm a1 s) = wires s := by rfl
@[simp] theorem onCoh_wires (a1) (s : State) : wires (onCoh a1 s) = wires s := by rfl
@[simp] theorem sendCoh_wires (a1) (a2) (a3) (a4) (a5) (s : State) : wires (sendCoh a1 a2 a3 a4 a5 s) = wires s := by rfl
@[simp] theorem writeLine_wires (a1) (a2) (s : State) : wires (writeLine a1 a2 s) = wires s := by rfl
@[simp] theorem writeWords_wires (a1) (a2) (a3) (s : State) : wires (writeWords a1 a2 a3 s) = wires s := by rfl
@[simp] theorem completeUncached_wires (a1) (a2) (a3) (s : State) : wires (completeUncached a1 a2 a3 s) = wires s := by
  first | (unfold completeUncached; (repeat' split) <;> rfl)
@[simp] theorem sendData_wires (a1) (a2) (a3) (a4) (s : State) : wires (sendData a1 a2 a3 a4 s) = wires s := by rfl
@[simp] theorem serveReq_wires (a1) (a2) (a3) (s : State) : wires (serveReq a1 a2 a3 s) = wires s := by
  unfold serveReq
  extract_lets d others
  split
  · split
    · rfl
    · rw [sendCoh_wires, onCoh_wires]
  · split
    · exact completeUncached_wires _ _ _ _
    · split
      · split
        · exact completeUncached_wires _ _ _ _
        · exact sendData_wires _ _ _ _ _
      · rw [foldl_wires _ _ _ fun t o => sendCoh_wires _ _ _ _ _ _, onCoh_wires]
@[simp] theorem answered_wires (a1) (a2) (a3) (a4) (a5) (s : State) : wires (answered a1 a2 a3 a4 a5 s) = wires s := by
  unfold answered
  extract_lets d t1 was d1 own s1 s2 s3 w
  have h1 : wires s1 = wires s := onCoh_wires _ _
  have h2 : wires s2 = wires s := by
    simp only [s2]; split
    · split
      · exact h1
      · exact (writeLine_wires _ _ _).trans h1
    · exact h1
  have h3 : wires s3 = wires s := (onCoh_wires _ _).trans h2
  split
  · exact h2
  · split
    · split
      · exact h3
      · exact (completeUncached_wires _ _ _ _).trans h3
    · exact (sendCoh_wires _ _ _ _ _ _).trans ((onCoh_wires _ _).trans h2)
@[simp] theorem putArrives_wires (a1) (a2) (a3) (a4) (s : State) : wires (putArrives a1 a2 a3 a4 s) = wires s := by
  unfold putArrives; cases a4 <;> dsimp only <;> (repeat' split) <;> simp [*]
@[simp] theorem finishTxn_wires (a1) (s : State) : wires (finishTxn a1 s) = wires s := by
  first | (unfold finishTxn; simp [*]; (repeat' split) <;> simp [*])
@[simp] theorem takeReq_wires (a1) (a2) (a3) (s : State) : ∀ t, takeReq a1 a2 a3 s = some t → wires t = wires s := by
  first | (unfold takeReq; (repeat' split) <;> simp [*])
@[simp] theorem wakeLine_wires (a1) (a2) (s : State) : wires (wakeLine a1 a2 s) = wires s := by
  induction a1 generalizing s with
  | zero => rfl
  | succ n ih => unfold wakeLine; grind [serveReq_wires, onCoh_wires]
@[simp] theorem takeHead_wires (s : State) (a2) : ∀ t, takeHead s a2 = some t → wires t = wires s := by
  intro t ht
  unfold takeHead at ht
  obtain ⟨p, -, hp⟩ := List.exists_of_findSome?_eq_some ht
  split at hp
  · simp only [Option.map_eq_some_iff] at hp
    obtain ⟨u, hu, rfl⟩ := hp
    rw [wakeLine_wires, takeReq_wires _ _ _ _ _ hu]; rfl
  · cases hp
@[simp] theorem drainPorts_wires (a1) (s : State) : wires (drainPorts a1 s) = wires s := by
  induction a1 generalizing s with
  | zero => rfl
  | succ n ih => unfold drainPorts; grind [takeHead_wires]
@[simp] theorem wake_wires (a1) (s : State) : wires (wake a1 s) = wires s := by
  first | (unfold wake; simp [*])
@[simp] theorem request_wires (a1) (a2) (a3) (s : State) : wires (request a1 a2 a3 s) = wires s := by
  unfold request
  dsimp only
  split
  · exact onCoh_wires _ _
  · split
    · rename_i t ht; exact takeReq_wires _ _ _ _ _ ht
    · exact onCoh_wires _ _
@[simp] theorem rehomeLine_wires (s : State) (a2) : wires (rehomeLine s a2) = wires s := by
  first | (unfold rehomeLine; simp [*]; (repeat' split) <;> simp [*])
@[simp] theorem rehome_wires (s : State) : wires (rehome s) = wires s := by
  first | (unfold rehome; simp [*])
@[simp] theorem leaveLine_wires (a1) (s : State) (a3) : wires (leaveLine a1 s a3) = wires s := by
  first | (unfold leaveLine; simp [*]; (repeat' split) <;> simp [*])
@[simp] theorem dropCluster_wires (a1) (s : State) : wires (dropCluster a1 s) = wires s := by
  first | (unfold dropCluster; simp [*])
@[simp] theorem cornicePut_wires (a1) (s : State) : wires (cornicePut a1 s).2 = wires s := by
  first | (unfold cornicePut; simp [*])
@[simp] theorem corniceFree_wires (a1) (s : State) : wires (corniceFree a1 s) = wires s := by
  first | (unfold corniceFree; simp [*])
@[simp] theorem sealUnit_wires (a1) (a2) (a3) (a4) (s : State) : wires (sealUnit a1 a2 a3 a4 s) = wires s := by rfl
@[simp] theorem sealed_wires (a1) (a2) (a3) (s : State) : wires (sealed a1 a2 a3 s) = wires s := by rfl
@[simp] theorem resealUnits_wires (a1) (s : State) : wires (resealUnits a1 s) = wires s := by rfl
@[simp] theorem setOp_wires (a1) (a2) (s : State) : wires (setOp a1 a2 s) = wires s := by
  first | (unfold setOp; simp [*])
@[simp] theorem issueRead_wires (a1) (a2) (s : State) : wires (issueRead a1 a2 s) = wires s := by
  first | (unfold issueRead; (repeat' split) <;> simp [*])
@[simp] theorem resumeDie_wires (a1) (s : State) : wires (resumeDie a1 s) = wires s := by
  first | (unfold resumeDie; (repeat' split) <;> simp [*])
@[simp] theorem readsBehind_wires (a1) (s : State) : wires (readsBehind a1 s) = wires s := by
  first | (unfold readsBehind; simp [*])
@[simp] theorem issueGranted_wires (a1) (s : State) : wires (issueGranted a1 s) = wires s := by
  first | (unfold issueGranted; (repeat' split) <;> simp [*])
@[simp] theorem grant_wires (a1) (s : State) : wires (grant a1 s) = wires s := by
  first | (unfold grant; simp [*])
@[simp] theorem askTokens_wires (a1) (a2) (a3) (a4) (a5) (a6) (s : State) : wires (askTokens a1 a2 a3 a4 a5 a6 s) = wires s := by
  first | (unfold askTokens; simp [*])
@[simp] theorem returnTokens_wires (a1) (a2) (a3) (s : State) : wires (returnTokens a1 a2 a3 s) = wires s := by
  unfold returnTokens
  dsimp only
  split
  · exact (resumeDie_wires _ _).trans rfl
  · exact (readsBehind_wires _ _).trans rfl
@[simp] theorem openInterval_wires (s : State) : wires (openInterval s) = wires s := by rfl
@[simp] theorem closeInterval_wires (a1) (s : State) : wires (closeInterval a1 s) = wires s := by
  first | (unfold closeInterval; (repeat' split) <;> rfl)
@[simp] theorem endHours_wires (s : State) : wires (endHours s) = wires s := by
  first | (unfold endHours; (repeat' split) <;> rfl)
@[simp] theorem powerDown_driversHeld (a1) (s : State) (h : Held (wires s)) : Held (wires (powerDown a1 s)) := by
  first | (unfold powerDown; grind [endHours_wires, releaseHold_driversHeld, KeepsHeld, onlyIf_driversHeld, Held, wires, kwires])
@[simp] theorem afterPowerFail_driversHeld (a1) (s : State) (h : Held (wires s)) : Held (wires (afterPowerFail a1 s)) := by
  first | (unfold afterPowerFail; (repeat' split) <;> simp +contextual [*])
@[simp] theorem setOwn_wires (a1) (a2) (s : State) : wires (setOwn a1 a2 s) = wires s := by rfl
@[simp] theorem announceOwn_wires (a1) (s : State) : wires (announceOwn a1 s) = wires s := by
  first | (unfold announceOwn; (repeat' split) <;> simp [*])
@[simp] theorem beginServing_wires (s : State) : wires (beginServing s) = wires s := by
  first | (unfold beginServing; simp [*])
@[simp] theorem rankAgain_wires (s : State) : wires (rankAgain s) = wires s := by
  first | (unfold rankAgain; simp [*])
@[simp] theorem reportGauge_wires (s : State) : wires (reportGauge s) = wires s := by
  first | (unfold reportGauge; simp [*])
@[simp] theorem beginTest_wires (s : State) : wires (beginTest s) = wires s := by rfl
@[simp] theorem withdraw_wires (s : State) : wires (withdraw s) = wires s := by
  first | (unfold withdraw; simp [*])
@[simp] theorem testFailed_wires (a1) (a2) (s : State) : wires (testFailed a1 a2 s) = wires s := by
  first | (unfold testFailed; (repeat' split) <;> (try simp [*]) <;> rfl)
@[simp] theorem testDone_wires (a1) (a2) (a3) (s : State) : wires (testDone a1 a2 a3 s) = wires s := by
  first | (unfold testDone; (repeat' split) <;> (try simp [*]) <;> rfl)
@[simp] theorem checkReadOnly_wires (s : State) : wires (checkReadOnly s) = wires s := by
  first | (unfold checkReadOnly; simp [*])
@[simp] theorem checkExcess_wires (s : State) : wires (checkExcess s) = wires s := by
  first | (unfold checkExcess; (repeat' split) <;> rfl)
@[simp] theorem setSb_wires (a1) (s : State) : wires (setSb a1 s) = wires s := by
  first | (unfold setSb; simp [*])
@[simp] theorem addBgAt_wires (a1) (a2) (a3) (a4) (a5) (s : State) : wires (addBgAt a1 a2 a3 a4 a5 s) = wires s := by
  first | (unfold addBgAt; simp [*])
@[simp] theorem addBg_wires (a1) (a2) (a3) (a4) (s : State) : wires (addBg a1 a2 a3 a4 s) = wires s := by
  first | (unfold addBg; simp [*])
@[simp] theorem doneBg_wires (a1) (a2) (a3) (s : State) : wires (doneBg a1 a2 a3 s) = wires s := by rfl
@[simp] theorem checkFree_wires (s : State) : wires (checkFree s) = wires s := by
  first | (unfold checkFree; simp [*])
@[simp] theorem checkSpare_wires (s : State) : wires (checkSpare s) = wires s := by
  first | (unfold checkSpare; simp [*])
@[simp] theorem retireBlock_wires (a1) (a2) (a3) (s : State) : wires (retireBlock a1 a2 a3 s) = wires s := by
  first | (unfold retireBlock; simp [*])
@[simp] theorem reportRow_wires (a1) (a2) (a3) (s : State) : wires (reportRow a1 a2 a3 s) = wires s := by
  first | (unfold reportRow; simp [*]; (repeat' split) <;> simp [*])
@[simp] theorem countRead_wires (a1) (a2) (a3) (s : State) : wires (countRead a1 a2 a3 s) = wires s := by
  first | (unfold countRead; simp [*])
@[simp] theorem startRead_wires (a1) (a2) (a3) (a4) (a5) (s : State) : wires (startRead a1 a2 a3 a4 a5 s) = wires s := by
  first | (unfold startRead; simp [*])
@[simp] theorem startOp_wires (a1) (a2) (s : State) : wires (startOp a1 a2 s) = wires s := by
  first | (unfold startOp; simp [*])
@[simp] theorem issueUnit_wires (a1) (a2) (s : State) : wires (issueUnit a1 a2 s) = wires s := by
  first | (unfold issueUnit; simp [*])
@[simp] theorem issueParity_wires (a1) (a2) (s : State) : wires (issueParity a1 a2 s) = wires s := by
  first | (unfold issueParity; simp [*])
@[simp] theorem issueErase_wires (a1) (a2) (s : State) : wires (issueErase a1 a2 s) = wires s := by
  first | (unfold issueErase; simp [*])
@[simp] theorem endOp_wires (a1) (s : State) : wires (endOp a1 s) = wires s := by
  first | (unfold endOp; simp [*])
@[simp] theorem openIn_wires (a1) (a2) (a3) (a4) (s : State) : wires (openIn a1 a2 a3 a4 s).2 = wires s := by
  first | (unfold openIn; simp [*]; (repeat' split) <;> simp [*])
@[simp] theorem openFrom_wires (a1) (a2) (a3) (a4) (a5) (s : State) : wires (openFrom a1 a2 a3 a4 a5 s).2 = wires s := by
  induction a4 generalizing a5 s with
  | zero => rfl
  | succ n ih => unfold openFrom; grind [openIn_wires]
@[simp] theorem sbFor_wires (a1) (a2) (a3) (a4) (a5) (s : State) : wires (sbFor a1 a2 a3 a4 a5 s).2 = wires s := by
  first | (unfold sbFor; grind [openFrom_wires, checkFree_wires, SameWires, onlyIf_wires, foldl_wires])
@[simp] theorem fillSb_wires (a1) (a2) (s : State) : wires (fillSb a1 a2 s).2 = wires s := by
  first | (unfold fillSb; simp [*])
@[simp] theorem layBytes_wires (a1) (a2) (s : State) : wires (layBytes a1 a2 s).2 = wires s := by
  first | (unfold layBytes; grind [sbFor_wires, fillSb_wires, journal_wires, SameWires, onlyIf_wires, foldl_wires])
@[simp] theorem layItem_wires (a1) (s : State) : wires (layItem a1 s) = wires s := by
  first | (unfold layItem; grind [layBytes_wires, journal_wires, SameWires, onlyIf_wires, foldl_wires])
@[simp] theorem verifyUnit_wires (a1) (a2) (s : State) : wires (verifyUnit a1 a2 s) = wires s := by
  first | (unfold verifyUnit; simp [*])
@[simp] theorem padUnit_wires (a1) (a2) (s : State) : wires (padUnit a1 a2 s) = wires s := by
  first | (unfold padUnit; simp [*])
@[simp] theorem metaWrite_wires (a1) (a2) (s : State) : wires (metaWrite a1 a2 s).2 = wires s := by
  first | (unfold metaWrite; grind [sbFor_wires, fillSb_wires, journal_wires, SameWires, onlyIf_wires, foldl_wires, wires, kwires])
@[simp] theorem dropMeta_wires (a1) (s : State) : wires (dropMeta a1 s) = wires s := by
  first | (unfold dropMeta; simp [*])
@[simp] theorem writeSummary_wires (a1) (s : State) : wires (writeSummary a1 s) = wires s := by
  first | (unfold writeSummary; grind [metaWrite_wires, dropMeta_wires, setSb_wires, SameWires, onlyIf_wires, foldl_wires])
@[simp] theorem emptySb_wires (a1) (s : State) : wires (emptySb a1 s) = wires s := by
  first | (unfold emptySb; simp [*])
@[simp] theorem advanceSb_wires (a1) (s : State) : wires (advanceSb a1 s) = wires s := by
  first | (unfold advanceSb; simp [*]; (repeat' split) <;> simp [*])
@[simp] theorem advanceAll_wires (s : State) : wires (advanceAll s) = wires s := by
  first | (unfold advanceAll; simp [*])
@[simp] theorem deadMeta_wires (a1) (s : State) : wires (deadMeta a1 s) = wires s := by
  first | (unfold deadMeta; simp [*])
@[simp] theorem deadGrains_wires (a1) (s : State) : wires (deadGrains a1 s) = wires s := by
  first | (unfold deadGrains; grind [advanceAll_wires, SameWires, onlyIf_wires, foldl_wires, wires, kwires])
@[simp] theorem reportLevel_wires (a1) (a2) (s : State) : wires (reportLevel a1 a2 s) = wires s := by
  first | (unfold reportLevel; simp [*])
@[simp] theorem locationChange_wires (a1) (s : State) : wires (locationChange a1 s) = wires s := by
  first | (unfold locationChange; simp [*])
@[simp] theorem settleItems_wires (a1) (s : State) : wires (settleItems a1 s) = wires s := by
  first | (unfold settleItems; (repeat' split) <;> simp [*])
@[simp] theorem localFailure_wires (a1) (s : State) : wires (localFailure a1 s) = wires s := by
  first | (unfold localFailure; simp [*])
@[simp] theorem relayItem_wires (a1) (s : State) : wires (relayItem a1 s) = wires s := by
  first | (unfold relayItem; simp [*])
@[simp] theorem startMove_wires (a1) (a2) (a3) (s : State) : wires (startMove a1 a2 a3 s) = wires s := by
  first | (unfold startMove; simp [*])
@[simp] theorem writeMove_wires (a1) (a2) (s : State) : wires (writeMove a1 a2 s) = wires s := by
  first | (unfold writeMove; grind [sbFor_wires, fillSb_wires, SameWires, onlyIf_wires, foldl_wires, wires, kwires])
@[simp] theorem moveDies_wires (a1) (s : State) : wires (moveDies a1 s) = wires s := by
  first | (unfold moveDies; simp [*])
@[simp] theorem reapDying_wires (s : State) : wires (reapDying s) = wires s := by
  first | (unfold reapDying; simp [*])
@[simp] theorem finishMove_wires (a1) (s : State) : wires (finishMove a1 s) = wires s := by
  first | (unfold finishMove; (repeat' split) <;> simp [*])
@[simp] theorem settleMoves_wires (a1) (s : State) : wires (settleMoves a1 s) = wires s := by
  first | (unfold settleMoves; (repeat' split) <;> simp [*])
@[simp] theorem relayUnit_wires (a1) (a2) (a3) (s : State) : wires (relayUnit a1 a2 a3 s) = wires s := by
  first | (unfold relayUnit; grind [relayItem_wires, localFailure_wires, deadGrains_wires, startMove_wires, SameWires, onlyIf_wires, foldl_wires, wires, kwires])
@[simp] theorem finishServe_wires (a1) (s : State) : wires (finishServe a1 s) = wires s := by
  first | (unfold finishServe; (repeat' split) <;> simp [*])
@[simp] theorem dropRead_wires (a1) (s : State) : wires (dropRead a1 s) = wires s := by rfl
@[simp] theorem serveGrain_wires (a1) (a2) (s : State) : wires (serveGrain a1 a2 s) = wires s := by
  first | (unfold serveGrain; (repeat' split) <;> simp [*])
@[simp] theorem moveGrain_wires (a1) (a2) (s : State) : wires (moveGrain a1 a2 s) = wires s := by
  first | (unfold moveGrain; (repeat' split) <;> simp [*])
@[simp] theorem readEnds_wires (a1) (a2) (s : State) : wires (readEnds a1 a2 s) = wires s := by
  first | (unfold readEnds; simp [*])
theorem checkCauses_core (cs : List Nat) (s : State) : wires (let cs := cs
    let t := { s with ice := { s.ice with causes := cs } }
    if cs.isEmpty then (if s.ice.causes.isEmpty then t else { t with ice := { t.ice with causesEnded := some s.now } })
    else if s.ice.own = .placing then announceOwn .closed { t with ice := { t.ice with closedAt := s.now, causesEnded := none } }
    else { t with ice := { t.ice with causesEnded := none } }) = wires s := by
  dsimp only
  split
  · split <;> rfl
  · split
    · rw [announceOwn_wires]; rfl
    · rfl
@[simp] theorem checkCauses_wires (s : State) : wires (checkCauses s) = wires s := by
  exact checkCauses_core (causesNow s) s
@[simp] theorem loseMeta_wires (a1) (a2) (s : State) : wires (loseMeta a1 a2 s) = wires s := by
  first | (unfold loseMeta; simp [*])
@[simp] theorem loseMember_wires (a1) (s : State) (a3) : wires (loseMember a1 s a3) = wires s := by
  first | (unfold loseMember; simp [*]; (repeat' split) <;> simp [*])
@[simp] theorem loseDie_wires (a1) (s : State) : wires (loseDie a1 s) = wires s := by
  first | (unfold loseDie; simp [*])
@[simp] theorem loseChannel_wires (a1) (s : State) : wires (loseChannel a1 s) = wires s := by
  unfold loseChannel
  exact foldl_wires _ _ _ fun t d => by split; exact loseDie_wires _ _; rfl
@[simp] theorem reportGroup_wires (a1) (s : State) : wires (reportGroup a1 s) = wires s := by
  first | (unfold reportGroup; simp [*])
@[simp] theorem leaveGroup_wires (a1) (s : State) : wires (leaveGroup a1 s) = wires s := by
  first | (unfold leaveGroup; simp [*])
@[simp] theorem setGroups_wires (a1) (s : State) : wires (setGroups a1 s) = wires s := by
  first | (unfold setGroups; simp [*])
@[simp] theorem announceNow_wires (s : State) : wires (announceNow s) = wires s := by
  first | (unfold announceNow; (repeat' split) <;> simp [*])
@[simp] theorem takeAddresses_wires (s : State) : wires (takeAddresses s) = wires s := by
  first | (unfold takeAddresses; simp [*])
@[simp] theorem noteNone_wires (s : State) : wires (noteNone s) = wires s := by rfl
@[simp] theorem macDown_wires (a1) (a2) (s : State) : wires (macDown a1 a2 s) = wires s := by
  first | (unfold macDown; simp [*]; (repeat' split) <;> simp [*])
@[simp] theorem retireLane_wires (a1) (s : State) : wires (retireLane a1 s) = wires s := by
  first | (unfold retireLane; simp [*])
@[simp] theorem startPorts_wires (s : State) : wires (startPorts s) = wires s := by rfl
@[simp] theorem portsDown_wires (s : State) : wires (portsDown s) = wires s := by
  first | (unfold portsDown; simp [*])
@[simp] theorem noteSat_wires (s : State) : wires (noteSat s) = wires s := by
  first | (unfold noteSat; simp [*])
@[simp] theorem setSpill_wires (a1) (a2) (s : State) : wires (setSpill a1 a2 s) = wires s := by rfl
@[simp] theorem spillTo_wires (a1) (a2) (s : State) : wires (spillTo a1 a2 s) = wires s := by
  first | (unfold spillTo; simp [*])
@[simp] theorem dropStateChange_wires (s : State) : wires (dropStateChange s).1 = wires s := by
  first | (unfold dropStateChange; (repeat' split) <;> simp [*])
@[simp] theorem moraineFlush_wires (s : State) : wires (moraineFlush s) = wires s := by
  first | (unfold moraineFlush; simp [*])
@[simp] theorem dropTest_wires (s : State) : wires (dropTest s) = wires s := by rfl
@[simp] theorem beginFlush_wires (a1) (a2) (a3) (s : State) : wires (beginFlush a1 a2 a3 s) = wires s := by
  first | (unfold beginFlush; simp [*])
@[simp] theorem noteFlush_wires (a1) (s : State) : wires (noteFlush a1 s) = wires s := by
  first | (unfold noteFlush; simp [*])
@[simp] theorem runSpill_wires (a1) (s : State) : wires (runSpill a1 s).1 = wires s := by
  first | (unfold runSpill; simp [*])
@[simp] theorem markUnsafe_wires (s : State) : wires (markUnsafe s) = wires s := by rfl
@[simp] theorem stopDevice_driversHeld (s : State) (h : Held (wires s)) : Held (wires (stopDevice s)) := by
  first | (unfold stopDevice; grind [endHours_wires, releaseHold_driversHeld, KeepsHeld, onlyIf_driversHeld, Held, wires, kwires])
@[simp] theorem shutDone_driversHeld (s : State) (h : Held (wires s)) : Held (wires (shutDone s)) := by
  first | (unfold shutDone; (repeat' split) <;> simp +contextual [*])
@[simp] theorem endFlush_driversHeld (a1) (a2) (a3) (s : State) (h : Held (wires s)) : Held (wires (endFlush a1 a2 a3 s)) := by
  first | (unfold endFlush; simp +contextual [*]; (repeat' split) <;> simp +contextual [*])
@[simp] theorem park_wires (s : State) : wires (park s) = wires s := by
  first | (unfold park; simp [*])
@[simp] theorem doYield_driversHeld (a1) (a2) (s : State) (h : Held (wires s)) : Held (wires (doYield a1 a2 s)) := by
  unfold doYield
  have k : ∀ (a : State) (w : Twin), wires a = wires s → Held (wires (releaseHold { a with twin := w })) := fun a w e =>
    releaseHold_driversHeld _ (by show Held (wires a); rw [e]; exact h)
  have e : wires (record 0x4020 pathTwin (le 1 a1) (sendFrame (.yield a1 a2 s.now) s)) = wires s := (record_wires _ _ _ _).trans (sendFrame_wires _ _)
  dsimp only
  split
  · rw [record_wires]; exact k _ _ e
  · exact k _ _ e
@[simp] theorem criterionTrue_driversHeld (a1) (a2) (s : State) (h : Held (wires s)) : Held (wires (criterionTrue a1 a2 s)) := by
  first | (unfold criterionTrue; grind [doYield_driversHeld, record_wires, KeepsHeld, onlyIf_driversHeld, Held, wires, kwires])
@[simp] theorem missAndJudge_driversHeld (s : State) (h : Held (wires s)) : Held (wires (missAndJudge s)) := by
  first | (unfold missAndJudge; simp +contextual [*]; (repeat' split) <;> simp +contextual [*])
@[simp] theorem beginPlanned_wires (a1) (a2) (s : State) : wires (beginPlanned a1 a2 s) = wires s := by
  first | (unfold beginPlanned; simp [*])
@[simp] theorem sendHello_wires (s : State) : wires (sendHello s) = wires s := by rfl
@[simp] theorem finishPlanned_driversHeld (a1) (s : State) (h : Held (wires s)) : Held (wires (finishPlanned a1 s)) := by
  first | (unfold finishPlanned; simp +contextual [*])
@[simp] theorem addSweep_wires (a1) (a2) (s : State) : wires (addSweep a1 a2 s) = wires s := by
  first | (unfold addSweep; simp [*])
@[simp] theorem programFailed_wires (a1) (a2) (a3) (a4) (s : State) : wires (programFailed a1 a2 a3 a4 s) = wires s := by
  first | (unfold programFailed; simp [*])
@[simp] theorem unitDone_wires (a1) (a2) (s : State) : wires (unitDone a1 a2 s) = wires s := by
  first | (unfold unitDone; simp [*])
@[simp] theorem parityDone_wires (a1) (s : State) : wires (parityDone a1 s) = wires s := by
  first | (unfold parityDone; simp [*])
@[simp] theorem grainVerified_wires (a1) (s : State) : wires (grainVerified a1 s) = wires s := by
  first | (unfold grainVerified; simp [*])
@[simp] theorem grainFailed_wires (a1) (s : State) : wires (grainFailed a1 s) = wires s := by
  first | (unfold grainFailed; simp [*]; (repeat' split) <;> simp [*])
@[simp] theorem climb_wires (a1) (a2) (s : State) : wires (climb a1 a2 s) = wires s := by
  first | (unfold climb; simp [*])
@[simp] theorem noteDecode_wires (a1) (a2) (a3) (a4) (s : State) : wires (noteDecode a1 a2 a3 a4 s) = wires s := by
  first | (unfold noteDecode; simp [*])
@[simp] theorem settleRewrites_wires (s : State) : wires (settleRewrites s) = wires s := by rfl
@[simp] theorem openGrain_wires (a1) (a2) (s : State) : wires (openGrain a1 a2 s) = wires s := by
  first | (unfold openGrain; (repeat' split) <;> rfl)
@[simp] theorem checkSpread_wires (a1) (s : State) : wires (checkSpread a1 s) = wires s := by
  first | (unfold checkSpread; simp [*])
@[simp] theorem rowGone_wires (a1) (a2) (s : State) : wires (rowGone a1 a2 s) = wires s := by
  first | (unfold rowGone; simp [*])
@[simp] theorem replaceSpill_wires (a1) (a2) (s : State) : wires (replaceSpill a1 a2 s) = wires s := by
  first | (unfold replaceSpill; simp [*]; (repeat' split) <;> simp [*])
@[simp] theorem layWaiting_wires (s : State) : wires (layWaiting s) = wires s := by
  first | (unfold layWaiting; grind [layItem_wires, writeMove_wires, SameWires, onlyIf_wires, foldl_wires])
@[simp] theorem verifyItem_wires (a1) (s : State) : wires (verifyItem a1 s) = wires s := by
  first | (unfold verifyItem; simp [*])
@[simp] theorem sweepLost_wires (s : State) (a2) : wires (sweepLost s a2) = wires s := by
  first | (unfold sweepLost; simp [*]; (repeat' split) <;> simp [*])
@[simp] theorem rewriteMeta_wires (a1) (s : State) : wires (rewriteMeta a1 s) = wires s := by
  unfold rewriteMeta
  dsimp only
  split
  · rename_i m t heq; have h := congrArg (fun p => wires p.2) heq; simp only [sbFor_wires, setSb_wires] at h
    split
    · exact h.symm
    · rw [advanceSb_wires]
      split
      · rw [setSb_wires, doneBg_wires, journal_wires]; exact (fillSb_wires _ _ _).trans h.symm
      · rw [journal_wires]; exact (fillSb_wires _ _ _).trans h.symm
  · rename_i t heq; have h := congrArg (fun p => wires p.2) heq; simp only [sbFor_wires, setSb_wires] at h; exact h.symm
@[simp] theorem shedAtHolder_wires (a1) (a2) (a3) (a4) (a5) (s : State) : wires (shedAtHolder a1 a2 a3 a4 a5 s) = wires s := by
  first | (unfold shedAtHolder; simp [*])
@[simp] theorem retireHingeLane_wires (a1) (s : State) : wires (retireHingeLane a1 s) = wires s := by
  first | (unfold retireHingeLane; simp [*])
@[simp] theorem withheld_wires (a1) (s : State) : wires (withheld a1 s) = wires s := by
  first | (unfold withheld; simp [*])
@[simp] theorem sendFlit_wires (a1) (s : State) : wires (sendFlit a1 s) = wires s := by rfl
@[simp] theorem ackedUpTo_wires (a1) (s : State) : wires (ackedUpTo a1 s) = wires s := by
  first | (unfold ackedUpTo; simp [*])
@[simp] theorem giveString_wires (a1) (s : State) : wires (giveString a1 s) = wires s := by
  first | (unfold giveString; simp [*]; (repeat' split) <;> simp [*])
@[simp] theorem nextStrings_wires (a1) (s : State) : wires (nextStrings a1 s) = wires s := by
  induction a1 generalizing s with
  | zero => rfl
  | succ n ih => unfold nextStrings; grind [giveString_wires, wires_mk, kwires_keeper]
@[simp] theorem engineOut_wires (a1) (s : State) : wires (engineOut a1 s) = wires s := by
  first | (unfold engineOut; (repeat' split) <;> simp [*])
@[simp] theorem engineBack_wires (a1) (s : State) : wires (engineBack a1 s) = wires s := by
  first | (unfold engineBack; simp [*])
@[simp] theorem syndromeOf_wires (a1) (s : State) : wires (syndromeOf a1 s).2 = wires s := by
  first | (unfold syndromeOf; (repeat' split) <;> rfl)
@[simp] theorem memEvent_wires (a1) (a2) (a3) (a4) (a5) (a6) (s : State) : wires (memEvent a1 a2 a3 a4 a5 a6 s) = wires s := by
  first | (unfold memEvent; simp [*])
@[simp] theorem putEntry_wires (a1) (s : State) : wires (putEntry a1 s) = wires s := by
  first | (unfold putEntry; (repeat' split) <;> simp [*])
@[simp] theorem restartOn_wires (a1) (s : State) : wires (restartOn a1 s) = wires s := by rfl
@[simp] theorem judgeRegions_driversHeld (s : State) (h : Held (wires s)) : Held (wires (judgeRegions s)) := by
  first | (unfold judgeRegions; (repeat' split) <;> simp +contextual [*])
@[simp] theorem quarantineRegion_driversHeld (a1) (s : State) (h : Held (wires s)) : Held (wires (quarantineRegion a1 s)) := by
  first | (unfold quarantineRegion; (repeat' split) <;> simp +contextual [*])
@[simp] theorem quarantineCluster_driversHeld (a1) (s : State) (h : Held (wires s)) : Held (wires (quarantineCluster a1 s)) := by
  first | (unfold quarantineCluster; simp +contextual [*]; (repeat' split) <;> simp +contextual [*])
@[simp] theorem quarantineCore_wires (a1) (s : State) : wires (quarantineCore a1 s) = wires s := by
  first | (unfold quarantineCore; (repeat' split) <;> rfl)
@[simp] theorem quarantineUnit_wires (a1) (s : State) : wires (quarantineUnit a1 s) = wires s := by
  unfold quarantineUnit
  extract_lets src t i
  have ht : wires t = wires s := rfl
  split
  · exact (loseChannel_wires _ _).trans ht
  · split
    · exact (loseChannel_wires _ _).trans ht
    · exact (resealUnits_wires _ _).trans ht
  · exact (engineOut_wires _ _).trans ht
  · exact ht
@[simp] theorem takeOut_wires (a1) (s : State) : wires (takeOut a1 s) = wires s := by
  first | (unfold takeOut; (repeat' split) <;> simp [*])
@[simp] theorem freeRegion_wires (a1) (s : State) : wires (freeRegion a1 s) = wires s := by
  first | (unfold freeRegion; simp [*])
@[simp] theorem bringBack_wires (a1) (s : State) : wires (bringBack a1 s) = wires s := by
  first | (unfold bringBack; (repeat' split) <;> simp [*])
@[simp] theorem retireBank_driversHeld (a1) (s : State) (h : Held (wires s)) : Held (wires (retireBank a1 s)) := by
  first | (unfold retireBank; (repeat' split) <;> simp +contextual [*])
@[simp] theorem useSpare_wires (a1) (s : State) : wires (useSpare a1 s) = wires s := by
  first | (unfold useSpare; simp [*])
@[simp] theorem retireSite_driversHeld (a1) (s : State) (h : Held (wires s)) : Held (wires (retireSite a1 s)) := by
  first | (unfold retireSite; simp +contextual [*]; (repeat' split) <;> simp +contextual [*])
@[simp] theorem noteLastingRegion_wires (a1) (s : State) : wires (noteLastingRegion a1 s) = wires s := by
  first | (unfold noteLastingRegion; simp [*])
@[simp] theorem markLasting_driversHeld (a1) (a2) (s : State) (h : Held (wires s)) : Held (wires (markLasting a1 a2 s)) := by
  first | (unfold markLasting; simp +contextual [*])
@[simp] theorem markTransient_driversHeld (a1) (a2) (s : State) (h : Held (wires s)) : Held (wires (markTransient a1 a2 s)) := by
  first | (unfold markTransient; simp +contextual [*]; (repeat' split) <;> simp +contextual [*])
@[simp] theorem beginSiteTest_wires (a1) (a2) (s : State) : wires (beginSiteTest a1 a2 s) = wires s := by
  first | (unfold beginSiteTest; simp [*])
@[simp] theorem retest_wires (a1) (s : State) : wires (retest a1 s) = wires s := by
  first | (unfold retest; simp [*])
@[simp] theorem startTest_driversHeld (a1) (a2) (s : State) (h : Held (wires s)) : Held (wires (startTest a1 a2 s)) := by
  first | (unfold startTest; simp +contextual [*]; (repeat' split) <;> simp +contextual [*])
@[simp] theorem endTest_wires (a1) (s : State) : wires (endTest a1 s) = wires s := by
  unfold endTest; split
  · exact (rehome_wires _).trans rfl
  · rfl
@[simp] theorem correctable_driversHeld (a1) (s : State) (h : Held (wires s)) : Held (wires (correctable a1 s)) := by
  first | (unfold correctable; simp +contextual [*])
@[simp] theorem poisonWord_wires (a1) (s : State) : wires (poisonWord a1 s) = wires s := by
  first | (unfold poisonWord; (repeat' split) <;> rfl)
@[simp] theorem routeEvent_wires (a1) (a2) (s : State) : wires (routeEvent a1 a2 s) = wires s := by
  first | (unfold routeEvent; simp [*])
@[simp] theorem cannotRebuild_wires (a1) (a2) (a3) (s : State) : wires (cannotRebuild a1 a2 a3 s) = wires s := by
  first | (unfold cannotRebuild; simp [*]; (repeat' split) <;> simp [*])
@[simp] theorem refetch_wires (a1) (a2) (s : State) : wires (refetch a1 a2 s) = wires s := by
  first | (unfold refetch; (repeat' split) <;> simp [*])
@[simp] theorem poisonLine_wires (a1) (s : State) : wires (poisonLine a1 s) = wires s := by
  first | (unfold poisonLine; (repeat' split) <;> rfl)
@[simp] theorem adoptEpoch_wires (a1) (s : State) : wires (adoptEpoch a1 s) = wires s := by
  first | (unfold adoptEpoch; simp [*])
@[simp] theorem drawSalt_wires (a1) (s : State) : ∀ t, drawSalt a1 s = some t → wires t = wires s := by
  first | (unfold drawSalt; simp [*])
@[simp] theorem withSalt_wires (a1) (s : State) : ∀ t, withSalt a1 s = some t → wires t = wires s := by
  first | (unfold withSalt; grind [drawSalt_wires, SameWires, onlyIf_wires, foldl_wires])
@[simp] theorem noteRefusal_wires (a1) (s : State) : wires (noteRefusal a1 s) = wires s := by
  first | (unfold noteRefusal; simp [*])
@[simp] theorem wardMismatch_wires (s : State) (a2) : wires (wardMismatch s a2) = wires s := by
  first | (unfold wardMismatch; simp [*])
@[simp] theorem repairRow_wires (a1) (a2) (s : State) : wires (repairRow a1 a2 s) = wires s := by
  first | (unfold repairRow; simp [*])
@[simp] theorem beginRebuild_wires (s : State) (a2) : wires (beginRebuild s a2) = wires s := by rfl
@[simp] theorem noteSearch_wires (a1) (s : State) : wires (noteSearch a1 s) = wires s := by
  first | (unfold noteSearch; simp [*])
@[simp] theorem takeSearch_wires (a1) (a2) (a3) (a4) (s : State) : wires (takeSearch a1 a2 a3 a4 s).2 = wires s := by
  induction a1 generalizing s with
  | zero => rfl
  | succ n ih =>
    unfold takeSearch
    split
    · rfl
    · dsimp only
      split
      · exact foldl_wires _ _ _ fun t e => beginRebuild_wires _ _
      · split
        · rfl
        · rw [ih, repairRow_wires]
@[simp] theorem search_wires (a1) (a2) (a3) (s : State) : wires (search a1 a2 a3 s).2 = wires s := by
  first | (unfold search; simp [*]; (repeat' split) <;> simp [*])
@[simp] theorem loadWard_wires (s : State) : wires (loadWard s) = wires s := by
  first | (unfold loadWard; grind [SameWires, onlyIf_wires, foldl_wires, wires, kwires])
@[simp] theorem judgeIsolation_wires (s : State) : wires (judgeIsolation s) = wires s := by
  first | (unfold judgeIsolation; simp [*])
@[simp] theorem askLease_wires (a1) (a2) (s : State) : wires (askLease a1 a2 s) = wires s := by
  first | (unfold askLease; simp [*])
@[simp] theorem sendBulk_wires (a1) (a2) (a3) (s : State) : wires (sendBulk a1 a2 a3 s) = wires s := by
  first | (unfold sendBulk; (repeat' split) <;> simp [*])
@[simp] theorem flushBulk_wires (a1) (a2) (s : State) : wires (flushBulk a1 a2 s) = wires s := by
  first | (unfold flushBulk; simp [*])
@[simp] theorem dropGram_wires (a1) (s : State) : wires (dropGram a1 s) = wires s := by rfl
@[simp] theorem acceptBy_wires (a1) (a2) (a3) (s : State) : wires (acceptBy a1 a2 a3 s).2 = wires s ∧ ∀ t, (acceptBy a1 a2 a3 s).1 = some t → wires t = wires s := by
  first | (unfold acceptBy; (repeat' split) <;> simp [*])
@[simp] theorem accept_wires (a1) (a2) (s : State) : wires (accept a1 a2 s).2 = wires s ∧ ∀ t, (accept a1 a2 s).1 = some t → wires t = wires s := by
  exact acceptBy_wires _ _ _ _
@[simp] theorem onGram_wires (a1) (a2) (f3) (s : State) (hf3 : ∀ x0, wires (f3 x0) = wires x0) : wires (onGram a1 a2 f3 s) = wires s := by
  have h1 := accept_wires a1 (gramOf a2) s
  unfold onGram
  split
  · rename_i t u e; rw [hf3]; exact h1.2 t (by rw [e])
  · rename_i t e; have := h1.1; rw [e] at this; exact this
theorem onGram_driversHeld (x : Hdr) (b : Body) (f : State → State) (s : State) (h : Held (wires s)) (hf : ∀ t, Held (wires t) → Held (wires (f t))) : Held (wires (onGram x b f s)) := by
  have h1 := accept_wires x (gramOf b) s
  unfold onGram
  split
  · rename_i t u e; apply hf; have := h1.2 t (by rw [e]); rw [this]; exact h
  · rename_i t e; have := h1.1; rw [e] at this; rw [this]; exact h
@[simp] theorem refuseNs_wires (a1) (s : State) : wires (refuseNs a1 s) = wires s := by
  first | (unfold refuseNs; simp [*])
@[simp] theorem inNs_wires (a1) (f2) (s : State) (hf2 : ∀ x0, wires (f2 x0) = wires x0) : wires (inNs a1 f2 s) = wires s := by
  first | (unfold inNs; simp [*])
@[simp] theorem removeItem_wires (a1) (a2) (s : State) : wires (removeItem a1 a2 s) = wires s := by
  first | (unfold removeItem; simp [*])
@[simp] theorem commitItem_wires (a1) (a2) (s : State) : wires (commitItem a1 a2 s) = wires s := by
  first | (unfold commitItem; simp [*])
@[simp] theorem applyCommit_wires (a1) (a2) (s : State) : wires (applyCommit a1 a2 s) = wires s := by
  first | (unfold applyCommit; simp [*])
@[simp] theorem onCommitNotice_wires (a1) (s : State) : wires (onCommitNotice a1 s) = wires s := by
  first | (unfold onCommitNotice; simp [*])
@[simp] theorem applyAbort_wires (a1) (a2) (s : State) : wires (applyAbort a1 a2 s) = wires s := by
  first | (unfold applyAbort; simp [*])
@[simp] theorem applyIntent_wires (a1) (a2) (s : State) : wires (applyIntent a1 a2 s) = wires s := by
  first | (unfold applyIntent; simp [*])
@[simp] theorem ackBoth_wires (a1) (a2) (s : State) : wires (ackBoth a1 a2 s) = wires s := by
  first | (unfold ackBoth; simp [*])
@[simp] theorem enterItem_wires (a1) (s : State) : ∀ t, enterItem a1 s = some t → wires t = wires s := by
  first | (unfold enterItem; simp [*]; (repeat' split) <;> simp [*])
@[simp] theorem takeItem_wires (a1) (a2) (a3) (a4) (s : State) : ∀ t, takeItem a1 a2 a3 a4 s = some t → wires t.2 = wires s := by
  intro i ht
  unfold takeItem at ht
  dsimp only at ht
  split at ht
  · rename_i u hu
    cases ht
    refine (enterItem_wires _ _ _ hu).trans ?_
    split
    · rfl
    · exact cornicePut_wires _ _
  · cases ht
@[simp] theorem keepItem_wires (a1) (a2) (a3) (a4) (s : State) : wires (keepItem a1 a2 a3 a4 s) = wires s := by
  first | (unfold keepItem; simp [*])
@[simp] theorem keywayFull_wires (s : State) : wires (keywayFull s) = wires s := by
  first | (unfold keywayFull; simp [*])
@[simp] theorem refuse_wires (a1) (a2) (a3) (a4) (s : State) : wires (refuse a1 a2 a3 a4 s) = wires s := by
  first | (unfold refuse; simp [*])
@[simp] theorem storeItem_wires (a1) (a2) (a3) (a4) (a5) (s : State) : wires (storeItem a1 a2 a3 a4 a5 s) = wires s := by
  unfold storeItem
  have hs : wires ((withSalt a2.ns s).getD s) = wires s := by
    cases h : withSalt a2.ns s with
    | none => rfl
    | some t => exact withSalt_wires _ _ _ h
  split
  · simp
  · split
    · rename_i h; simp; exact (takeItem_wires _ _ _ _ _ _ h).trans hs
    · simp
@[simp] theorem waitItem_wires (a1) (a2) (a3) (s : State) : wires (waitItem a1 a2 a3 s) = wires s := by
  first | (unfold waitItem; (repeat' split) <;> rfl)
@[simp] theorem setRec_wires (a1) (s : State) : wires (setRec a1 s) = wires s := by
  first | (unfold setRec; simp [*])
@[simp] theorem settleLaid_wires (a1) (a2) (s : State) : wires (settleLaid a1 a2 s) = wires s := by
  first | (unfold settleLaid; (repeat' split) <;> rfl)
@[simp] theorem ladderUnit_wires (a1) (a2) (s : State) : wires (ladderUnit a1 a2 s) = wires s := by
  first | (unfold ladderUnit; simp [*])
@[simp] theorem assignVer_wires (a1) (s : State) : wires (assignVer a1 s).2 = wires s := by
  first | (unfold assignVer; simp [*])
@[simp] theorem assign_wires (a1) (s : State) : wires (assign a1 s) = wires s := by
  first | (unfold assign; simp [*]; (repeat' split) <;> simp [*])
@[simp] theorem commitVersion_wires (a1) (a2) (a3) (s : State) : wires (commitVersion a1 a2 a3 s) = wires s := by
  first | (unfold commitVersion; simp [*])
@[simp] theorem abortVersion_wires (a1) (a2) (s : State) : wires (abortVersion a1 a2 s) = wires s := by
  first | (unfold abortVersion; simp [*])
@[simp] theorem decide__wires (a1) (a2) (a3) (s : State) : wires (decide_ a1 a2 a3 s) = wires s := by
  first | (unfold decide_; simp [*])
@[simp] theorem gatherFor_wires (a1) (a2) (a3) (a4) (s : State) : wires (gatherFor a1 a2 a3 a4 s) = wires s := by
  first | (unfold gatherFor; (repeat' split) <;> simp [*])
@[simp] theorem queryAll_wires (a1) (a2) (a3) (s : State) : wires (queryAll a1 a2 a3 s) = wires s := by
  first | (unfold queryAll; simp [*])
@[simp] theorem queryChunks_wires (a1) (a2) (a3) (s : State) : wires (queryChunks a1 a2 a3 s) = wires s := by
  first | (unfold queryChunks; simp [*])
@[simp] theorem decideSucc_wires (a1) (s : State) : wires (decideSucc a1 s) = wires s := by
  first | (unfold decideSucc; grind [journal_wires, decide__wires, milmo_wires, queryChunks_wires, SameWires, onlyIf_wires, foldl_wires, wires, kwires])
@[simp] theorem resolveSucc_wires (a1) (s : State) : wires (resolveSucc a1 s) = wires s := by
  unfold resolveSucc
  extract_lets qs own far x'
  split
  · exact decideSucc_wires _ _
  · exact (queryAll_wires _ _ _ _).trans rfl
@[simp] theorem succOn_wires (a1) (s : State) : wires (succOn a1 s) = wires s := by
  first | (unfold succOn; simp [*])
@[simp] theorem discardRec_wires (a1) (a2) (s : State) : wires (discardRec a1 a2 s) = wires s := by
  first | (unfold discardRec; (repeat' split) <;> simp [*])
@[simp] theorem raiseFloor_wires (a1) (s : State) : wires (raiseFloor a1 s) = wires s := by
  first | (unfold raiseFloor; simp [*])
@[simp] theorem raiseAnswered_wires (a1) (a2) (a3) (s : State) : wires (raiseAnswered a1 a2 a3 s) = wires s := by
  first | (unfold raiseAnswered; simp [*])
@[simp] theorem objectLost_wires (a1) (a2) (s : State) : wires (objectLost a1 a2 s) = wires s := by
  first | (unfold objectLost; simp [*])
@[simp] theorem orderRepair_wires (a1) (a2) (a3) (a4) (s : State) : wires (orderRepair a1 a2 a3 a4 s) = wires s := by
  first | (unfold orderRepair; simp [*]; (repeat' split) <;> simp [*])
@[simp] theorem repairSlot_wires (a1) (s : State) : wires (repairSlot a1 s) = wires s := by
  unfold repairSlot
  refine foldl_wires _ _ _ fun t r => ?_
  refine foldl_wires _ _ _ fun t v => ?_
  refine foldl_wires _ _ _ fun t c => ?_
  split
  · split
    · exact orderRepair_wires _ _ _ _ _
    · rfl
  · rfl
@[simp] theorem tellHolders_wires (a1) (a2) (a3) (a4) (s : State) : wires (tellHolders a1 a2 a3 a4 s) = wires s := by
  first | (unfold tellHolders; (repeat' split) <;> simp [*])
@[simp] theorem repairDone_wires (a1) (a2) (a3) (a4) (a5) (a6) (s : State) : wires (repairDone a1 a2 a3 a4 a5 a6 s) = wires s := by
  first | (unfold repairDone; (repeat' split) <;> simp [*])
@[simp] theorem mirrorStore_wires (a1) (s : State) : wires (mirrorStore a1 s) = wires s := by
  first | (unfold mirrorStore; (repeat' split) <;> simp [*])
@[simp] theorem onStore_wires (a1) (a2) (s : State) : wires (onStore a1 a2 s) = wires s := by
  first | (unfold onStore; simp [*])
@[simp] theorem dropBulk_wires (a1) (a2) (a3) (s : State) : wires (dropBulk a1 a2 a3 s) = wires s := by rfl
@[simp] theorem sendPos_wires (a1) (a2) (a3) (a4) (s : State) : wires (sendPos a1 a2 a3 a4 s) = wires s := by
  first | (unfold sendPos; (repeat' split) <;> simp [*])
@[simp] theorem requestVersion_wires (a1) (s : State) : wires (requestVersion a1 s) = wires s := by
  first | (unfold requestVersion; (repeat' split) <;> simp [*])
@[simp] theorem milmoGroup_wires (a1) (a2) (s : State) : wires (milmoGroup a1 a2 s) = wires s := by
  first | (unfold milmoGroup; simp [*])
@[simp] theorem dispatchChunk_wires (a1) (a2) (s : State) : wires (dispatchChunk a1 a2 s) = wires s := by
  first | (unfold dispatchChunk; simp [*]; (repeat' split) <;> simp [*])
@[simp] theorem dropStore_wires (a1) (s : State) : wires (dropStore a1 s) = wires s := by
  first | (unfold dropStore; simp [*])
@[simp] theorem answerStore_wires (a1) (a2) (a3) (s : State) : wires (answerStore a1 a2 a3 s) = wires s := by
  first | (unfold answerStore; simp [*])
@[simp] theorem failStore_wires (a1) (a2) (a3) (s : State) : wires (failStore a1 a2 a3 s) = wires s := by
  first | (unfold failStore; simp [*])
@[simp] theorem abortAt_wires (a1) (a2) (a3) (a4) (s : State) : wires (abortAt a1 a2 a3 a4 s) = wires s := by
  first | (unfold abortAt; simp [*])
@[simp] theorem freeDone_wires (a1) (s : State) : wires (freeDone a1 s) = wires s := by
  first | (unfold freeDone; (repeat' split) <;> simp [*])
@[simp] theorem requestCommit_wires (a1) (a2) (s : State) : wires (requestCommit a1 a2 s) = wires s := by
  first | (unfold requestCommit; simp [*])
@[simp] theorem advance_wires (a1) (s : State) : wires (advance a1 s) = wires s := by
  first | (unfold advance; (repeat' split) <;> simp [*])
@[simp] theorem movePos_wires (a1) (a2) (a3) (s : State) : wires (movePos a1 a2 a3 s) = wires s := by
  first | (unfold movePos; simp [*]; (repeat' split) <;> simp [*])
@[simp] theorem followHint_wires (a1) (a2) (a3) (s : State) : wires (followHint a1 a2 a3 s) = wires s := by
  first | (unfold followHint; (repeat' split) <;> simp [*])
@[simp] theorem conditionFailed_wires (a1) (a2) (a3) (a4) (s : State) : wires (conditionFailed a1 a2 a3 a4 s) = wires s := by
  first | (unfold conditionFailed; simp [*])
@[simp] theorem entryAck_wires (a1) (a2) (s : State) : wires (entryAck a1 a2 s) = wires s := by
  first | (unfold entryAck; (repeat' split) <;> simp [*])
@[simp] theorem entryConfirm_wires (a1) (s : State) : wires (entryConfirm a1 s) = wires s := by
  first | (unfold entryConfirm; (repeat' split) <;> simp [*])
@[simp] theorem entryIntent_wires (a1) (a2) (s : State) : wires (entryIntent a1 a2 s) = wires s := by
  first | (unfold entryIntent; (repeat' split) <;> simp [*])
@[simp] theorem entryStatus_wires (a1) (a2) (s : State) : wires (entryStatus a1 a2 s) = wires s := by
  first | (unfold entryStatus; simp [*])
@[simp] theorem ackPayload_wires (a1) (a2) (s : State) : wires (ackPayload a1 a2 s) = wires s := by
  first | (unfold ackPayload; (repeat' split) <;> simp [*])
@[simp] theorem chunkIn_wires (a1) (a2) (s : State) : wires (chunkIn a1 a2 s) = wires s := by
  first | (unfold chunkIn; simp [*])
end Sys2Proof.Machine
end

