-- ==== Sys2Proof/Laws/HoldShared2.lean ====
section
/-! SUPPORT. The same of the other shared operations. -/

namespace Sys2Proof.Machine

@[simp] theorem grantChunk_wires (a1) (s : State) : wires (grantChunk a1 s) = wires s := by
  first | (unfold grantChunk; simp [*]; (repeat' split) <;> simp [*])
@[simp] theorem grantWaiting_wires (a1) (s : State) : wires (grantWaiting a1 s) = wires s := by
  induction a1 generalizing s with
  | zero => rfl
  | succ n ih => unfold grantWaiting; grind [grantChunk_wires]
@[simp] theorem corniceWriteAt_wires (a1) (a2) (a3) (s : State) : wires (corniceWriteAt a1 a2 a3 s) = wires s := by
  first | (unfold corniceWriteAt; simp [*])
@[simp] theorem takePayload_wires (a1) (a2) (s : State) : wires (takePayload a1 a2 s) = wires s := by
  first | (unfold takePayload; (repeat' split) <;> simp [*])
@[simp] theorem beginStore_wires (a1) (a2) (a3) (a4) (a5) (a6) (a7) (a8) (a9) (a10) (s : State) : wires (beginStore a1 a2 a3 a4 a5 a6 a7 a8 a9 a10 s) = wires s := by
  first | (unfold beginStore; simp [*])
@[simp] theorem onRead_wires (a1) (a2) (s : State) : wires (onRead a1 a2 s) = wires s := by rfl
@[simp] theorem dropReadE_wires (a1) (s : State) : wires (dropReadE a1 s) = wires s := by rfl
@[simp] theorem answerRead_wires (a1) (a2) (a3) (a4) (a5) (s : State) : wires (answerRead a1 a2 a3 a4 a5 s) = wires s := by
  first | (unfold answerRead; simp [*])
@[simp] theorem repairWaits_wires (a1) (s : State) : wires (repairWaits a1 s) = wires s := by rfl
@[simp] theorem buildRepair_wires (a1) (a2) (a3) (s : State) : wires (buildRepair a1 a2 a3 s) = wires s := by
  unfold buildRepair
  extract_lets b rep d f src done src2 i0
  have hd : wires done = wires s := (dropReadE_wires _ _).trans rfl
  split
  · exact hd
  · split
    · rw [repairWaits_wires, keywayFull_wires]
    · split
      · exact repairWaits_wires _ _
      · rename_i i t heq
        have ht : wires t = wires s := by
          have h := congrArg (fun p => wires p.2) heq; simp only [layBytes_wires] at h
          refine Eq.trans ?_ hd
          refine h.symm.trans ?_
          split
          · rfl
          · exact layBytes_wires _ _ _
        split
        · rw [repairWaits_wires, keywayFull_wires]
        · rename_i u hu
          extract_lets v
          have hv : wires v = wires s := (commitItem_wires _ _ _).trans ((enterItem_wires _ _ _ hu).trans ht)
          split
          · exact (milmo_wires _ _ _ _).trans hv
          · exact hv
@[simp] theorem sendLocate_wires (a1) (a2) (a3) (s : State) : wires (sendLocate a1 a2 a3 s) = wires s := by
  first | (unfold sendLocate; simp [*])
@[simp] theorem askHolders_wires (a1) (s : State) : wires (askHolders a1 s) = wires s := by
  first | (unfold askHolders; (repeat' split) <;> simp [*])
@[simp] theorem relocate_wires (a1) (s : State) : wires (relocate a1 s) = wires s := by
  first | (unfold relocate; (repeat' split) <;> simp [*])
@[simp] theorem beginRead_wires (a1) (s : State) : wires (beginRead a1 s) = wires s := by
  first | (unfold beginRead; simp [*])
@[simp] theorem finishShed_wires (a1) (a2) (s : State) : wires (finishShed a1 a2 s) = wires s := by
  first | (unfold finishShed; simp [*])
@[simp] theorem shedDone_wires (a1) (a2) (a3) (a4) (a5) (s : State) : wires (shedDone a1 a2 a3 a4 a5 s) = wires s := by
  first | (unfold shedDone; (repeat' split) <;> simp [*])
@[simp] theorem finishRead_wires (a1) (a2) (a3) (s : State) : wires (finishRead a1 a2 a3 s) = wires s := by
  first | (unfold finishRead; (repeat' split) <;> simp [*])
@[simp] theorem readFails_wires (a1) (s : State) : wires (readFails a1 s) = wires s := by
  first | (unfold readFails; simp [*])
@[simp] theorem planRead_wires (a1) (s : State) : wires (planRead a1 s) = wires s := by
  first | (unfold planRead; simp [*]; (repeat' split) <;> simp [*])
@[simp] theorem judgeRecord_wires (a1) (a2) (s : State) : wires (judgeRecord a1 a2 s) = wires s := by
  first | (unfold judgeRecord; simp [*])
@[simp] theorem takeRecords_wires (a1) (a2) (s : State) : wires (takeRecords a1 a2 s) = wires s := by
  first | (unfold takeRecords; (repeat' split) <;> simp [*])
@[simp] theorem followRead_wires (a1) (a2) (s : State) : wires (followRead a1 a2 s) = wires s := by
  first | (unfold followRead; simp [*])
@[simp] theorem pieceFails_wires (a1) (a2) (a3) (s : State) : wires (pieceFails a1 a2 a3 s) = wires s := by
  first | (unfold pieceFails; simp [*])
@[simp] theorem takeData_wires (a1) (a2) (s : State) : wires (takeData a1 a2 s) = wires s := by
  first | (unfold takeData; (repeat' split) <;> simp [*])
@[simp] theorem takeReplies_wires (a1) (a2) (s : State) : wires (takeReplies a1 a2 s) = wires s := by
  first | (unfold takeReplies; (repeat' split) <;> simp [*])
@[simp] theorem compiledFor_wires (a1) (s : State) : wires (compiledFor a1 s).2 = wires s := by
  first | (unfold compiledFor; simp [*]; (repeat' split) <;> simp [*])
@[simp] theorem scanDone_wires (a1) (s : State) : wires (scanDone a1 s) = wires s := by
  first | (unfold scanDone; simp [*])
@[simp] theorem keyScanned_wires (a1) (a2) (a3) (s : State) : wires (keyScanned a1 a2 a3 s) = wires s := by
  first | (unfold keyScanned; (repeat' split) <;> simp [*])
@[simp] theorem beginScan_wires (a1) (a2) (s : State) : wires (beginScan a1 a2 s) = wires s := by
  first | (unfold beginScan; simp [*])
@[simp] theorem onGather_wires (a1) (a2) (s : State) : wires (onGather a1 a2 s) = wires s := by rfl
@[simp] theorem settleGather_wires (a1) (s : State) : wires (settleGather a1 s) = wires s := by
  first | (unfold settleGather; (repeat' split) <;> simp [*])
@[simp] theorem takeGather_wires (a1) (a2) (s : State) : wires (takeGather a1 a2 s) = wires s := by
  first | (unfold takeGather; (repeat' split) <;> simp [*])
@[simp] theorem askAll_wires (a1) (s : State) : wires (askAll a1 s) = wires s := by
  first | (unfold askAll; (repeat' split) <;> simp [*])
@[simp] theorem beginGather_wires (a1) (s : State) : wires (beginGather a1 s) = wires s := by
  first | (unfold beginGather; simp [*])
@[simp] theorem carry_wires (s : State) : wires (carry s).2 = wires s := by rfl
@[simp] theorem putView_wires (a1) (a2) (s : State) : wires (putView a1 a2 s) = wires s := by
  first | (unfold putView; simp [*])
@[simp] theorem refute_wires (a1) (s : State) : wires (refute a1 s) = wires s := by
  first | (unfold refute; simp [*])
@[simp] theorem offerItems_wires (s : State) : wires (offerItems s) = wires s := by
  first | (unfold offerItems; simp [*])
@[simp] theorem mergeOne_wires (a1) (s : State) : wires (mergeOne a1 s) = wires s := by
  first | (unfold mergeOne; simp [*])
@[simp] theorem sendOrphans_wires (a1) (s : State) : wires (sendOrphans a1 s) = wires s := by
  first | (unfold sendOrphans; grind [sendBulk_wires, addBg_wires, SameWires, onlyIf_wires, foldl_wires])
@[simp] theorem noteTaken_wires (a1) (s : State) : wires (noteTaken a1 s) = wires s := by
  first | (unfold noteTaken; simp [*])
@[simp] theorem dropWaits_wires (a1) (s : State) : wires (dropWaits a1 s) = wires s := by
  first | (unfold dropWaits; simp [*])
@[simp] theorem dropAcks_wires (a1) (s : State) : wires (dropAcks a1 s) = wires s := by
  first | (unfold dropAcks; simp [*])
@[simp] theorem abortAsked_wires (a1) (s : State) : wires (abortAsked a1 s) = wires s := by
  unfold abortAsked
  refine foldl_wires _ _ _ fun t q => ?_
  split
  · rfl
  · dsimp only
    split
    · rfl
    · split
      all_goals
        simp only [wires_mk, kwires_keeper]
        refine foldl_wires _ _ _ fun t n => ?_
        split
        · split
          · exact abortVersion_wires _ _ _
          · rfl
        · rfl
@[simp] theorem replaceRepairs_wires (a1) (s : State) : wires (replaceRepairs a1 s) = wires s := by
  first | (unfold replaceRepairs; grind [orderRepair_wires, SameWires, onlyIf_wires, foldl_wires, wires, kwires])
@[simp] theorem slotLost_wires (a1) (s : State) : wires (slotLost a1 s) = wires s := by
  unfold slotLost
  dsimp only
  rw [foldl_wires]
  · rw [repairSlot_wires, replaceRepairs_wires, sendOrphans_wires, abortAsked_wires, dropAcks_wires, dropWaits_wires]; rfl
  · intro t g; split
    · exact askAll_wires _ _
    · rfl
@[simp] theorem slotLeft_wires (a1) (s : State) : wires (slotLeft a1 s) = wires s := by
  first | (unfold slotLeft; simp [*])
@[simp] theorem slotEntered_wires (a1) (s : State) : wires (slotEntered a1 s) = wires s := by
  first | (unfold slotEntered; simp [*])
@[simp] theorem refreshWaiting_wires (s : State) : wires (refreshWaiting s) = wires s := by
  first | (unfold refreshWaiting; simp [*])
@[simp] theorem refreshItems_wires (s : State) : wires (refreshItems s) = wires s := by rfl
@[simp] theorem refreshGroups_wires (s : State) : wires (refreshGroups s) = wires s := by
  unfold refreshGroups
  split
  · exact setGroups_wires _ _
  · rfl
@[simp] theorem afterView_wires (s : State) (s2 : State) : wires (afterView s s2) = wires s2 := by
  unfold afterView
  have h1 : ∀ (l : List Nat) (u : State), wires (l.foldl (fun t x => slotLeft x t) u) = wires u := fun l u => foldl_wires _ _ _ fun t x => slotLeft_wires _ _
  have h2 : ∀ (l : List Nat) (u : State), wires (l.foldl (fun t x => slotEntered x t) u) = wires u := fun l u => foldl_wires _ _ _ fun t x => slotEntered_wires _ _
  have h3 : ∀ (l : List Nat) (u : State), wires (l.foldl (fun t x => slotLost x t) u) = wires u := fun l u => foldl_wires _ _ _ fun t x => slotLost_wires _ _
  have h4 : ∀ (l : List Nat) (u : State), wires (l.foldl (fun t x => dropWaits x t) u) = wires u := fun l u => foldl_wires _ _ _ fun t x => dropWaits_wires _ _
  extract_lets slots lost left entered marked life a b src g
  have ha : wires a = wires s2 := by simp only [a, h2, h1]
  have hb : wires b = wires s2 := by simp only [b, h4, h3, ha]
  have hg : wires g = wires s2 := by
    simp only [g]; split
    · rw [raiseAsync_wires]; simp only [wires_mk, kwires_keeper]; exact hb
    · exact hb
  split
  · exact hg
  · rw [refreshGroups_wires, refreshItems_wires, refreshWaiting_wires, hg]
@[simp] theorem changeView_wires (f1) (s : State) (hf1 : ∀ x0, wires (f1 x0) = wires x0) : wires (changeView f1 s) = wires s := by
  first | (unfold changeView; simp [*])
@[simp] theorem mergeAll_wires (a1) (s : State) : wires (mergeAll a1 s) = wires s := by
  first | (unfold mergeAll; simp [*])
@[simp] theorem probeBody_wires (a1) (a2) (a3) (s : State) : wires (probeBody a1 a2 a3 s).2 = wires s := by rfl
@[simp] theorem probeSlot_wires (a1) (s : State) : wires (probeSlot a1 s) = wires s := by
  first | (unfold probeSlot; simp [*])
@[simp] theorem probeBy_wires (a1) (a2) (a3) (s : State) : wires (probeBy a1 a2 a3 s) = wires s := by
  first | (unfold probeBy; simp [*])
@[simp] theorem suspect_wires (a1) (s : State) : wires (suspect a1 s) = wires s := by
  first | (unfold suspect; (repeat' split) <;> simp [*])
@[simp] theorem forwardTo_wires (a1) (a2) (a3) (s : State) : wires (forwardTo a1 a2 a3 s) = wires s := by
  first | (unfold forwardTo; simp [*])
@[simp] theorem ackAgain_wires (a1) (a2) (a3) (a4) (s : State) : wires (ackAgain a1 a2 a3 a4 s) = wires s := by
  first | (unfold ackAgain; simp [*])
@[simp] theorem holdFragment_wires (a1) (a2) (a3) (s : State) : wires (holdFragment a1 a2 a3 s) = wires s := by
  unfold holdFragment
  split
  · exact ackAgain_wires _ _ _ _ _
  · split
    · exact waitItem_wires _ _ _ _
    · extract_lets t
      have ht : wires t = wires s := storeItem_wires _ _ _ _ _ _
      split
      · exact (commitItem_wires _ _ _).trans ht
      · exact ht
@[simp] theorem onVersionRequest_wires (a1) (a2) (s : State) : wires (onVersionRequest a1 a2 s) = wires s := by
  first | (unfold onVersionRequest; (repeat' split) <;> simp [*])
@[simp] theorem onFragment_wires (a1) (a2) (s : State) : wires (onFragment a1 a2 s) = wires s := by
  first | (unfold onFragment; (repeat' split) <;> simp [*])
@[simp] theorem repairAck_wires (a1) (a2) (s : State) : wires (repairAck a1 a2 s) = wires s := by
  first | (unfold repairAck; (repeat' split) <;> simp [*])
@[simp] theorem onFragmentAck_wires (a1) (a2) (s : State) : wires (onFragmentAck a1 a2 s) = wires s := by
  first | (unfold onFragmentAck; simp [*]; (repeat' split) <;> simp [*])
@[simp] theorem onCommitRequest_wires (a1) (a2) (s : State) : wires (onCommitRequest a1 a2 s) = wires s := by
  first | (unfold onCommitRequest; (repeat' split) <;> simp [*])
@[simp] theorem answerAsked_wires (a1) (a2) (a3) (s : State) : wires (answerAsked a1 a2 a3 s) = wires s := by
  first | (unfold answerAsked; (repeat' split) <;> simp [*])
@[simp] theorem onCommitIntent_wires (a1) (a2) (s : State) : wires (onCommitIntent a1 a2 s) = wires s := by
  unfold onCommitIntent
  refine inNs_wires _ _ _ fun t => ?_
  split
  · exact answerAsked_wires _ _ _ _
  · split
    · rfl
    · rw [milmo_wires, applyIntent_wires]
@[simp] theorem onIntentAck_wires (a1) (a2) (s : State) : wires (onIntentAck a1 a2 s) = wires s := by
  first | (unfold onIntentAck; (repeat' split) <;> simp [*])
@[simp] theorem onAbortNotice_wires (a1) (a2) (s : State) : wires (onAbortNotice a1 a2 s) = wires s := by
  unfold onAbortNotice
  refine inNs_wires _ _ _ fun t => ?_
  split
  · exact answerAsked_wires _ _ _ _
  · rw [milmo_wires, applyAbort_wires]
@[simp] theorem onStatusQuery_wires (a1) (a2) (s : State) : wires (onStatusQuery a1 a2 s) = wires s := by
  first | (unfold onStatusQuery; (repeat' split) <;> simp [*])
@[simp] theorem onLocate_wires (a1) (a2) (s : State) : wires (onLocate a1 a2 s) = wires s := by
  first | (unfold onLocate; (repeat' split) <;> simp [*])
@[simp] theorem onLocateReply_wires (a1) (a2) (a3) (a4) (s : State) : wires (onLocateReply a1 a2 a3 a4 s) = wires s := by
  first | (unfold onLocateReply; (repeat' split) <;> simp [*])
@[simp] theorem onDurQuery_wires (a1) (a2) (s : State) : wires (onDurQuery a1 a2 s) = wires s := by
  first | (unfold onDurQuery; (repeat' split) <;> simp [*])
@[simp] theorem onDurReply_wires (a1) (a2) (a3) (a4) (s : State) : wires (onDurReply a1 a2 a3 a4 s) = wires s := by
  first | (unfold onDurReply; (repeat' split) <;> simp [*])
@[simp] theorem serveItem_wires (a1) (a2) (a3) (a4) (s : State) : wires (serveItem a1 a2 a3 a4 s) = wires s := by
  first | (unfold serveItem; simp [*])
@[simp] theorem onReadRequest_wires (a1) (a2) (s : State) : wires (onReadRequest a1 a2 s) = wires s := by
  first | (unfold onReadRequest; simp [*]; (repeat' split) <;> simp [*])
@[simp] theorem onRecordQuery_wires (a1) (a2) (s : State) : wires (onRecordQuery a1 a2 s) = wires s := by
  first | (unfold onRecordQuery; simp [*])
@[simp] theorem mergeRecord_wires (a1) (s : State) : wires (mergeRecord a1 s) = wires s := by
  first | (unfold mergeRecord; simp [*])
@[simp] theorem repairRecord_wires (a1) (s : State) : wires (repairRecord a1 s) = wires s := by
  first | (unfold repairRecord; grind [orderRepair_wires, SameWires, onlyIf_wires, foldl_wires])
@[simp] theorem lateRecord_wires (a1) (a2) (s : State) : wires (lateRecord a1 a2 s) = wires s := by
  first | (unfold lateRecord; (repeat' split) <;> simp [*])
@[simp] theorem onRecordReply_wires (a1) (a2) (a3) (s : State) : wires (onRecordReply a1 a2 a3 s) = wires s := by
  first | (unfold onRecordReply; simp [*]; (repeat' split) <;> simp [*])
@[simp] theorem onFloorNotice_wires (a1) (a2) (a3) (s : State) : wires (onFloorNotice a1 a2 a3 s) = wires s := by
  first | (unfold onFloorNotice; simp [*])
@[simp] theorem onOrphan_wires (a1) (a2) (s : State) : wires (onOrphan a1 a2 s) = wires s := by
  first | (unfold onOrphan; simp [*])
@[simp] theorem onHandover_wires (a1) (a2) (s : State) : wires (onHandover a1 a2 s) = wires s := by
  first | (unfold onHandover; simp [*])
@[simp] theorem takeHolders_wires (a1) (s : State) : wires (takeHolders a1 s) = wires s := by
  first | (unfold takeHolders; simp [*])
@[simp] theorem onHolderReturn_wires (a1) (a2) (a3) (s : State) : wires (onHolderReturn a1 a2 a3 s) = wires s := by
  unfold onHolderReturn
  refine inNs_wires _ _ _ fun t => ?_
  split
  · dsimp only
    refine (sendBulk_wires _ _ _ _).trans ?_
    repeat' split
    all_goals first | rfl | exact setRec_wires _ _
  · exact (takeHolders_wires _ _).trans rfl
  · dsimp only
    refine (foldl_wires _ _ _ ?_).trans rfl
    intro u i; exact removeItem_wires _ _ _
@[simp] theorem onRepairOrder_wires (a1) (a2) (a3) (s : State) : wires (onRepairOrder a1 a2 a3 s) = wires s := by
  unfold onRepairOrder
  refine inNs_wires _ _ _ fun t => ?_
  split
  · split
    · exact milmo_wires _ _ _ _
    · rfl
  · split
    · rfl
    · dsimp only
      split
      · exact (planRead_wires _ _).trans rfl
      · rfl
@[simp] theorem onMediaFailure_wires (a1) (a2) (s : State) : wires (onMediaFailure a1 a2 s) = wires s := by
  unfold onMediaFailure
  refine inNs_wires _ _ _ fun t => ?_
  split
  · split
    · exact orderRepair_wires _ _ _ _ _
    · rfl
  · rfl
@[simp] theorem shedAtCoordinator_wires (a1) (a2) (a3) (a4) (a5) (a6) (s : State) : wires (shedAtCoordinator a1 a2 a3 a4 a5 a6 s) = wires s := by
  first | (unfold shedAtCoordinator; (repeat' split) <;> simp [*])
@[simp] theorem onShedRecord_wires (a1) (a2) (a3) (a4) (a5) (a6) (s : State) : wires (onShedRecord a1 a2 a3 a4 a5 a6 s) = wires s := by
  first | (unfold onShedRecord; (repeat' split) <;> simp [*])
@[simp] theorem sendPermit_wires (a1) (s : State) : wires (sendPermit a1 s) = wires s := by
  first | (unfold sendPermit; simp [*])
theorem onLeaseRequest_core (from_ : Nat) (b : LeaseB) (l : Lease) (others : List Lease) (ar : State → List Lease) (s : State) : wires (
    if 1024 ≤ others.length then sendPermit l s
    else
      let t := { s with ice := { s.ice with granted := others ++ [l] } }
      let ls := ar t
      let u := mirror (.milmoState [.lease false l]) { t with ice := { t.ice with granted := ls } }
      match ls.getLast? with | some x => sendPermit x u | none => u) = wires s := by
  split
  · exact sendPermit_wires _ _
  · dsimp only
    split
    · rw [sendPermit_wires, mirror_wires]; rfl
    · rw [mirror_wires]; rfl
@[simp] theorem onLeaseRequest_wires (a1) (a2) (s : State) : wires (onLeaseRequest a1 a2 s) = wires s := by
  exact onLeaseRequest_core a1 a2 _ _ allRates s
@[simp] theorem checkFallback_wires (s : State) : wires (checkFallback s) = wires s := by
  first | (unfold checkFallback; simp [*])
@[simp] theorem onPermit_wires (a1) (a2) (s : State) : wires (onPermit a1 a2 s) = wires s := by
  first | (unfold onPermit; (repeat' split) <;> simp [*])
@[simp] theorem onGatherRequest_wires (a1) (a2) (s : State) : wires (onGatherRequest a1 a2 s) = wires s := by
  first | (unfold onGatherRequest; simp [*])
@[simp] theorem onProbe_wires (a1) (a2) (s : State) : wires (onProbe a1 a2 s) = wires s := by
  first | (unfold onProbe; simp [*])
@[simp] theorem resumeSucc_wires (a1) (s : State) : wires (resumeSucc a1 s) = wires s := by
  first | (unfold resumeSucc; (repeat' split) <;> simp [*])
@[simp] theorem probeAnswered_wires (a1) (s : State) : wires (probeAnswered a1 s) = wires s := by
  first | (unfold probeAnswered; simp [*])
@[simp] theorem onProbeAck_wires (a1) (a2) (s : State) : wires (onProbeAck a1 a2 s) = wires s := by
  first | (unfold onProbeAck; simp [*])
@[simp] theorem onProbeRequest_wires (a1) (a2) (s : State) : wires (onProbeRequest a1 a2 s) = wires s := by
  first | (unfold onProbeRequest; simp [*])
@[simp] theorem onViewDigest_wires (a1) (a2) (s : State) : wires (onViewDigest a1 a2 s) = wires s := by
  first | (unfold onViewDigest; simp [*])
@[simp] theorem onViewSync_wires (a1) (a2) (s : State) : wires (onViewSync a1 a2 s) = wires s := by
  first | (unfold onViewSync; simp [*])
@[simp] theorem handleBody_wires (a1) (a2) (s : State) : wires (handleBody a1 a2 s) = wires s := by
  first | (unfold handleBody; (repeat' split) <;> simp [*])
@[simp] theorem drainMail_wires (a1) (s : State) : wires (drainMail a1 s) = wires s := by
  induction a1 generalizing s with
  | zero => rfl
  | succ n ih => unfold drainMail; grind [handleBody_wires, wires_mk, kwires_keeper]
@[simp] theorem endOrphans_wires (s : State) : wires (endOrphans s) = wires s := by rfl
@[simp] theorem settle_wires (s : State) : wires (settle s) = wires s := by
  first | (unfold settle; simp [*])
@[simp] theorem gram_wires (a1) (a2) (f3) (s : State) (hf3 : ∀ x0, wires (f3 x0) = wires x0) : SameWires s (gram a1 a2 f3 s) := by
  unfold gram; exact onlyIf_wires _ _ _ fun t => onGram_wires _ _ _ _ fun u => by rw [settle_wires]; exact hf3 u
theorem gram_driversHeld (x : Hdr) (b : Body) (f : State → State) (s : State) (hf : ∀ t, Held (wires t) → Held (wires (f t))) : KeepsHeld s (gram x b f s) := by
  unfold gram; exact onlyIf_driversHeld _ _ _ fun t ht => onGram_driversHeld _ _ _ _ ht fun u hu => by rw [settle_wires]; exact hf u hu
theorem andSettle_wires (s : State) (r : Result) (h : SameWires s r) : SameWires s (andSettle r) := by
  unfold andSettle; split
  · rename_i t; rw [sameWires_next] at h ⊢; rw [settle_wires, h]
  · exact h
theorem andSettle_driversHeld (s : State) (r : Result) (h : KeepsHeld s r) : KeepsHeld s (andSettle r) := by
  unfold andSettle; split
  · rename_i t; rw [keepsHeld_next] at h ⊢; rw [settle_wires]; exact h
  · exact h
@[simp] theorem onConn_wires (a1) (a2) (s : State) : wires (onConn a1 a2 s) = wires s := by rfl
@[simp] theorem takeCapsule_wires (a1) (a2) (s : State) : wires (takeCapsule a1 a2 s) = wires s := by
  first | (unfold takeCapsule; simp [*])
@[simp] theorem answer_wires (a1) (a2) (a3) (a4) (s : State) : wires (answer a1 a2 a3 a4 s) = wires s := by
  first | (unfold answer; simp [*])
@[simp] theorem fuse_wires (a1) (a2) (s : State) : wires (fuse a1 a2 s).1 = wires s := by
  first | (unfold fuse; (repeat' split) <;> simp [*])
@[simp] theorem classifyCmd_wires (a1) (a2) (s : State) : wires (classifyCmd a1 a2 s).2 = wires s := by
  first | (unfold classifyCmd; grind [search_wires, SameWires, onlyIf_wires, foldl_wires])
@[simp] theorem countEnded_wires (a1) (s : State) : wires (countEnded a1 s) = wires s := by
  first | (unfold countEnded; (repeat' split) <;> rfl)
@[simp] theorem runIo_wires (a1) (a2) (s : State) (hr : ∀ c t, wires (a1.begin_ c t) = wires t) : wires (runIo a1 a2 s) = wires s := by
  have hc := classifyCmd_wires a1.opc a2 s
  unfold runIo
  split
  · rename_i b hb; rw [hb] at hc; exact hc
  · rename_i c b hb; rw [hb] at hc
    split
    · rw [countEnded_wires, answer_wires]; exact hc
    · split
      · rename_i t ht; rw [hr]; exact (withSalt_wires _ _ _ ht).trans hc
      · rw [answer_wires]; exact hc
@[simp] theorem ioCommand_wires (a1) (a2) (a3) (a4) (s : State) (hr : ∀ c t, wires (a1.begin_ c t) = wires t) : wires (ioCommand a1 a2 a3 a4 s) = wires s := by
  unfold ioCommand
  split
  · exact answer_wires _ _ _ _ _
  · dsimp only
    rw [runIo_wires _ _ _ hr, takeCapsule_wires, fuse_wires]
@[simp] theorem orphanCommands_wires (a1) (s : State) : wires (orphanCommands a1 s) = wires s := by rfl
@[simp] theorem dropConn_wires (a1) (s : State) : wires (dropConn a1 s) = wires s := by
  first | (unfold dropConn; simp [*])
@[simp] theorem endAssociation_wires (a1) (s : State) : wires (endAssociation a1 s) = wires s := by
  first | (unfold endAssociation; simp [*])
@[simp] theorem loseConn_wires (a1) (s : State) : wires (loseConn a1 s) = wires s := by
  first | (unfold loseConn; (repeat' split) <;> simp [*])
@[simp] theorem openConn_wires (a1) (a2) (a3) (a4) (a5) (a6) (s : State) : wires (openConn a1 a2 a3 a4 a5 a6 s) = wires s := by
  first | (unfold openConn; simp [*])
@[simp] theorem endQueue_wires (a1) (s : State) : wires (endQueue a1 s) = wires s := by
  first | (unfold endQueue; simp [*])
@[simp] theorem breakCarrier_wires (a1) (s : State) : wires (breakCarrier a1 s) = wires s := by
  first | (unfold breakCarrier; (repeat' split) <;> simp [*])
@[simp] theorem startStore_wires (a1) (a2) (a3) (a4) (a5) (s : State) : wires (startStore a1 a2 a3 a4 a5 s) = wires s := by
  first | (unfold startStore; (repeat' split) <;> simp [*])
@[simp] theorem startRead__wires (a1) (a2) (a3) (a4) (a5) (a6) (s : State) : wires (startRead_ a1 a2 a3 a4 a5 a6 s) = wires s := by
  first | (unfold startRead_; (repeat' split) <;> simp [*])
@[simp] theorem startList_wires (a1) (a2) (a3) (a4) (a5) (s : State) : wires (startList a1 a2 a3 a4 a5 s) = wires s := by
  first | (unfold startList; (repeat' split) <;> simp [*])
@[simp] theorem runCap_wires (s : State) (a2) : wires (runCap s a2) = wires s := by
  have h : ∀ r, ruleOf a2.opc a2.key = some r → ∀ c t, wires (r.begin_ c t) = wires t := by
    intro r hr c t
    unfold ruleOf at hr
    split at hr <;> cases hr
    · exact answer_wires _ _ _ _ _
    · exact startStore_wires _ _ _ _ _ _
    · exact startRead__wires _ _ _ _ _ _ _
    · exact startList_wires _ _ _ _ _ _
    · exact startStore_wires _ _ _ _ _ _
    · exact startRead__wires _ _ _ _ _ _ _
    · exact startStore_wires _ _ _ _ _ _
    · exact startRead__wires _ _ _ _ _ _ _
    · exact startStore_wires _ _ _ _ _ _
    · exact startRead__wires _ _ _ _ _ _ _
    · exact startRead__wires _ _ _ _ _ _ _
    · exact startList_wires _ _ _ _ _ _
    · exact onConn_wires _ _ _
    · exact startRead__wires _ _ _ _ _ _ _
    · exact startRead__wires _ _ _ _ _ _ _
  unfold runCap
  split
  · rename_i r hr; exact runIo_wires _ _ _ (h r hr)
  · exact answer_wires _ _ _ _ _
@[simp] theorem abortCommand_wires (a1) (a2) (a3) (s : State) : wires (abortCommand a1 a2 a3 s) = wires s := by
  first | (unfold abortCommand; simp [*]; (repeat' split) <;> simp [*])
@[simp] theorem takeAdmin_wires (a1) (a2) (a3) (a4) (a5) (s : State) : wires (takeAdmin a1 a2 a3 a4 a5 s) = wires s := by
  first | (unfold takeAdmin; (repeat' split) <;> simp [*])
@[simp] theorem adm_wires (a1) (a2) (a3) (a4) (f5) (s : State) (hf5 : ∀ x0, wires (f5 x0) = wires x0) : SameWires s (adm a1 a2 a3 a4 f5 s) := by
  unfold adm; exact onlyIf_wires _ _ _ fun t => by rw [mirrorConn_wires, hf5, takeAdmin_wires]
theorem adm_driversHeld (a : Adm) (n m : Nat) (d : List Nat) (f : State → State) (s : State) (hf : ∀ t, Held (wires t) → Held (wires (f t))) : KeepsHeld s (adm a n m d f s) := by
  unfold adm; exact onlyIf_driversHeld _ _ _ fun t ht => by rw [mirrorConn_wires]; exact hf _ (by rw [takeAdmin_wires]; exact ht)
@[simp] theorem reply_wires (a1) (a2) (s : State) : wires (reply a1 a2 s) = wires s := by
  first | (unfold reply; simp [*])
@[simp] theorem mirrorSettings_wires (s : State) : wires (mirrorSettings s) = wires s := by
  first | (unfold mirrorSettings; simp [*])
@[simp] theorem doneSettings_wires (a1) (a2) (s : State) : wires (doneSettings a1 a2 s) = wires s := by
  first | (unfold doneSettings; simp [*])
@[simp] theorem askPower_wires (a1) (a2) (s : State) : wires (askPower a1 a2 s) = wires s := by
  first | (unfold askPower; simp [*])
@[simp] theorem notice_wires (a1) (s : State) : wires (notice a1 s) = wires s := by
  first | (unfold notice; (repeat' split) <;> simp [*])
@[simp] theorem enabledAgain_wires (a1) (s : State) : wires (enabledAgain a1 s) = wires s := by
  first | (unfold enabledAgain; (repeat' split) <;> rfl)
@[simp] theorem endController_wires (a1) (s : State) : wires (endController a1 s) = wires s := by
  first | (unfold endController; simp [*])
@[simp] theorem abandonStores_wires (a1) (s : State) : wires (abandonStores a1 s) = wires s := by
  first | (unfold abandonStores; simp [*])
@[simp] theorem discardUnlaid_wires (a1) (s : State) : wires (discardUnlaid a1 s) = wires s := by
  first | (unfold discardUnlaid; simp [*])
@[simp] theorem moveHolder_wires (a1) (a2) (a3) (a4) (s : State) : wires (moveHolder a1 a2 a3 a4 s) = wires s := by
  first | (unfold moveHolder; simp [*]; (repeat' split) <;> simp [*])
@[simp] theorem rebalanceVer_wires (a1) (a2) (s : State) : wires (rebalanceVer a1 a2 s) = wires s := by
  unfold rebalanceVer
  refine foldl_wires _ _ _ fun t x => ?_
  dsimp only
  have h1 : ∀ l : List (Nat × Nat), wires (l.foldl (fun t h => if beingMoved t a1 a2 x.chunk h.1 then t else moveHolder a1 a2 x h t) t) = wires t :=
    fun l => foldl_wires _ _ _ fun u y => by split; rfl; exact moveHolder_wires _ _ _ _ _
  split
  · rw [foldl_wires, h1]
    intro u p; split
    · rfl
    · split
      · split
        · exact orderRepair_wires _ _ _ _ _
        · rfl
      · rfl
  · exact h1 _
@[simp] theorem askWaiting_wires (s : State) : wires (askWaiting s) = wires s := by
  first | (unfold askWaiting; simp [*])
@[simp] theorem filteredDone_wires (a1) (a2) (s : State) : wires (filteredDone a1 a2 s) = wires s := by
  first | (unfold filteredDone; (repeat' split) <;> simp [*])
@[simp] theorem refuseImage_wires (a1) (a2) (a3) (s : State) : wires (refuseImage a1 a2 a3 s) = wires s := by
  first | (unfold refuseImage; simp [*])
@[simp] theorem fuseFirst_wires (a1) (s : State) : wires (fuseFirst a1 s) = wires s := by
  first | (unfold fuseFirst; simp [*])
@[simp] theorem rotateKey_wires (a1) (s : State) : wires (rotateKey a1 s) = wires s := by
  first | (unfold rotateKey; simp [*])
@[simp] theorem withField_wires (a1) (a2) (a3) (s : State) : wires (withField a1 a2 a3 s) = wires s := by
  first | (unfold withField; simp [*])
@[simp] theorem openPackage_wires (s : State) : wires (openPackage s) = wires s := by
  unfold openPackage
  split
  · rfl
  · dsimp only
    split
    · exact record_wires _ _ _ _
    · rfl
    · rw [drawMasks_wires, withField_wires]
      split
      · rfl
      · split
        · exact record_wires _ _ _ _
        · split
          · rfl
          · split
            · exact (record_wires _ _ _ _).trans rfl
            · exact record_wires _ _ _ _
@[simp] theorem selectImage_wires (a1) (a2) (s : State) : wires (selectImage a1 a2 s) = wires s := by
  first | (unfold selectImage; simp [*])
@[simp] theorem configSelect_wires (s : State) : wires (configSelect s) = wires s := by
  first | (unfold configSelect; simp [*]; (repeat' split) <;> simp [*])
@[simp] theorem resetTunables_wires (a1) (s : State) : wires (resetTunables a1 s) = wires s := by
  first | (unfold resetTunables; simp [*])
@[simp] theorem refusePackage_wires (a1) (a2) (a3) (s : State) : wires (refusePackage a1 a2 a3 s) = wires s := by
  first | (unfold refusePackage; simp [*])
@[simp] theorem markPending_wires (a1) (s : State) : wires (markPending a1 s) = wires s := by
  first | (unfold markPending; (repeat' split) <;> simp [*])
@[simp] theorem stagePackage_wires (a1) (a2) (s : State) : wires (stagePackage a1 a2 s) = wires s := by
  first | (unfold stagePackage; simp [*])
@[simp] theorem activateStaged_wires (s : State) : wires (activateStaged s) = wires s := by
  first | (unfold activateStaged; (repeat' split) <;> simp [*])
@[simp] theorem countUnsafe_wires (s : State) : wires (countUnsafe s) = wires s := by
  first | (unfold countUnsafe; (repeat' split) <;> rfl)
@[simp] theorem beginKeeper_wires (s : State) : wires (beginKeeper s) = wires s := by rfl
@[simp] theorem endRunNow_driversHeld (s : State) (h : Held (wires s)) : Held (wires (endRunNow s)) := by
  first | (unfold endRunNow; grind [endHours_wires, releaseHold_driversHeld, KeepsHeld, onlyIf_driversHeld, Held, wires, kwires])
@[simp] theorem sequencingFailure_wires (a1) (a2) (s : State) : wires (sequencingFailure a1 a2 s) = wires s := by rfl
@[simp] theorem noteClocks_wires (a1) (a2) (s : State) : wires (noteClocks a1 a2 s) = wires s := by rfl
@[simp] theorem freshRun_wires (a1) (s : State) : wires (freshRun a1 s) = wires s := by rfl
@[simp] theorem admitLatched_wires (a1) (s : State) : wires (admitLatched a1 s) = wires s := by
  first | (unfold admitLatched; simp [*])
@[simp] theorem recordStart_wires (s : State) : wires (recordStart s) = wires s := by
  first | (unfold recordStart; (repeat' split) <;> (try simp [*]) <;> rfl)
@[simp] theorem recordSkipped_wires (a1) (a2) (s : State) : wires (recordSkipped a1 a2 s) = wires s := by
  first | (unfold recordSkipped; simp [*])
@[simp] theorem recordWake_wires (s : State) : wires (recordWake s) = wires s := by
  first | (unfold recordWake; simp [*])
@[simp] theorem recordBank_wires (s : State) : wires (recordBank s) = wires s := by
  first | (unfold recordBank; simp [*]; (repeat' split) <;> simp [*])
@[simp] theorem recordKats_driversHeld (a1) (s : State) (h : Held (wires s)) : Held (wires (recordKats a1 s)) := by
  first | (unfold recordKats; repeat' (first | (simp +contextual [*] <;> fail) | (with_reducible (refine foldl_driversHeld _ _ _ ?_ ?_; rotate_left; intro _ _ _)) | (with_reducible (apply onlyIf_driversHeld; intro _ _)) | split))
@[simp] theorem firstRecords_driversHeld (a1) (a2) (a3) (a4) (s : State) (h : Held (wires s)) : Held (wires (firstRecords a1 a2 a3 a4 s)) := by
  first | (unfold firstRecords; simp +contextual [*])
@[simp] theorem sendCopies_wires (s : State) : wires (sendCopies s) = wires s := by
  first | (unfold sendCopies; simp [*])
@[simp] theorem beginCopies_wires (s : State) : wires (beginCopies s) = wires s := by
  first | (unfold beginCopies; simp [*])
@[simp] theorem probeFailed_wires (a1) (s : State) : wires (probeFailed a1 s) = wires s := by
  first | (unfold probeFailed; simp [*])
@[simp] theorem askView_wires (s : State) : wires (askView s) = wires s := by
  first | (unfold askView; (repeat' split) <;> simp [*])
@[simp] theorem joinStandby_wires (s : State) : wires (joinStandby s) = wires s := by
  first | (unfold joinStandby; (repeat' split) <;> (try simp [*]) <;> rfl)
@[simp] theorem startFirst_driversHeld (a1) (s : State) (h : Held (wires s)) : Held (wires (startFirst a1 s)) := by
  unfold startFirst
  refine driveHold_driversHeld _ ?_
  show Held (wires (journal _ _))
  rw [journal_wires]
  split
  · rw [record_wires]; exact h
  · exact h
@[simp] theorem takeRole_driversHeld (s : State) (h : Held (wires s)) : Held (wires (takeRole s)) := by
  first | (unfold takeRole; (repeat' split) <;> simp +contextual [*])
@[simp] theorem beginView_wires (s : State) : wires (beginView s) = wires s := by
  first | (unfold beginView; simp [*])
@[simp] theorem discover_wires (s : State) : wires (discover s) = wires s := by
  first | (unfold discover; simp [*])
@[simp] theorem trainAll_wires (s : State) : wires (trainAll s) = wires s := by rfl
@[simp] theorem restoreCornice_wires (s : State) : wires (restoreCornice s) = wires s := by
  unfold restoreCornice
  split
  · rfl
  · dsimp only
    refine (foldl_wires _ _ _ ?_).trans rfl
    intro t x; exact recordRule_wires _ _ _ _
@[simp] theorem dropTorn_wires (s : State) : wires (dropTorn s) = wires s := by rfl
@[simp] theorem rebuildTable_wires (s : State) : wires (rebuildTable s) = wires s := by
  first | (unfold rebuildTable; grind [SameWires, onlyIf_wires, foldl_wires, wires, kwires])
@[simp] theorem reloadKeyway_wires (s : State) : wires (reloadKeyway s) = wires s := by
  first | (unfold reloadKeyway; simp [*])
@[simp] theorem recount_wires (s : State) : wires (recount s) = wires s := by rfl
@[simp] theorem closeEarly_wires (a1) (s : State) : wires (closeEarly a1 s) = wires s := by
  first | (unfold closeEarly; simp [*])
@[simp] theorem settleAtStart_wires (a1) (s : State) : wires (settleAtStart a1 s) = wires s := by
  first | (unfold settleAtStart; simp [*])
@[simp] theorem settleFlash_wires (s : State) : wires (settleFlash s) = wires s := by
  first | (unfold settleFlash; simp [*])
@[simp] theorem loadReadCounters_wires (s : State) : wires (loadReadCounters s) = wires s := by rfl
@[simp] theorem giveUpSpills_wires (s : State) : wires (giveUpSpills s) = wires s := by rfl
@[simp] theorem rederiveRepairs_wires (s : State) : wires (rederiveRepairs s) = wires s := by
  unfold rederiveRepairs
  refine foldl_wires _ _ _ fun t r => ?_
  refine foldl_wires _ _ _ fun t v => ?_
  refine (foldl_wires _ _ _ fun t x => ?_).trans (ladderUnit_wires _ _ _)
  refine foldl_wires _ _ _ fun t p => ?_
  split
  · split
    · exact orderRepair_wires _ _ _ _ _
    · rfl
  · rfl
@[simp] theorem takeService_wires (s : State) : wires (takeService s) = wires s := by
  first | (unfold takeService; simp [*])
@[simp] theorem stampStep_wires (s : State) : wires (stampStep s) = wires s := by rfl
@[simp] theorem lendBuses_driversHeld (s : State) (h : Held (wires s)) : Held (wires (lendBuses s)) := by
  first | (unfold lendBuses; grind [sendFrame_wires, releaseHold_driversHeld, KeepsHeld, onlyIf_driversHeld, Held, wires, kwires])
@[simp] theorem startStep_driversHeld (s : State) (h : Held (wires s)) : Held (wires (startStep s)) := by
  first | (unfold startStep; grind [followGate_driversHeld, beginView_wires, stampStep_wires, trainAll_wires, discover_wires, lendBuses_driversHeld, record_wires, driveHold_driversHeld, restoreCornice_wires, reloadKeyway_wires, giveUpSpills_wires, loadReadCounters_wires, settleFlash_wires, takeService_wires, reportGauge_wires, beginServing_wires, KeepsHeld, onlyIf_driversHeld, Held, wires, kwires])
@[simp] theorem startRounds_driversHeld (a1) (s : State) (h : Held (wires s)) : Held (wires (startRounds a1 s)) := by
  induction a1 generalizing s with
  | zero => exact h
  | succ n ih => unfold startRounds; apply ih; split; exact startStep_driversHeld s h; exact h
@[simp] theorem startProgress_driversHeld (s : State) (h : Held (wires s)) : Held (wires (startProgress s)) := by
  first | (unfold startProgress; (repeat' split) <;> simp +contextual [*])
@[simp] theorem afterConfig_driversHeld (s : State) (h : Held (wires s)) : Held (wires (afterConfig s)) := by
  first | (unfold afterConfig; simp +contextual [*]; (repeat' split) <;> simp +contextual [*])
@[simp] theorem startLinks_wires (s : State) : wires (startLinks s) = wires s := by
  first | (unfold startLinks; simp [*])
@[simp] theorem confirmGood_wires (s : State) : wires (confirmGood s) = wires s := by
  first | (unfold confirmGood; (repeat' split) <;> rfl)
@[simp] theorem takeConns_wires (s : State) : wires (takeConns s) = wires s := by rfl
@[simp] theorem countOp_wires (a1) (s : State) : wires (countOp a1 s) = wires s := by rfl
@[simp] theorem resumeOne_wires (s : State) (a2) : wires (resumeOne s a2) = wires s := by
  first | (unfold resumeOne; simp [*])
@[simp] theorem resumeOps_wires (s : State) : wires (resumeOps s) = wires s := by
  first | (unfold resumeOps; simp [*])
@[simp] theorem resumeConns_wires (s : State) : wires (resumeConns s) = wires s := by
  first | (unfold resumeConns; simp [*])
@[simp] theorem takeProgress_wires (s : State) : wires (takeProgress s) = wires s := by
  first | (unfold takeProgress; (repeat' split) <;> simp [*])
@[simp] theorem continueFlush_wires (s : State) : wires (continueFlush s) = wires s := by
  first | (unfold continueFlush; (repeat' split) <;> simp [*])
@[simp] theorem resumeActive_driversHeld (s : State) (h : Held (wires s)) : Held (wires (resumeActive s)) := by
  first | (unfold resumeActive; grind [driveHold_driversHeld, raiseAsync_wires, setRaised_wires, record_wires, resumeOps_wires, announceNow_wires, KeepsHeld, onlyIf_driversHeld, Held, wires, kwires])
@[simp] theorem finishCopy_wires (a1) (s : State) : wires (finishCopy a1 s).1 = wires s := by
  first | (unfold finishCopy; (repeat' split) <;> simp [*])
@[simp] theorem enterRecovery_wires (s : State) : wires (enterRecovery s) = wires s := by rfl
@[simp] theorem unwrapKeys_wires (a1) (s : State) : wires (unwrapKeys a1 s) = wires s := by
  first | (unfold unwrapKeys; simp [*])
@[simp] theorem releaseRun_driversHeld (a1) (s : State) (h : Held (wires s)) : Held (wires (releaseRun a1 s)) := by
  first | (unfold releaseRun; simp +contextual [*])
@[simp] theorem retrySlots_driversHeld (s : State) (h : Held (wires s)) : Held (wires (retrySlots s)) := by
  first | (unfold retrySlots; simp +contextual [*]; (repeat' split) <;> simp +contextual [*])
@[simp] theorem borrow_driversHeld (s : State) (h : Held (wires s)) : Held (wires (borrow s)) := by
  first | (unfold borrow; grind [driveHold_driversHeld, KeepsHeld, onlyIf_driversHeld, Held, wires, kwires])
@[simp] theorem returnLend_driversHeld (s : State) (h : Held (wires s)) : Held (wires (returnLend s)) := by
  first | (unfold returnLend; grind [sendFrame_wires, releaseHold_driversHeld, KeepsHeld, onlyIf_driversHeld, Held, wires, kwires])
@[simp] theorem borrowProgress_driversHeld (s : State) (h : Held (wires s)) : Held (wires (borrowProgress s)) := by
  first | (unfold borrowProgress; simp +contextual [*]; (repeat' split) <;> simp +contextual [*])
@[simp] theorem noteSignal_wires (a1) (s : State) : wires (noteSignal a1 s) = wires s := by
  first | (unfold noteSignal; simp [*])
@[simp] theorem checkSignals_wires (s : State) : wires (checkSignals s) = wires s := by
  first | (unfold checkSignals; simp [*]; (repeat' split) <;> simp [*])
@[simp] theorem roleAfresh_driversHeld (s : State) (h : Held (wires s)) : Held (wires (roleAfresh s)) := by
  first | (unfold roleAfresh; grind [takeRole_driversHeld, KeepsHeld, onlyIf_driversHeld, Held, wires, kwires])
theorem collide_off (s : State) : Held (wires (collide s)) := by
  unfold collide
  extract_lets held src a src2 b
  have hw : wires a = (false, s.keeper.holdOut, s.keeper.holdIn) := record_wires _ _ _ _
  have ha : Held (wires a) := by rw [hw]; intro h; cases h
  have hd : a.keeper.drivers = false := congrArg Prod.fst hw
  split
  · rw [noteHold_wires]; exact ha
  · refine roleAfresh_driversHeld _ ?_
    show Held (wires (if held = true then releaseHold a else sendStatus _))
    split
    · exact releaseHold_driversHeld _ ha
    · rw [sendStatus_wires]
      intro h; exact absurd (hd.symm.trans h) (by decide)
@[simp] theorem collide_driversHeld (s : State) (h : Held (wires s)) : Held (wires (collide s)) := by
  exact collide_off s
@[simp] theorem waitJoin_wires (s : State) : wires (waitJoin s) = wires s := by
  first | (unfold waitJoin; simp [*])
@[simp] theorem missedFeed_driversHeld (s : State) (h : Held (wires s)) : Held (wires (missedFeed s)) := by
  first | (unfold missedFeed; grind [releaseHold_driversHeld, KeepsHeld, onlyIf_driversHeld, Held, wires, kwires])
@[simp] theorem unseen_wires (a1) (s : State) : wires (unseen a1 s).2 = wires s := by rfl
@[simp] theorem laidBytes_wires (a1) (s : State) : wires (laidBytes a1 s).2 = wires s := by
  first | (unfold laidBytes; (repeat' split) <;> rfl)
@[simp] theorem learnGrains_wires (a1) (s : State) : wires (learnGrains a1 s) = wires s := by
  first | (unfold learnGrains; simp [*])
@[simp] theorem forgetGrains_wires (a1) (s : State) : wires (forgetGrains a1 s) = wires s := by rfl
@[simp] theorem applyRec_wires (s : State) (a2) : wires (applyRec s a2) = wires s := by
  first | (unfold applyRec; (repeat' split) <;> simp [*])
@[simp] theorem applyJournal_wires (a1) (a2) (s : State) : wires (applyJournal a1 a2 s) = wires s := by
  first | (unfold applyJournal; simp [*])
@[simp] theorem onSelected_wires (a1) (s : State) : wires (onSelected a1 s) = wires s := by rfl
@[simp] theorem addCap_wires (a1) (s : State) : wires (addCap a1 s) = wires s := by rfl
@[simp] theorem applyTransport_wires (s : State) (a2) : wires (applyTransport s a2) = wires s := by
  first | (unfold applyTransport; (repeat' split) <;> rfl)
@[simp] theorem applyOps_wires (a1) (a2) (s : State) : wires (applyOps a1 a2 s) = wires s := by rfl
@[simp] theorem noteView_wires (a1) (s : State) (s3 : State) : wires (noteView a1 s s3) = wires s3 := by
  rfl
@[simp] theorem applyView_wires (a1) (s : State) : wires (applyView a1 s) = wires s := by
  first | (unfold applyView; (repeat' split) <;> rfl)
@[simp] theorem applyMilmo_wires (s : State) (a2) : wires (applyMilmo s a2) = wires s := by
  first | (unfold applyMilmo; (repeat' split) <;> simp [*])
@[simp] theorem resetJoin_wires (s : State) : wires (resetJoin s) = wires s := by
  first | (unfold resetJoin; simp [*])
@[simp] theorem beginCopy_wires (s : State) : wires (beginCopy s) = wires s := by
  first | (unfold beginCopy; (repeat' split) <;> rfl)
@[simp] theorem applyCopyFirn_wires (a1) (a2) (a3) (a4) (s : State) : wires (applyCopyFirn a1 a2 a3 a4 s) = wires s := by
  first | (unfold applyCopyFirn; simp [*])
@[simp] theorem applyGranule_wires (a1) (a2) (a3) (s : State) : wires (applyGranule a1 a2 a3 s) = wires s := by rfl
@[simp] theorem stageDone_wires (a1) (a2) (s : State) : wires (stageDone a1 a2 s) = wires s := by
  first | (unfold stageDone; simp [*])
@[simp] theorem refuseJoin_driversHeld (a1) (s : State) (h : Held (wires s)) : Held (wires (refuseJoin a1 s)) := by
  first | (unfold refuseJoin; simp +contextual [*]; (repeat' split) <;> simp +contextual [*])
@[simp] theorem beginSession_wires (a1) (a2) (s : State) : wires (beginSession a1 a2 s) = wires s := by
  unfold beginSession
  have e : wires (if s.twin.helloSent then s else sendHello s) = wires s := by split; rfl; exact sendHello_wires _
  have k : ∀ (a : State) (w : Twin), wires a = wires s →
      wires (if w.roleState = .standby ∧ w.joinStage ≠ 3 then sendFrame (.joinStage 0 0) (resetJoin { a with twin := w }) else { a with twin := w }) = wires s := by
    intro a w g
    split
    · rw [sendFrame_wires, resetJoin_wires]; exact g
    · exact g
  exact k _ _ e
@[simp] theorem standbyStatus_wires (a1) (s : State) : wires (standbyStatus a1 s) = wires s := by
  first | (unfold standbyStatus; simp [*])
@[simp] theorem afterPlanned_wires (a1) (a2) (s : State) : wires (afterPlanned a1 a2 s) = wires s := by
  first | (unfold afterPlanned; (repeat' split) <;> simp [*])
@[simp] theorem joinAsked_wires (s : State) : wires (joinAsked s) = wires s := by
  first | (unfold joinAsked; simp [*])
@[simp] theorem linkBack_driversHeld (s : State) (h : Held (wires s)) : Held (wires (linkBack s)) := by
  first | (unfold linkBack; grind [criterionTrue_driversHeld, KeepsHeld, onlyIf_driversHeld, Held, wires, kwires])
@[simp] theorem onShutdown_wires (a1) (s : State) : wires (onShutdown a1 s) = wires s := by rfl
@[simp] theorem endStep_wires (s : State) : wires (endStep s) = wires s := by rfl
@[simp] theorem spillRest_wires (s : State) : wires (spillRest s) = wires s := by
  first | (unfold spillRest; (repeat' split) <;> simp [*])
@[simp] theorem lastSteps_driversHeld (s : State) (h : Held (wires s)) : Held (wires (lastSteps s)) := by
  first | (unfold lastSteps; simp +contextual [*]; (repeat' split) <;> simp +contextual [*])
@[simp] theorem closeDown_driversHeld (s : State) (h : Held (wires s)) : Held (wires (closeDown s)) := by
  first | (unfold closeDown; simp +contextual [*])
@[simp] theorem leaveJoin_wires (s : State) : wires (leaveJoin s) = wires s := by
  first | (unfold leaveJoin; simp [*])
@[simp] theorem beginDrain_driversHeld (s : State) (h : Held (wires s)) : Held (wires (beginDrain s)) := by
  first | (unfold beginDrain; (repeat' split) <;> simp +contextual [*])
@[simp] theorem beginShutdown_driversHeld (a1) (s : State) (h : Held (wires s)) : Held (wires (beginShutdown a1 s)) := by
  first | (unfold beginShutdown; simp +contextual [*]; (repeat' split) <;> simp +contextual [*])
@[simp] theorem notifyShutdown_driversHeld (a1) (s : State) (h : Held (wires s)) : Held (wires (notifyShutdown a1 s)) := by
  first | (unfold notifyShutdown; (repeat' split) <;> simp +contextual [*])
theorem shutdownProgress_core (b : Bool) (s : State) (h : Held (wires s)) : Held (wires (
    let t := powerDown b s
    { t with start := { t.start with shutdown := none } })) := powerDown_driversHeld b s h
@[simp] theorem shutdownProgress_driversHeld (s : State) (h : Held (wires s)) : Held (wires (shutdownProgress s)) := by
  unfold shutdownProgress
  split
  · exact h
  · split
    · split
      · exact beginShutdown_driversHeld _ _ h
      · exact h
    · split
      · exact beginDrain_driversHeld _ (by rw [onShutdown_wires]; exact h)
      · exact h
    · split
      · rw [endStep_wires]; exact h
      · exact h
    · split
      · exact closeDown_driversHeld _ (by rw [endStep_wires]; exact h)
      · exact h
    · exact closeDown_driversHeld _ h
    · split
      · exact shutdownProgress_core _ s h
      · exact h
    · exact h
@[simp] theorem ctrlProgress_wires (s : State) : wires (ctrlProgress s) = wires s := by rfl
@[simp] theorem plannedProgress_wires (s : State) : wires (plannedProgress s) = wires s := by
  first | (unfold plannedProgress; (repeat' split) <;> simp [*])
@[simp] theorem refuseAdm_wires (a1) (a2) (s : State) : wires (refuseAdm a1 a2 s) = wires s := by
  first | (unfold refuseAdm; simp [*])
@[simp] theorem refuseIncoming_wires (a1) (a2) (a3) (s : State) : wires (refuseIncoming a1 a2 a3 s) = wires s := by
  first | (unfold refuseIncoming; simp [*])
@[simp] theorem takeBytes_wires (a1) (a2) (a3) (s : State) : wires (takeBytes a1 a2 a3 s) = wires s := by
  unfold takeBytes
  extract_lets j
  split
  · exact (refuseAdm_wires _ _ _).trans rfl
  · split
    · exact refuseIncoming_wires _ _ _ _
    · exact (done_wires _ _ _).trans rfl
@[simp] theorem restartNow_driversHeld (s : State) (h : Held (wires s)) : Held (wires (restartNow s)) := by
  first | (unfold restartNow; grind [dueWarm_wires, sendFrame_wires, beginPlanned_wires, beginDrain_driversHeld, KeepsHeld, onlyIf_driversHeld, Held, wires, kwires])
@[simp] theorem restartProgress_driversHeld (s : State) (h : Held (wires s)) : Held (wires (restartProgress s)) := by
  unfold restartProgress
  split
  · rename_i conn cid intr _
    have k : ∀ (t : State) (p q : Prop) [Decidable p] [Decidable q], wires t = wires s →
        Held (wires (if p then t else if q then restartNow { t with boot := { t.boot with restart := none } }
          else { t with boot := { t.boot with restart := none } })) := by
      intro t p q _ _ g
      rw [← g] at h
      (repeat' split)
      · exact h
      · exact restartNow_driversHeld _ h
      · exact h
    split
    · exact h
    · exact k _ _ _ (complete_wires _ _ _ _ _ _ _ _)
  · exact h
@[simp] theorem commitImage_driversHeld (a1) (a2) (a3) (s : State) (h : Held (wires s)) : Held (wires (commitImage a1 a2 a3 s)) := by
  unfold commitImage
  have e : ∀ t : State, wires t = wires s → Held (wires (done a1 stOk t)) := fun t k => by rw [done_wires, k]; exact h
  have k : ∀ (t : State) (p : Prop) [Decidable p], wires t = wires s → Held (wires (if p then retrySlots (done a1 stOk t) else done a1 stOk t)) := by
    intro t p _ g
    split
    · exact retrySlots_driversHeld _ (e _ g)
    · exact e _ g
  have c : ∀ (r : Option (Nat × Nat × Nat)) (f : Nat × Nat × Nat → State) (g : State), (∀ x, Held (wires (f x))) → Held (wires g) →
      Held (wires (match r with | some x => f x | none => g)) := by intro r f g h1 h2; cases r; exact h2; exact h1 _
  refine c _ _ _ (fun r => ?_) (k _ _ (record_wires _ _ _ _))
  rw [done_wires, refuseImage_wires]; exact h
@[simp] theorem commitIncoming_wires (a1) (a2) (a3) (s : State) : wires (commitIncoming a1 a2 a3 s) = wires s := by
  first | (unfold commitIncoming; (repeat' split) <;> simp [*])
@[simp] theorem commitStaged_wires (a1) (s : State) : wires (commitStaged a1 s) = wires s := by
  first | (unfold commitStaged; simp [*])
@[simp] theorem commitRestart_driversHeld (a1) (a2) (s : State) (h : Held (wires s)) : Held (wires (commitRestart a1 a2 s)) := by
  first | (unfold commitRestart; simp +contextual [*]; (repeat' split) <;> simp +contextual [*])
@[simp] theorem firmwareCommit_driversHeld (a1) (a2) (a3) (a4) (s : State) (h : Held (wires s)) : Held (wires (firmwareCommit a1 a2 a3 a4 s)) := by
  first | (unfold firmwareCommit; (repeat' split) <;> simp +contextual [*])
@[simp] theorem tftpAck_wires (a1) (a2) (s : State) : wires (tftpAck a1 a2 s) = wires s := by rfl
@[simp] theorem tftpError_wires (a1) (a2) (a3) (s : State) : wires (tftpError a1 a2 a3 s) = wires s := by rfl
@[simp] theorem tftpRefuse_wires (a1) (a2) (a3) (s : State) : wires (tftpRefuse a1 a2 a3 s) = wires s := by
  first | (unfold tftpRefuse; simp [*])
@[simp] theorem tftpWrite_wires (a1) (s : State) : wires (tftpWrite a1 s) = wires s := by
  first | (unfold tftpWrite; simp [*])
@[simp] theorem sendFwd_wires (a1) (a2) (a3) (s : State) : wires (sendFwd a1 a2 a3 s) = wires s := by
  first | (unfold sendFwd; simp [*])
@[simp] theorem setTarget_wires (a1) (a2) (s : State) : wires (setTarget a1 a2 s) = wires s := by
  first | (unfold setTarget; (repeat' split) <;> simp [*])
@[simp] theorem moveOn_wires (a1) (a2) (a3) (s : State) : wires (moveOn a1 a2 a3 s) = wires s := by
  first | (unfold moveOn; simp [*])
@[simp] theorem onForwarder_wires (a1) (s : State) : wires (onForwarder a1 s) = wires s := by rfl
@[simp] theorem keepTarget_wires (a1) (s : State) : wires (keepTarget a1 s) = wires s := by
  first | (unfold keepTarget; (repeat' split) <;> simp [*])
@[simp] theorem segments_wires (a1) (a2) (a3) (a4) (a5) (a6) (s : State) : wires (segments a1 a2 a3 a4 a5 a6 s) = wires s := by
  induction a4 generalizing a5 a6 s with
  | zero => rfl
  | succ n ih => unfold segments; grind [sendFwd_wires]
@[simp] theorem pullNext_wires (a1) (a2) (s : State) : wires (pullNext a1 a2 s) = wires s := by
  first | (unfold pullNext; simp [*])
@[simp] theorem answerStaged_wires (a1) (a2) (s : State) : wires (answerStaged a1 a2 s) = wires s := by
  first | (unfold answerStaged; simp [*])
@[simp] theorem refuseChain_wires (a1) (a2) (a3) (s : State) : wires (refuseChain a1 a2 a3 s) = wires s := by
  first | (unfold refuseChain; simp [*])
@[simp] theorem twinTurn_wires (a1) (s : State) : wires (twinTurn a1 s) = wires s := by
  first | (unfold twinTurn; simp [*])
@[simp] theorem activationProgress_driversHeld (s : State) (h : Held (wires s)) : Held (wires (activationProgress s)) := by
  first | (unfold activationProgress; simp +contextual [*]; (repeat' split) <;> simp +contextual [*])
@[simp] theorem crossedEvict_wires (a1) (a2) (s : State) : wires (crossedEvict a1 a2 s) = wires s := by rfl
@[simp] theorem dataAtDir_wires (a1) (a2) (a3) (a4) (s : State) : wires (dataAtDir a1 a2 a3 a4 s) = wires s := by
  first | (unfold dataAtDir; simp [*])
@[simp] theorem dataAtRequester_wires (a1) (a2) (a3) (a4) (s : State) : wires (dataAtRequester a1 a2 a3 a4 s) = wires s := by
  first | (unfold dataAtRequester; simp [*])
@[simp] theorem withDelta_wires (a1) (s : State) : wires (withDelta a1 s) = wires s := by rfl
@[simp] theorem releaseSegments_wires (s : State) : wires (releaseSegments s) = wires s := by
  unfold releaseSegments
  extract_lets gone t
  have ht : wires t = wires s := withDelta_wires _ _
  split
  · exact ht
  · exact (deadMeta_wires _ _).trans ht
@[simp] theorem endGeneration_wires (s : State) : wires (endGeneration s) = wires s := by rfl
@[simp] theorem writeGranule_wires (a1) (a2) (s : State) : wires (writeGranule a1 a2 s) = wires s := by
  unfold writeGranule
  extract_lets place src a
  have ha : wires a = wires s := by simp only [a]; split <;> first | rfl | exact (addBg_wires _ _ _ _ _).trans rfl
  split
  · rename_i t heq; have h := congrArg (fun p => wires p.2) heq; simp only [metaWrite_wires, deadMeta_wires] at h; exact h.symm.trans ha
  · rename_i t heq; have h := congrArg (fun p => wires p.2) heq; simp only [metaWrite_wires, deadMeta_wires] at h
    extract_lets others src2 b
    have hb : wires b = wires s := (show wires b = wires t from rfl).trans (h.symm.trans ha)
    split
    · rw [releaseSegments_wires]
      split
      · exact (endGeneration_wires _).trans hb
      · exact hb
    · exact hb
@[simp] theorem rebuildEntry_wires (a1) (s : State) (a3) : wires (rebuildEntry a1 s a3) = wires s := by
  first | (unfold rebuildEntry; simp [*]; (repeat' split) <;> simp [*])
@[simp] theorem writeRun_wires (a1) (s : State) : wires (writeRun a1 s).2 = wires s := by
  first | (unfold writeRun; simp [*])
@[simp] theorem reportLost_wires (s : State) : wires (reportLost s) = wires s := by
  first | (unfold reportLost; (repeat' split) <;> simp [*])
@[simp] theorem stepTime_wires (a1) (s : State) : wires (stepTime a1 s) = wires s := by
  first | (unfold stepTime; (repeat' split) <;> rfl)
@[simp] theorem requestVdd_wires (a1) (s : State) : wires (requestVdd a1 s) = wires s := by rfl
@[simp] theorem noteDeficit_wires (a1) (s : State) : wires (noteDeficit a1 s) = wires s := by
  first | (unfold noteDeficit; (repeat' split) <;> rfl)
@[simp] theorem takeWindow_wires (a1) (s : State) : wires (takeWindow a1 s) = wires s := by
  unfold takeWindow
  rw [noteDeficit_wires]
  dsimp only
  split
  · exact (requestVdd_wires _ _).trans rfl
  · rfl
@[simp] theorem unheldFail_driversHeld (a1) (s : State) (h : Held (wires s)) : Held (wires (unheldFail a1 s)) := by
  first | (unfold unheldFail; (repeat' split) <;> simp +contextual [*])
@[simp] theorem hotStop_driversHeld (s : State) (h : Held (wires s)) : Held (wires (hotStop s)) := by
  first | (unfold hotStop; (repeat' split) <;> simp +contextual [*])
@[simp] theorem thermalBegin_driversHeld (a1) (a2) (s : State) (h : Held (wires s)) : Held (wires (thermalBegin a1 a2 s)) := by
  first | (unfold thermalBegin; simp +contextual [*]; (repeat' split) <;> simp +contextual [*])
@[simp] theorem thermalCool_wires (a1) (a2) (s : State) : wires (thermalCool a1 a2 s) = wires s := by
  first | (unfold thermalCool; (repeat' split) <;> rfl)
@[simp] theorem thermalRow_driversHeld (a1) (s : State) (a3) (h : Held (wires s)) : Held (wires (thermalRow a1 s a3)) := by
  first | (unfold thermalRow; (repeat' split) <;> simp +contextual [*])
@[simp] theorem takeUpsets_wires (a1) (a2) (s : State) : wires (takeUpsets a1 a2 s) = wires s := by rfl
@[simp] theorem retireWardBank_wires (s : State) (a2) : wires (retireWardBank s a2) = wires s := by
  first | (unfold retireWardBank; simp [*])
@[simp] theorem when_wires (a1) (f2) (s : State) (hf2 : ∀ x0, wires (f2 x0) = wires x0) : wires (when a1 f2 s) = wires s := by
  first | (unfold when; simp [*])
theorem when_driversHeld (b : Bool) (f : State → State) (s : State) (h : Held (wires s)) (hf : ∀ t, Held (wires t) → Held (wires (f t))) : Held (wires (when b f s)) := by
  unfold when; split; exact hf s h; exact h
@[simp] theorem retake_driversHeld (s : State) (h : Held (wires s)) : Held (wires (retake s)) := by
  unfold retake
  split
  · exact when_driversHeld _ _ _ h fun t ht => takeRole_driversHeld _ ht
  · exact h
@[simp] theorem trainOne_wires (a1) (s : State) : wires (trainOne a1 s) = wires s := by rfl
@[simp] theorem trainLate_wires (s : State) : wires (trainLate s) = wires s := by
  first | (unfold trainLate; (repeat' split) <;> simp [*])
@[simp] theorem forgetCriterion_wires (s : State) : wires (forgetCriterion s) = wires s := by
  first | (unfold forgetCriterion; simp [*])
@[simp] theorem yieldLate_driversHeld (s : State) (h : Held (wires s)) : Held (wires (yieldLate s)) := by
  unfold yieldLate
  exact when_driversHeld _ _ _ h fun t ht => doYield_driversHeld _ _ _ ht
@[simp] theorem rejoin_wires (s : State) : wires (rejoin s) = wires s := by
  first | (unfold rejoin; simp [*])
@[simp] theorem clockFault_driversHeld (s : State) (h : Held (wires s)) : Held (wires (clockFault s)) := by
  unfold clockFault; exact when_driversHeld _ _ _ h fun t ht => criterionTrue_driversHeld _ _ _ ht
@[simp] theorem regionFault_driversHeld (s : State) (h : Held (wires s)) : Held (wires (regionFault s)) := by
  unfold regionFault; exact when_driversHeld _ _ _ h fun t ht => judgeRegions_driversHeld _ ht
@[simp] theorem moveCommands_wires (s : State) : wires (moveCommands s) = wires s := by
  first | (unfold moveCommands; (repeat' split) <;> rfl)
@[simp] theorem criteriaProgress_driversHeld (s : State) (h : Held (wires s)) : Held (wires (criteriaProgress s)) := by
  unfold criteriaProgress
  extract_lets b a
  have hb : Held (wires b) := when_driversHeld _ _ _ (regionFault_driversHeld _ (clockFault_driversHeld _ h)) fun t ht => by rw [moveCommands_wires]; exact ht
  have ha : Held (wires a) := when_driversHeld _ _ _ hb fun t ht => by rw [forgetCriterion_wires]; exact ht
  exact when_driversHeld _ _ _ (yieldLate_driversHeld _ ha) fun t ht => by rw [rejoin_wires]; exact ht
@[simp] theorem eraseProgress_wires (s : State) : wires (eraseProgress s) = wires s := by
  first | (unfold eraseProgress; grind [when_wires, SameWires, onlyIf_wires, foldl_wires, wires, kwires])
@[simp] theorem forgetRetake_wires (s : State) : wires (forgetRetake s) = wires s := by
  first | (unfold forgetRetake; grind [when_wires, SameWires, onlyIf_wires, foldl_wires, wires, kwires])
@[simp] theorem passTime_wires (s : State) : wires (passTime s) = wires s := by rfl
@[simp] theorem roleProgress_driversHeld (s : State) (h : Held (wires s)) : Held (wires (roleProgress s)) := by
  unfold roleProgress
  rw [forgetRetake_wires]
  refine criteriaProgress_driversHeld _ (when_driversHeld _ _ _ (followGate_driversHeld _ h) fun t ht => ?_)
  rw [checkSignals_wires, waitJoin_wires]
  exact retake_driversHeld _ (borrowProgress_driversHeld _ ht)
@[simp] theorem runProgress_driversHeld (s : State) (h : Held (wires s)) : Held (wires (runProgress s)) := by
  unfold runProgress
  rw [ctrlProgress_wires]
  refine shutdownProgress_driversHeld _ (when_driversHeld _ _ _ h fun t ht => ?_)
  rw [plannedProgress_wires, takeProgress_wires, trainLate_wires]
  exact startProgress_driversHeld _ ht
@[simp] theorem updateProgress_driversHeld (s : State) (h : Held (wires s)) : Held (wires (updateProgress s)) := by
  unfold updateProgress
  exact when_driversHeld _ _ _ h fun t ht => activationProgress_driversHeld _ (restartProgress_driversHeld _ (by rw [eraseProgress_wires]; exact ht))
@[simp] theorem tick_driversHeld (s : State) (h : Held (wires s)) : Held (wires (tick s)) := by
  first | (unfold tick; grind [drainTx_wires, updateProgress_driversHeld, runProgress_driversHeld, roleProgress_driversHeld, passTime_wires, KeepsHeld, onlyIf_driversHeld])
end Sys2Proof.Machine
end

