-- ==== Sys2Proof/Laws/HoldExec.lean ====
section
/-! SUPPORT. The same of the meaning of every command. -/

namespace Sys2Proof.Machine

@[simp] theorem execGaugePeriodTimer_wires (s : State) : SameWires s (execGaugePeriodTimer s) := by
  first | (unfold execGaugePeriodTimer; simp [*])
@[simp] theorem execGaugeRetryTimer_wires (s : State) : SameWires s (execGaugeRetryTimer s) := by
  first | (unfold execGaugeRetryTimer; (repeat' split) <;> simp [*])
@[simp] theorem execGaugeTestStart_wires (a1) (s : State) : SameWires s (execGaugeTestStart a1 s) := by
  first | (unfold execGaugeTestStart; grind [SameWires, onlyIf_wires, foldl_wires, wires, kwires])
@[simp] theorem execGaugeTestComplete_wires (a1) (a2) (a3) (s : State) : SameWires s (execGaugeTestComplete a1 a2 a3 s) := by
  first | (unfold execGaugeTestComplete; grind [testFailed_wires, testDone_wires, SameWires, onlyIf_wires, foldl_wires])
@[simp] theorem execGaugeTestDeadline_wires (s : State) : SameWires s (execGaugeTestDeadline s) := by
  first | (unfold execGaugeTestDeadline; (repeat' split) <;> simp [*])
@[simp] theorem execGaugeReading_wires (a1) (s : State) : SameWires s (execGaugeReading a1 s) := by
  first | (unfold execGaugeReading; simp [*])
@[simp] theorem execReadOnlyExit_wires (s : State) : SameWires s (execReadOnlyExit s) := by
  first | (unfold execReadOnlyExit; (repeat' split) <;> simp [*])
@[simp] theorem execAdmissionExcessDeadline_wires (s : State) : SameWires s (execAdmissionExcessDeadline s) := by
  first | (unfold execAdmissionExcessDeadline; (repeat' split) <;> simp [*])
@[simp] theorem mediaProgramUnitTimeout_wires (a1) (s : State) : SameWires s (mediaProgramUnitTimeout a1 s) := by
  first | (unfold mediaProgramUnitTimeout; (repeat' split) <;> simp [*])
@[simp] theorem mediaFlashProgramComplete_wires (a1) (a2) (a3) (a4) (s : State) : SameWires s (mediaFlashProgramComplete a1 a2 a3 a4 s) := by
  first | (unfold mediaFlashProgramComplete; grind [addSweep_wires, endOp_wires, programFailed_wires, parityDone_wires, unitDone_wires, advanceSb_wires, setSb_wires, SameWires, onlyIf_wires, foldl_wires])
@[simp] theorem mediaFlashReadComplete_wires (a1) (a2) (a3) (a4) (a5) (a6) (a7) (s : State) : SameWires s (mediaFlashReadComplete a1 a2 a3 a4 a5 a6 a7 s) := by
  first | (unfold mediaFlashReadComplete; (repeat' split) <;> simp [*])
@[simp] theorem mediaReadingLadderDeadline_driversHeld (a1) (s : State) : KeepsHeld s (mediaReadingLadderDeadline a1 s) := by
  first | (unfold mediaReadingLadderDeadline; repeat' (first | (simp +contextual [*] <;> fail) | (with_reducible (refine foldl_driversHeld _ _ _ ?_ ?_; rotate_left; intro _ _ _)) | (with_reducible (apply onlyIf_driversHeld; intro _ _)) | split))
@[simp] theorem mediaFlashEraseComplete_wires (a1) (a2) (a3) (s : State) : SameWires s (mediaFlashEraseComplete a1 a2 a3 s) := by
  first | (unfold mediaFlashEraseComplete; grind [endOp_wires, doneBg_wires, journal_wires, rowGone_wires, layWaiting_wires, checkFree_wires, checkSpread_wires, retireBlock_wires, replaceSpill_wires, record_wires, SameWires, onlyIf_wires, foldl_wires, wires, kwires])
@[simp] theorem mediaSpillSetErase_wires (a1) (a2) (s : State) : SameWires s (mediaSpillSetErase a1 a2 s) := by
  first | (unfold mediaSpillSetErase; simp [*])
@[simp] theorem mediaDieReadyTimeout_wires (a1) (s : State) : SameWires s (mediaDieReadyTimeout a1 s) := by
  first | (unfold mediaDieReadyTimeout; simp [*])
@[simp] theorem mediaBackgroundLevelRise_wires (a1) (a2) (a3) (s : State) : SameWires s (mediaBackgroundLevelRise a1 a2 a3 s) := by
  first | (unfold mediaBackgroundLevelRise; grind [SameWires, onlyIf_wires, foldl_wires, wires, kwires])
@[simp] theorem mediaBackgroundDeadline_wires (a1) (a2) (a3) (s : State) : SameWires s (mediaBackgroundDeadline a1 a2 a3 s) := by
  first | (unfold mediaBackgroundDeadline; (repeat' split) <;> simp [*])
@[simp] theorem mediaSweepVisit_wires (a1) (a2) (a3) (a4) (a5) (s : State) : SameWires s (mediaSweepVisit a1 a2 a3 a4 a5 s) := by
  first | (unfold mediaSweepVisit; grind [countRead_wires, loseDie_wires, journal_wires, reportRow_wires, sweepLost_wires, verifyItem_wires, addSweep_wires, doneBg_wires, SameWires, onlyIf_wires, foldl_wires, wires, kwires])
@[simp] theorem mediaSweepPassEnd_wires (s : State) : SameWires s (mediaSweepPassEnd s) := by
  unfold mediaSweepPassEnd
  refine onlyIf_wires _ _ _ fun t => ?_
  dsimp only
  show wires (if _ then t else journal _ t) = wires t
  split
  · rfl
  · exact journal_wires _ _
@[simp] theorem mediaReadCounterCopy_wires (s : State) : SameWires s (mediaReadCounterCopy s) := by
  first | (unfold mediaReadCounterCopy; simp [*])
@[simp] theorem mediaRewrite_wires (a1) (a2) (s : State) : SameWires s (mediaRewrite a1 a2 s) := by
  first | (unfold mediaRewrite; grind [doneBg_wires, rewriteMeta_wires, padUnit_wires, settleRewrites_wires, startMove_wires, SameWires, onlyIf_wires, foldl_wires])
@[simp] theorem mediaGarbageCollection_wires (s : State) : SameWires s (mediaGarbageCollection s) := by
  first | (unfold mediaGarbageCollection; (try apply onlyIf_wires); intros; (repeat' split) <;> (try simp [*]) <;> (try rfl))
@[simp] theorem mediaStaticWearLevelling_wires (a1) (s : State) : SameWires s (mediaStaticWearLevelling a1 s) := by
  first | (unfold mediaStaticWearLevelling; (try apply onlyIf_wires); intros; (repeat' split) <;> (try simp [*]) <;> (try rfl))
@[simp] theorem execLinkLaneFail_wires (a1) (s : State) : SameWires s (execLinkLaneFail a1 s) := by
  first | (unfold execLinkLaneFail; simp [*])
@[simp] theorem execLinkRetrainTimeout_wires (s : State) : SameWires s (execLinkRetrainTimeout s) := by
  first | (unfold execLinkRetrainTimeout; (repeat' split) <;> simp [*])
@[simp] theorem execLinkRetrainRetry_wires (s : State) : SameWires s (execLinkRetrainRetry s) := by
  first | (unfold execLinkRetrainRetry; (try apply onlyIf_wires); intros; (repeat' split) <;> (try simp [*]) <;> (try rfl))
@[simp] theorem execFlitReceive_wires (a1) (a2) (a3) (a4) (a5) (s : State) : SameWires s (execFlitReceive a1 a2 a3 a4 a5 s) := by
  first | (unfold execFlitReceive; simp [*])
@[simp] theorem execReplayRequest_wires (a1) (s : State) : SameWires s (execReplayRequest a1 s) := by
  first | (unfold execReplayRequest; simp [*])
@[simp] theorem execIdleFlitTimer_wires (s : State) : SameWires s (execIdleFlitTimer s) := by
  first | (unfold execIdleFlitTimer; simp [*])
@[simp] theorem execHingeStatusTimer_wires (s : State) : SameWires s (execHingeStatusTimer s) := by
  first | (unfold execHingeStatusTimer; simp [*])
@[simp] theorem execHealthReportTimer_wires (s : State) : SameWires s (execHealthReportTimer s) := by
  first | (unfold execHealthReportTimer; simp [*])
@[simp] theorem execHealthReportTimeout_wires (s : State) : SameWires s (execHealthReportTimeout s) := by
  first | (unfold execHealthReportTimeout; simp [*])
@[simp] theorem execMirrorAckDeadline_wires (s : State) : SameWires s (execMirrorAckDeadline s) := by
  first | (unfold execMirrorAckDeadline; (repeat' split) <;> simp [*])
@[simp] theorem memSelfTestComplete_driversHeld (a1) (a2) (s : State) : KeepsHeld s (memSelfTestComplete a1 a2 s) := by
  first | (unfold memSelfTestComplete; grind [endTest_wires, markLasting_driversHeld, markTransient_driversHeld, record_wires, bringBack_wires, KeepsHeld, onlyIf_driversHeld])
@[simp] theorem memSelfTestDeadline_driversHeld (a1) (s : State) : KeepsHeld s (memSelfTestDeadline a1 s) := by
  first | (unfold memSelfTestDeadline; repeat' (first | (simp +contextual [*] <;> fail) | (with_reducible (refine foldl_driversHeld _ _ _ ?_ ?_; rotate_left; intro _ _ _)) | (with_reducible (apply onlyIf_driversHeld; intro _ _)) | split))
@[simp] theorem memRetirementEntryExpiry_wires (a1) (s : State) : SameWires s (memRetirementEntryExpiry a1 s) := by
  unfold memRetirementEntryExpiry
  split
  · exact onlyIf_wires _ _ _ fun t => rfl
  · rw [sameWires_next]
@[simp] theorem memCorrectableRead_driversHeld (a1) (s : State) : KeepsHeld s (memCorrectableRead a1 s) := by
  first | (unfold memCorrectableRead; repeat' (first | (simp +contextual [*] <;> fail) | (with_reducible (refine foldl_driversHeld _ _ _ ?_ ?_; rotate_left; intro _ _ _)) | (with_reducible (apply onlyIf_driversHeld; intro _ _)) | split))
@[simp] theorem memBucketLeak_wires (a1) (s : State) : SameWires s (memBucketLeak a1 s) := by
  unfold memBucketLeak
  split
  · exact onlyIf_wires _ _ _ fun t => rfl
  · rw [sameWires_next]
@[simp] theorem memMemoryScrub_driversHeld (a1) (a2) (s : State) : KeepsHeld s (memMemoryScrub a1 a2 s) := by
  first | (unfold memMemoryScrub; repeat' (first | (simp +contextual [*] <;> fail) | (with_reducible (refine foldl_driversHeld _ _ _ ?_ ?_; rotate_left; intro _ _ _)) | (with_reducible (apply onlyIf_driversHeld; intro _ _)) | split))
@[simp] theorem memNarrowWrite_wires (a1) (a2) (s : State) : SameWires s (memNarrowWrite a1 a2 s) := by
  first | (unfold memNarrowWrite; simp [*])
@[simp] theorem memCoreLoadUncorrectable_driversHeld (a1) (a2) (a3) (a4) (a5) (a6) (s : State) : KeepsHeld s (memCoreLoadUncorrectable a1 a2 a3 a4 a5 a6 s) := by
  unfold memCoreLoadUncorrectable
  split
  · refine onlyIf_driversHeld _ _ _ fun t ht => startTest_driversHeld _ _ _ ?_
    rw [refetch_wires]; exact ht
  · refine onlyIf_driversHeld _ _ _ fun t ht => ?_
    extract_lets first u p a b
    have hu : Held (wires u) := by
      simp only [u]; split
      · rw [poisonLine_wires]; exact ht
      · exact ht
    have ha : Held (wires a) := by simp only [a]; rw [memEvent_wires]; exact hu
    have hb : Held (wires b) := by
      simp only [b]; split
      · exact ha
      · exact startTest_driversHeld _ _ _ ha
    split
    · exact hb
    · exact hb
    · exact hb
    · exact hb
    · rw [restartOn_wires]; exact hb
    · rw [cannotRebuild_wires]; exact hb
    · rw [cannotRebuild_wires]; exact hb
@[simp] theorem memInstructionFetchUncorrectable_driversHeld (a1) (a2) (a3) (s : State) : KeepsHeld s (memInstructionFetchUncorrectable a1 a2 a3 s) := by
  first | (unfold memInstructionFetchUncorrectable; grind [memEvent_wires, startTest_driversHeld, quarantineCluster_driversHeld, KeepsHeld, onlyIf_driversHeld, Held, wires, kwires])
@[simp] theorem memDmaReadUncorrectable_driversHeld (a1) (a2) (a3) (s : State) : KeepsHeld s (memDmaReadUncorrectable a1 a2 a3 s) := by
  first | (unfold memDmaReadUncorrectable; repeat' (first | (simp +contextual [*] <;> fail) | (with_reducible (refine foldl_driversHeld _ _ _ ?_ ?_; rotate_left; intro _ _ _)) | (with_reducible (apply onlyIf_driversHeld; intro _ _)) | split))
@[simp] theorem memDmaChannelRestart_wires (a1) (s : State) : SameWires s (memDmaChannelRestart a1 s) := by
  first | (unfold memDmaChannelRestart; (try apply onlyIf_wires); intros; (repeat' split) <;> (try simp [*]) <;> (try rfl))
@[simp] theorem execKeyEpochChange_wires (a1) (s : State) : SameWires s (execKeyEpochChange a1 s) := by
  first | (unfold execKeyEpochChange; simp [*])
@[simp] theorem execKnownAnswerTest_driversHeld (a1) (a2) (s : State) : KeepsHeld s (execKnownAnswerTest a1 a2 s) := by
  first | (unfold execKnownAnswerTest; repeat' (first | (simp +contextual [*] <;> fail) | (with_reducible (refine foldl_driversHeld _ _ _ ?_ ?_; rotate_left; intro _ _ _)) | (with_reducible (apply onlyIf_driversHeld; intro _ _)) | split))
@[simp] theorem execDrbgReseed_wires (s : State) : SameWires s (execDrbgReseed s) := by
  first | (unfold execDrbgReseed; simp [*])
@[simp] theorem execMaskReseed_wires (s : State) : SameWires s (execMaskReseed s) := by
  first | (unfold execMaskReseed; (try apply onlyIf_wires); intros; (repeat' split) <;> (try simp [*]) <;> (try rfl))
@[simp] theorem execEntropyHealthFail_wires (a1) (a2) (s : State) : SameWires s (execEntropyHealthFail a1 a2 s) := by
  first | (unfold execEntropyHealthFail; simp [*])
@[simp] theorem io_wires (a1) (f2) (s : State) (hf2 : ∀ x0, wires (f2 x0) = wires x0) : SameWires s (io a1 f2 s) := by
  first | (unfold io; simp [*])
@[simp] theorem execTcpConnectionAttempt_wires (a1) (a2) (a3) (s : State) : SameWires s (execTcpConnectionAttempt a1 a2 a3 s) := by
  first | (unfold execTcpConnectionAttempt; simp [*])
@[simp] theorem execRoceConnectionRequest_wires (a1) (s : State) : SameWires s (execRoceConnectionRequest a1 s) := by
  first | (unfold execRoceConnectionRequest; simp [*])
@[simp] theorem execTlsHandshake_wires (a1) (s : State) : SameWires s (execTlsHandshake a1 s) := by
  first | (unfold execTlsHandshake; simp [*])
@[simp] theorem execInitializeConnection_wires (a1) (a2) (a3) (a4) (a5) (s : State) : SameWires s (execInitializeConnection a1 a2 a3 a4 a5 s) := by
  first | (unfold execInitializeConnection; simp [*])
@[simp] theorem execConnect_wires (a1) (a2) (a3) (a4) (a5) (a6) (a7) (s : State) : SameWires s (execConnect a1 a2 a3 a4 a5 a6 a7 s) := by
  first | (unfold execConnect; grind [done_wires, complete_wires, mirrorConn_wires, onConn_wires, SameWires, onlyIf_wires, foldl_wires, wires, kwires])
@[simp] theorem execDisconnect_wires (a1) (s : State) : SameWires s (execDisconnect a1 s) := by
  first | (unfold execDisconnect; (try apply onlyIf_wires); intros; (repeat' split) <;> (try simp [*]) <;> (try rfl))
@[simp] theorem execAuthenticationSend_wires (a1) (s : State) : SameWires s (execAuthenticationSend a1 s) := by
  first | (unfold execAuthenticationSend; simp [*])
@[simp] theorem execAuthenticationReceive_wires (a1) (s : State) : SameWires s (execAuthenticationReceive a1 s) := by
  first | (unfold execAuthenticationReceive; simp [*])
@[simp] theorem execUnsupportedOpcode_wires (a1) (a2) (s : State) : SameWires s (execUnsupportedOpcode a1 a2 s) := by
  first | (unfold execUnsupportedOpcode; simp [*])
@[simp] theorem execKeepAliveTimeout_wires (a1) (s : State) : SameWires s (execKeepAliveTimeout a1 s) := by
  first | (unfold execKeepAliveTimeout; (repeat' split) <;> simp [*])
@[simp] theorem execFlush_wires (a1) (s : State) : SameWires s (execFlush a1 s) := by
  unfold execFlush; exact io_wires _ _ _ fun t => ioCommand_wires _ _ _ _ _ fun c u => answer_wires _ _ _ _ _
@[simp] theorem execStore_wires (a1) (a2) (a3) (s : State) : SameWires s (execStore a1 a2 a3 s) := by
  unfold execStore; exact io_wires _ _ _ fun t => ioCommand_wires _ _ _ _ _ fun c u => startStore_wires _ _ _ _ _ _
@[simp] theorem execRetrieve_wires (a1) (s : State) : SameWires s (execRetrieve a1 s) := by
  unfold execRetrieve; exact io_wires _ _ _ fun t => ioCommand_wires _ _ _ _ _ fun c u => startRead__wires _ _ _ _ _ _ _
@[simp] theorem execList_wires (a1) (s : State) : SameWires s (execList a1 s) := by
  unfold execList; exact io_wires _ _ _ fun t => ioCommand_wires _ _ _ _ _ fun c u => startList_wires _ _ _ _ _ _
@[simp] theorem execDelete_wires (a1) (s : State) : SameWires s (execDelete a1 s) := by
  unfold execDelete; exact io_wires _ _ _ fun t => ioCommand_wires _ _ _ _ _ fun c u => startStore_wires _ _ _ _ _ _
@[simp] theorem execExist_wires (a1) (s : State) : SameWires s (execExist a1 s) := by
  unfold execExist; exact io_wires _ _ _ fun t => ioCommand_wires _ _ _ _ _ fun c u => startRead__wires _ _ _ _ _ _ _
@[simp] theorem execLongStore_wires (a1) (a2) (a3) (s : State) : SameWires s (execLongStore a1 a2 a3 s) := by
  unfold execLongStore; exact io_wires _ _ _ fun t => ioCommand_wires _ _ _ _ _ fun c u => startStore_wires _ _ _ _ _ _
@[simp] theorem execLongRetrieve_wires (a1) (s : State) : SameWires s (execLongRetrieve a1 s) := by
  unfold execLongRetrieve; exact io_wires _ _ _ fun t => ioCommand_wires _ _ _ _ _ fun c u => startRead__wires _ _ _ _ _ _ _
@[simp] theorem execLongDelete_wires (a1) (s : State) : SameWires s (execLongDelete a1 s) := by
  unfold execLongDelete; exact io_wires _ _ _ fun t => ioCommand_wires _ _ _ _ _ fun c u => startStore_wires _ _ _ _ _ _
@[simp] theorem execLongExist_wires (a1) (s : State) : SameWires s (execLongExist a1 s) := by
  unfold execLongExist; exact io_wires _ _ _ fun t => ioCommand_wires _ _ _ _ _ fun c u => startRead__wires _ _ _ _ _ _ _
@[simp] theorem execFilteredRetrieve_wires (a1) (s : State) : SameWires s (execFilteredRetrieve a1 s) := by
  unfold execFilteredRetrieve; exact io_wires _ _ _ fun t => ioCommand_wires _ _ _ _ _ fun c u => startRead__wires _ _ _ _ _ _ _
@[simp] theorem execPatternList_wires (a1) (a2) (s : State) : SameWires s (execPatternList a1 a2 s) := by
  unfold execPatternList; exact io_wires _ _ _ fun t => ioCommand_wires _ _ _ _ _ fun c u => startList_wires _ _ _ _ _ _
@[simp] theorem execKeyCarrier_wires (a1) (s : State) : SameWires s (execKeyCarrier a1 s) := by
  unfold execKeyCarrier; exact io_wires _ _ _ fun t => ioCommand_wires _ _ _ _ _ fun c u => onConn_wires _ _ _
@[simp] theorem execDurabilityQuery_wires (a1) (s : State) : SameWires s (execDurabilityQuery a1 s) := by
  unfold execDurabilityQuery; exact io_wires _ _ _ fun t => ioCommand_wires _ _ _ _ _ fun c u => startRead__wires _ _ _ _ _ _ _
@[simp] theorem execShed_wires (a1) (a2) (a3) (s : State) : SameWires s (execShed a1 a2 a3 s) := by
  unfold execShed; exact io_wires _ _ _ fun t => ioCommand_wires _ _ _ _ _ fun c u => startRead__wires _ _ _ _ _ _ _
@[simp] theorem execCorniceAdmissionGrant_wires (s : State) : SameWires s (execCorniceAdmissionGrant s) := by
  first | (unfold execCorniceAdmissionGrant; simp [*])
@[simp] theorem execAdmissionTimeout_wires (a1) (a2) (s : State) : SameWires s (execAdmissionTimeout a1 a2 s) := by
  first | (unfold execAdmissionTimeout; (try apply onlyIf_wires); intros; (repeat' split) <;> (try simp [*]) <;> (try rfl))
@[simp] theorem execHostToControllerData_wires (a1) (a2) (a3) (a4) (a5) (s : State) : SameWires s (execHostToControllerData a1 a2 a3 a4 a5 s) := by
  first | (unfold execHostToControllerData; (try apply onlyIf_wires); intros; (repeat' split) <;> (try simp [*]) <;> (try rfl))
@[simp] theorem execConnectionLost_wires (a1) (s : State) : SameWires s (execConnectionLost a1 s) := by
  first | (unfold execConnectionLost; simp [*])
@[simp] theorem execGetLogPage_wires (a1) (a2) (a3) (a4) (a5) (a6) (a7) (s : State) : SameWires s (execGetLogPage a1 a2 a3 a4 a5 a6 a7 s) := by
  unfold execGetLogPage
  extract_lets numd
  refine adm_wires _ _ _ _ _ _ fun t => ?_
  split
  · rfl
  · split
    · exact done_wires _ _ _
    · extract_lets u
      refine (reply_wires _ _ _).trans ?_
      simp only [u]
      split
      · split
        · rfl
        · exact onCtrl_wires _ _ _
      · rfl
@[simp] theorem execIdentify_wires (a1) (a2) (a3) (a4) (a5) (s : State) : SameWires s (execIdentify a1 a2 a3 a4 a5 s) := by
  first | (unfold execIdentify; grind [adm_wires, reply_wires, done_wires, SameWires, onlyIf_wires, foldl_wires])
@[simp] theorem execAbort_wires (a1) (a2) (a3) (s : State) : SameWires s (execAbort a1 a2 a3 s) := by
  first | (unfold execAbort; simp [*])
@[simp] theorem execGetFeatures_wires (a1) (a2) (a3) (s : State) : SameWires s (execGetFeatures a1 a2 a3 s) := by
  first | (unfold execGetFeatures; grind [adm_wires, done_wires, complete_wires, SameWires, onlyIf_wires, foldl_wires])
@[simp] theorem execSetPowerManagement_wires (a1) (a2) (s : State) : SameWires s (execSetPowerManagement a1 a2 s) := by
  first | (unfold execSetPowerManagement; simp [*])
@[simp] theorem execSetNumberOfQueues_wires (a1) (a2) (s : State) : SameWires s (execSetNumberOfQueues a1 a2 s) := by
  first | (unfold execSetNumberOfQueues; simp [*])
@[simp] theorem execSetAsyncEventConfiguration_wires (a1) (a2) (s : State) : SameWires s (execSetAsyncEventConfiguration a1 a2 s) := by
  first | (unfold execSetAsyncEventConfiguration; simp [*])
@[simp] theorem execSetKeepAliveTimer_wires (a1) (a2) (s : State) : SameWires s (execSetKeepAliveTimer a1 a2 s) := by
  first | (unfold execSetKeepAliveTimer; simp [*])
@[simp] theorem execSetStoreAdmissionTimeout_wires (a1) (a2) (s : State) : SameWires s (execSetStoreAdmissionTimeout a1 a2 s) := by
  first | (unfold execSetStoreAdmissionTimeout; simp [*])
@[simp] theorem execSetFeaturesInvalid_wires (a1) (a2) (a3) (s : State) : SameWires s (execSetFeaturesInvalid a1 a2 a3 s) := by
  unfold execSetFeaturesInvalid
  exact onlyIf_wires _ _ _ fun t => stateOf_wires _ _ (adm_wires _ _ _ _ _ _ fun u => done_wires _ _ _)
@[simp] theorem execAsynchronousEventRequest_wires (a1) (s : State) : SameWires s (execAsynchronousEventRequest a1 s) := by
  first | (unfold execAsynchronousEventRequest; grind [adm_wires, complete_wires, onCtrl_wires, done_wires, SameWires, onlyIf_wires, foldl_wires])
@[simp] theorem execKeepAlive_wires (a1) (s : State) : SameWires s (execKeepAlive a1 s) := by
  first | (unfold execKeepAlive; simp [*])
@[simp] theorem execPropertySet_wires (a1) (a2) (a3) (s : State) : SameWires s (execPropertySet a1 a2 a3 s) := by
  unfold execPropertySet
  refine onlyIf_wires _ _ _ fun t => stateOf_wires _ _ (adm_wires _ _ _ _ _ _ fun u => ?_)
  dsimp only
  split
  · rw [enabledAgain_wires, done_wires, onCtrl_wires]
  · rw [done_wires, onCtrl_wires]
@[simp] theorem execPropertyGet_wires (a1) (a2) (a3) (s : State) : SameWires s (execPropertyGet a1 a2 a3 s) := by
  first | (unfold execPropertyGet; grind [adm_wires, complete_wires, SameWires, onlyIf_wires, foldl_wires, wires, kwires])
@[simp] theorem execFormatNvm_wires (a1) (a2) (a3) (s : State) : SameWires s (execFormatNvm a1 a2 a3 s) := by
  first | (unfold execFormatNvm; grind [adm_wires, done_wires, drawSalt_wires, discardUnlaid_wires, abandonStores_wires, journal_wires, settle_wires, record_wires, SameWires, onlyIf_wires, foldl_wires, wires, kwires])
@[simp] theorem execPurgePassComplete_wires (a1) (s : State) : SameWires s (execPurgePassComplete a1 s) := by
  first | (unfold execPurgePassComplete; (repeat' split) <;> simp [*])
@[simp] theorem execFilterRegister_wires (a1) (a2) (a3) (s : State) : SameWires s (execFilterRegister a1 a2 a3 s) := by
  unfold execFilterRegister
  refine onlyIf_wires _ _ _ fun t => ?_
  extract_lets s ty n body
  have hs : wires s = wires t := takeAdmin_wires _ _ _ _ _ _
  rw [mirrorConn_wires]
  split
  · exact (done_wires _ _ _).trans hs
  · split
    · exact (complete_wires _ _ _ _ _ _ _ _).trans hs
    · split
      · exact (complete_wires _ _ _ _ _ _ _ _).trans hs
      · exact (doneSettings_wires _ _ _).trans hs
@[simp] theorem execFilterRelease_wires (a1) (a2) (s : State) : SameWires s (execFilterRelease a1 a2 s) := by
  first | (unfold execFilterRelease; simp [*])
@[simp] theorem execPlannedTakeover_wires (a1) (s : State) : SameWires s (execPlannedTakeover a1 s) := by
  first | (unfold execPlannedTakeover; simp [*])
@[simp] theorem execNvmeMiBasicManagement_wires (a1) (a2) (s : State) : SameWires s (execNvmeMiBasicManagement a1 a2 s) := by
  first | (unfold execNvmeMiBasicManagement; simp [*])
@[simp] theorem execNvmeMiCommand_wires (a1) (a2) (a3) (s : State) : SameWires s (execNvmeMiCommand a1 a2 a3 s) := by
  first | (unfold execNvmeMiCommand; (try apply onlyIf_wires); intros; (repeat' split) <;> (try simp [*]) <;> (try rfl))
@[simp] theorem execFragment_wires (a1) (a2) (s : State) : SameWires s (execFragment a1 a2 s) := by
  first | (unfold execFragment; simp [*])
@[simp] theorem execFragmentAck_wires (a1) (a2) (s : State) : SameWires s (execFragmentAck a1 a2 s) := by
  first | (unfold execFragmentAck; simp [*])
@[simp] theorem execCommitRequest_wires (a1) (a2) (s : State) : SameWires s (execCommitRequest a1 a2 s) := by
  first | (unfold execCommitRequest; simp [*])
@[simp] theorem execCommitIntent_wires (a1) (a2) (s : State) : SameWires s (execCommitIntent a1 a2 s) := by
  first | (unfold execCommitIntent; simp [*])
@[simp] theorem execIntentAck_wires (a1) (a2) (s : State) : SameWires s (execIntentAck a1 a2 s) := by
  first | (unfold execIntentAck; simp [*])
@[simp] theorem execCommitConfirm_wires (a1) (a2) (s : State) : SameWires s (execCommitConfirm a1 a2 s) := by
  first | (unfold execCommitConfirm; simp [*])
@[simp] theorem execCommitNotice_wires (a1) (a2) (s : State) : SameWires s (execCommitNotice a1 a2 s) := by
  first | (unfold execCommitNotice; simp [*])
@[simp] theorem execAbortNotice_wires (a1) (a2) (s : State) : SameWires s (execAbortNotice a1 a2 s) := by
  first | (unfold execAbortNotice; simp [*])
@[simp] theorem execStatusQuery_wires (a1) (a2) (s : State) : SameWires s (execStatusQuery a1 a2 s) := by
  first | (unfold execStatusQuery; simp [*])
@[simp] theorem execD2DispatchTimeout_wires (a1) (a2) (s : State) : SameWires s (execD2DispatchTimeout a1 a2 s) := by
  first | (unfold execD2DispatchTimeout; (repeat' split) <;> simp [*])
@[simp] theorem execFragmentResend_wires (a1) (a2) (a3) (s : State) : SameWires s (execFragmentResend a1 a2 a3 s) := by
  first | (unfold execFragmentResend; (repeat' split) <;> simp [*])
@[simp] theorem execStoreLevelTimeout_wires (a1) (s : State) : SameWires s (execStoreLevelTimeout a1 s) := by
  first | (unfold execStoreLevelTimeout; (repeat' split) <;> simp [*])
@[simp] theorem execCommitRequestResend_wires (a1) (s : State) : SameWires s (execCommitRequestResend a1 s) := by
  first | (unfold execCommitRequestResend; (repeat' split) <;> simp [*])
@[simp] theorem execVersionAbortTimer_wires (a1) (a2) (a3) (s : State) : SameWires s (execVersionAbortTimer a1 a2 a3 s) := by
  first | (unfold execVersionAbortTimer; (repeat' split) <;> simp [*])
@[simp] theorem execAbortNoticeResend_wires (a1) (a2) (a3) (s : State) : SameWires s (execAbortNoticeResend a1 a2 a3 s) := by
  first | (unfold execAbortNoticeResend; (repeat' split) <;> simp [*])
@[simp] theorem execHolderStatusQuery_wires (a1) (a2) (s : State) : SameWires s (execHolderStatusQuery a1 a2 s) := by
  first | (unfold execHolderStatusQuery; (repeat' split) <;> simp [*])
@[simp] theorem execKeywayPendingWaitEnd_wires (a1) (a2) (a3) (s : State) : SameWires s (execKeywayPendingWaitEnd a1 a2 a3 s) := by
  first | (unfold execKeywayPendingWaitEnd; (repeat' split) <;> simp [*])
@[simp] theorem execLocate_wires (a1) (a2) (s : State) : SameWires s (execLocate a1 a2 s) := by
  first | (unfold execLocate; simp [*])
@[simp] theorem execLocateReply_wires (a1) (a2) (a3) (a4) (s : State) : SameWires s (execLocateReply a1 a2 a3 a4 s) := by
  first | (unfold execLocateReply; simp [*])
@[simp] theorem execReadRequest_wires (a1) (a2) (s : State) : SameWires s (execReadRequest a1 a2 s) := by
  first | (unfold execReadRequest; simp [*])
@[simp] theorem execReadData_wires (a1) (a2) (s : State) : SameWires s (execReadData a1 a2 s) := by
  first | (unfold execReadData; simp [*])
@[simp] theorem execRecordQuery_wires (a1) (a2) (s : State) : SameWires s (execRecordQuery a1 a2 s) := by
  first | (unfold execRecordQuery; simp [*])
@[simp] theorem execRecordReply_wires (a1) (a2) (a3) (s : State) : SameWires s (execRecordReply a1 a2 a3 s) := by
  first | (unfold execRecordReply; simp [*])
@[simp] theorem execFloorNotice_wires (a1) (a2) (a3) (s : State) : SameWires s (execFloorNotice a1 a2 a3 s) := by
  first | (unfold execFloorNotice; simp [*])
@[simp] theorem execFloorAck_wires (a1) (a2) (a3) (s : State) : SameWires s (execFloorAck a1 a2 a3 s) := by
  first | (unfold execFloorAck; simp [*])
@[simp] theorem execMilmoDurabilityQuery_wires (a1) (a2) (s : State) : SameWires s (execMilmoDurabilityQuery a1 a2 s) := by
  first | (unfold execMilmoDurabilityQuery; simp [*])
@[simp] theorem execDurabilityReply_wires (a1) (a2) (a3) (a4) (s : State) : SameWires s (execDurabilityReply a1 a2 a3 a4 s) := by
  first | (unfold execDurabilityReply; simp [*])
@[simp] theorem execOrphanNotice_wires (a1) (a2) (s : State) : SameWires s (execOrphanNotice a1 a2 s) := by
  first | (unfold execOrphanNotice; simp [*])
@[simp] theorem execHandoverRecord_wires (a1) (a2) (a3) (s : State) : SameWires s (execHandoverRecord a1 a2 a3 s) := by
  first | (unfold execHandoverRecord; simp [*])
@[simp] theorem execHolderReturn_wires (a1) (a2) (a3) (s : State) : SameWires s (execHolderReturn a1 a2 a3 s) := by
  first | (unfold execHolderReturn; simp [*])
@[simp] theorem execRepairOrder_wires (a1) (a2) (a3) (s : State) : SameWires s (execRepairOrder a1 a2 a3 s) := by
  first | (unfold execRepairOrder; simp [*])
@[simp] theorem execLocalMediaFailureReport_wires (a1) (a2) (a3) (s : State) : SameWires s (execLocalMediaFailureReport a1 a2 a3 s) := by
  first | (unfold execLocalMediaFailureReport; simp [*])
@[simp] theorem execReadRequestTimeout_wires (a1) (a2) (a3) (s : State) : SameWires s (execReadRequestTimeout a1 a2 a3 s) := by
  first | (unfold execReadRequestTimeout; simp [*])
@[simp] theorem execFloorNoticeResend_wires (a1) (s : State) : SameWires s (execFloorNoticeResend a1 s) := by
  first | (unfold execFloorNoticeResend; simp [*])
@[simp] theorem execHandoverFinal_wires (a1) (s : State) : SameWires s (execHandoverFinal a1 s) := by
  first | (unfold execHandoverFinal; (repeat' split) <;> simp [*])
@[simp] theorem execHolderReturnTimeout_wires (a1) (a2) (s : State) : SameWires s (execHolderReturnTimeout a1 a2 s) := by
  first | (unfold execHolderReturnTimeout; simp [*])
@[simp] theorem execRepairRetry_wires (a1) (a2) (s : State) : SameWires s (execRepairRetry a1 a2 s) := by
  first | (unfold execRepairRetry; simp [*])
@[simp] theorem execRebalance_wires (a1) (s : State) : SameWires s (execRebalance a1 s) := by
  first | (unfold execRebalance; (try apply onlyIf_wires); intros; (repeat' split) <;> (try simp [*]) <;> (try rfl))
@[simp] theorem execLeaseRequest_wires (a1) (a2) (s : State) : SameWires s (execLeaseRequest a1 a2 s) := by
  first | (unfold execLeaseRequest; simp [*])
@[simp] theorem execPermit_wires (a1) (a2) (s : State) : SameWires s (execPermit a1 a2 s) := by
  first | (unfold execPermit; simp [*])
theorem execPermitTimer_core (gs : List Lease) (s : State) : wires (settle (askWaiting (gs.foldl (fun v l => sendPermit l v)
    { s with ice := { s.ice with granted := gs, permitAt := s.now } }))) = wires s := by
  refine (settle_wires _).trans ((askWaiting_wires _).trans ((foldl_wires _ _ _ ?_).trans rfl))
  intro u l; exact sendPermit_wires _ _
@[simp] theorem execPermitTimer_wires (s : State) : SameWires s (execPermitTimer s) := by
  exact onlyIf_wires _ _ _ fun t => execPermitTimer_core (allRates t) t
@[simp] theorem execLeaseExpiry_wires (a1) (s : State) : SameWires s (execLeaseExpiry a1 s) := by
  first | (unfold execLeaseExpiry; (repeat' split) <;> simp [*])
@[simp] theorem execCalendarSlot_wires (a1) (a2) (s : State) : SameWires s (execCalendarSlot a1 a2 s) := by
  first | (unfold execCalendarSlot; simp [*])
@[simp] theorem execListingGatherRequest_wires (a1) (a2) (s : State) : SameWires s (execListingGatherRequest a1 a2 s) := by
  first | (unfold execListingGatherRequest; simp [*])
@[simp] theorem execListingGatherReply_wires (a1) (a2) (s : State) : SameWires s (execListingGatherReply a1 a2 s) := by
  first | (unfold execListingGatherReply; simp [*])
@[simp] theorem execListingGatherResend_wires (a1) (a2) (s : State) : SameWires s (execListingGatherResend a1 a2 s) := by
  first | (unfold execListingGatherResend; (repeat' split) <;> simp [*])
@[simp] theorem execShedRecord_wires (a1) (a2) (a3) (a4) (a5) (a6) (s : State) : SameWires s (execShedRecord a1 a2 a3 a4 a5 a6 s) := by
  first | (unfold execShedRecord; simp [*])
@[simp] theorem execRimeStringEnd_wires (a1) (s : State) : SameWires s (execRimeStringEnd a1 s) := by
  first | (unfold execRimeStringEnd; simp [*]; (repeat' split) <;> simp [*])
@[simp] theorem execRimeEngineStall_driversHeld (a1) (s : State) : KeepsHeld s (execRimeEngineStall a1 s) := by
  first | (unfold execRimeEngineStall; grind [missAndJudge_driversHeld, record_wires, startTest_driversHeld, engineOut_wires, KeepsHeld, onlyIf_driversHeld, Held, wires, kwires])
@[simp] theorem execColdStart_driversHeld (a1) (a2) (a3) (s : State) : KeepsHeld s (execColdStart a1 a2 a3 s) := by
  unfold execColdStart; exact onlyIf_driversHeld _ _ _ fun t ht hd => nomatch hd
@[simp] theorem execWakeStart_wires (s : State) : SameWires s (execWakeStart s) := by
  first | (unfold execWakeStart; grind [countUnsafe_wires, SameWires, onlyIf_wires, foldl_wires, wires, kwires])
@[simp] theorem execWarmStart_driversHeld (s : State) : KeepsHeld s (execWarmStart s) := by
  first | (unfold execWarmStart; grind [countUnsafe_wires, endRunNow_driversHeld, beginKeeper_wires, KeepsHeld, onlyIf_driversHeld, Held, wires, kwires])
@[simp] theorem execPowerGoodRise_wires (a1) (a2) (a3) (s : State) : SameWires s (execPowerGoodRise a1 a2 a3 s) := by
  unfold execPowerGoodRise
  refine onlyIf_wires _ _ _ fun t => ?_
  extract_lets out src u
  have hu : wires u = wires t := noteClocks_wires _ _ _
  split
  · exact (sequencingFailure_wires _ _ _).trans hu
  · split
    · exact hu
    · exact (beginKeeper_wires _).trans hu
@[simp] theorem execSequencingTimeout_wires (a1) (s : State) : SameWires s (execSequencingTimeout a1 s) := by
  first | (unfold execSequencingTimeout; (try apply onlyIf_wires); intros; (repeat' split) <;> (try simp [*]) <;> (try rfl))
@[simp] theorem execSequencingRetry_wires (s : State) : SameWires s (execSequencingRetry s) := by
  first | (unfold execSequencingRetry; (try apply onlyIf_wires); intros; (repeat' split) <;> (try simp [*]) <;> (try rfl))
@[simp] theorem execPowerGoodFall_driversHeld (a1) (s : State) : KeepsHeld s (execPowerGoodFall a1 s) := by
  first | (unfold execPowerGoodFall; grind [record_wires, criterionTrue_driversHeld, KeepsHeld, onlyIf_driversHeld])
@[simp] theorem execFillDeadline_wires (s : State) : SameWires s (execFillDeadline s) := by
  unfold execFillDeadline
  split
  · refine onlyIf_wires _ _ _ fun t => ?_
    rw [record_wires]; rfl
  · rw [sameWires_next]
@[simp] theorem execBankCopyDeadline_wires (a1) (s : State) : SameWires s (execBankCopyDeadline a1 s) := by
  first | (unfold execBankCopyDeadline; (repeat' split) <;> simp [*])
@[simp] theorem execVddKeepLoss_driversHeld (s : State) : KeepsHeld s (execVddKeepLoss s) := by
  unfold execVddKeepLoss; exact onlyIf_driversHeld _ _ _ fun t ht hd => nomatch hd
@[simp] theorem execWakeFrame_wires (a1) (s : State) : SameWires s (execWakeFrame a1 s) := by
  first | (unfold execWakeFrame; (try apply onlyIf_wires); intros; (repeat' split) <;> (try simp [*]) <;> (try rfl))
@[simp] theorem execPfailWakeHold_wires (s : State) : SameWires s (execPfailWakeHold s) := by
  first | (unfold execPfailWakeHold; (try apply onlyIf_wires); intros; (repeat' split) <;> (try simp [*]) <;> (try rfl))
@[simp] theorem execProbeTimer_wires (a1) (s : State) : SameWires s (execProbeTimer a1 s) := by
  unfold execProbeTimer
  refine onlyIf_wires _ _ _ fun t => ?_
  refine (settle_wires _).trans ((foldl_wires _ _ _ fun u x => probeSlot_wires _ _).trans ?_)
  show wires (if _ then refreshGroups t else t) = wires t
  split
  · exact refreshGroups_wires _
  · rfl
@[simp] theorem execProbeAckTimeout_wires (a1) (a2) (s : State) : SameWires s (execProbeAckTimeout a1 a2 s) := by
  first | (unfold execProbeAckTimeout; (repeat' split) <;> simp [*])
@[simp] theorem execProbeRequestTimeout_wires (a1) (s : State) : SameWires s (execProbeRequestTimeout a1 s) := by
  first | (unfold execProbeRequestTimeout; (repeat' split) <;> simp [*])
@[simp] theorem execLossTimeout_wires (a1) (s : State) : SameWires s (execLossTimeout a1 s) := by
  first | (unfold execLossTimeout; (repeat' split) <;> simp [*])
@[simp] theorem execDigestTimer_wires (a1) (s : State) : SameWires s (execDigestTimer a1 s) := by
  first | (unfold execDigestTimer; simp [*])
@[simp] theorem execViewSyncRetry_wires (s : State) : SameWires s (execViewSyncRetry s) := by
  first | (unfold execViewSyncRetry; simp [*])
@[simp] theorem execPlacingReannounce_wires (s : State) : SameWires s (execPlacingReannounce s) := by
  first | (unfold execPlacingReannounce; simp [*])
@[simp] theorem execProbe_wires (a1) (a2) (s : State) : SameWires s (execProbe a1 a2 s) := by
  first | (unfold execProbe; simp [*])
@[simp] theorem execProbeAck_wires (a1) (a2) (s : State) : SameWires s (execProbeAck a1 a2 s) := by
  first | (unfold execProbeAck; simp [*])
@[simp] theorem execProbeRequest_wires (a1) (a2) (s : State) : SameWires s (execProbeRequest a1 a2 s) := by
  first | (unfold execProbeRequest; simp [*])
@[simp] theorem execViewDigest_wires (a1) (a2) (s : State) : SameWires s (execViewDigest a1 a2 s) := by
  first | (unfold execViewDigest; simp [*])
@[simp] theorem execViewSync_wires (a1) (a2) (s : State) : SameWires s (execViewSync a1 a2 s) := by
  first | (unfold execViewSync; simp [*])
@[simp] theorem execMilmoInvalidType_wires (a1) (a2) (s : State) : SameWires s (execMilmoInvalidType a1 a2 s) := by
  first | (unfold execMilmoInvalidType; grind [dropGram_wires, accept_wires, SameWires, onlyIf_wires, foldl_wires])
@[simp] theorem rerunFeature_wires (a1) (a2) (a3) (s : State) : wires (rerunFeature a1 a2 a3 s) = wires s := by
  unfold rerunFeature
  refine stateOf_wires _ _ ?_
  split
  · exact execSetFeaturesInvalid_wires _ _ _ _
  · split
    · exact execSetPowerManagement_wires _ _ _
    · exact execSetNumberOfQueues_wires _ _ _
    · exact execSetAsyncEventConfiguration_wires _ _ _
    · exact execSetKeepAliveTimer_wires _ _ _
    · exact execSetStoreAdmissionTimeout_wires _ _ _
    · exact execSetFeaturesInvalid_wires _ _ _ _
@[simp] theorem rerunProperty_wires (a1) (a2) (s : State) : wires (rerunProperty a1 a2 s) = wires s := by
  first | (unfold rerunProperty; simp [*])
@[simp] theorem rerunAdmin_wires (s : State) (a2) : wires (rerunAdmin s a2) = wires s := by
  first | (unfold rerunAdmin; simp [*]; (repeat' split) <;> simp [*])
@[simp] theorem rerun_wires (s : State) (a2) : wires (rerun s a2) = wires s := by
  first | (unfold rerun; (repeat' split) <;> simp [*])
@[simp] theorem rerunAll_wires (s : State) : wires (rerunAll s) = wires s := by
  first | (unfold rerunAll; simp [*])
@[simp] theorem resumeTransport_wires (s : State) : wires (resumeTransport s) = wires s := by
  first | (unfold resumeTransport; simp [*])
@[simp] theorem takeOver_driversHeld (a1) (s : State) (h : Held (wires s)) : Held (wires (takeOver a1 s)) := by
  first | (unfold takeOver; grind [driveHold_driversHeld, record_wires, takeConns_wires, raiseAsync_wires, setRaised_wires, resumeOps_wires, recount_wires, continueFlush_wires, resumeTransport_wires, sendHello_wires, KeepsHeld, onlyIf_driversHeld, Held, wires, kwires])
@[simp] theorem execCoreRelease_driversHeld (a1) (s : State) : KeepsHeld s (execCoreRelease a1 s) := by
  first | (unfold execCoreRelease; grind [finishCopy_wires, enterRecovery_wires, releaseRun_driversHeld, firstRecords_driversHeld, freshRun_wires, KeepsHeld, onlyIf_driversHeld])
@[simp] theorem execUnconfiguredRetry_driversHeld (s : State) : KeepsHeld s (execUnconfiguredRetry s) := by
  first | (unfold execUnconfiguredRetry; repeat' (first | (simp +contextual [*] <;> fail) | (with_reducible (refine foldl_driversHeld _ _ _ ?_ ?_; rotate_left; intro _ _ _)) | (with_reducible (apply onlyIf_driversHeld; intro _ _)) | split))
@[simp] theorem execHelloWaitTimeout_driversHeld (s : State) : KeepsHeld s (execHelloWaitTimeout s) := by
  first | (unfold execHelloWaitTimeout; repeat' (first | (simp +contextual [*] <;> fail) | (with_reducible (refine foldl_driversHeld _ _ _ ?_ ?_; rotate_left; intro _ _ _)) | (with_reducible (apply onlyIf_driversHeld; intro _ _)) | split))
@[simp] theorem execTwinPresentPoll_wires (a1) (s : State) : SameWires s (execTwinPresentPoll a1 s) := by
  first | (unfold execTwinPresentPoll; (try apply onlyIf_wires); intros; (repeat' split) <;> (try simp [*]) <;> (try rfl))
@[simp] theorem execKeywayReloadDeadline_wires (s : State) : SameWires s (execKeywayReloadDeadline s) := by
  first | (unfold execKeywayReloadDeadline; (repeat' split) <;> simp [*])
@[simp] theorem execServingDeadline_wires (s : State) : SameWires s (execServingDeadline s) := by
  first | (unfold execServingDeadline; (repeat' split) <;> simp [*])
@[simp] theorem execLendDeadline_driversHeld (a1) (s : State) : KeepsHeld s (execLendDeadline a1 s) := by
  exact onlyIf_driversHeld _ _ _ fun t ht => by rw [record_wires]; exact returnLend_driversHeld _ ht
@[simp] theorem execHoldInRise_driversHeld (s : State) : KeepsHeld s (execHoldInRise s) := by
  unfold execHoldInRise
  intro t ht hs
  unfold onlyIf at ht
  rw [Host.Outcome.next.injEq] at ht
  subst ht
  split
  · rename_i hc
    simp only [Bool.and_eq_true, Bool.not_eq_true'] at hc
    beta_reduce
    extract_lets src t
    split
    · rename_i ho
      exact collide_off _
    · rename_i ho
      have hd : t.keeper.drivers = false := by
        have : t.keeper.drivers = s.keeper.drivers := rfl
        rw [this]
        cases e : s.keeper.drivers with
        | false => rfl
        | true => exact absurd (hs e).1 ho
      have ht : ∀ u : State, wires u = wires t → Held (wires u) := fun u hu hd' => by
        rw [hu] at hd'; exact absurd (hd.symm.trans hd') (by decide)
      split
      · exact ht _ rfl
      · split
        · exact foldl_driversHeld _ _ _ (ht _ rfl) fun u x hu => startTest_driversHeld _ _ _ hu
        · split
          · exact ht _ rfl
          · exact ht _ (waitJoin_wires _)
  · exact hs
@[simp] theorem execHoldInFall_driversHeld (s : State) : KeepsHeld s (execHoldInFall s) := by
  first | (unfold execHoldInFall; grind [followGate_driversHeld, KeepsHeld, onlyIf_driversHeld, Held, wires, kwires])
@[simp] theorem execHoldCollisionTimeout_driversHeld (s : State) : KeepsHeld s (execHoldCollisionTimeout s) := by
  first | (unfold execHoldCollisionTimeout; repeat' (first | (simp +contextual [*] <;> fail) | (with_reducible (refine foldl_driversHeld _ _ _ ?_ ?_; rotate_left; intro _ _ _)) | (with_reducible (apply onlyIf_driversHeld; intro _ _)) | split))
@[simp] theorem execKeeperFeed_wires (s : State) : SameWires s (execKeeperFeed s) := by
  first | (unfold execKeeperFeed; (try apply onlyIf_wires); intros; (repeat' split) <;> (try simp [*]) <;> (try rfl))
@[simp] theorem execBeatEdge_driversHeld (s : State) : KeepsHeld s (execBeatEdge s) := by
  first | (unfold execBeatEdge; grind [missedFeed_driversHeld, KeepsHeld, onlyIf_driversHeld, Held, wires, kwires])
@[simp] theorem execHoldDriverTimer_driversHeld (s : State) : KeepsHeld s (execHoldDriverTimer s) := by
  first | (unfold execHoldDriverTimer; grind [noteHold_wires, KeepsHeld, onlyIf_driversHeld, Held, wires, kwires])
@[simp] theorem execBeatInEdge_wires (s : State) : SameWires s (execBeatInEdge s) := by
  first | (unfold execBeatInEdge; (try apply onlyIf_wires); intros; (repeat' split) <;> (try simp [*]) <;> (try rfl))
@[simp] theorem execBeatInSilent_wires (s : State) : SameWires s (execBeatInSilent s) := by
  first | (unfold execBeatInSilent; (try apply onlyIf_wires); intros; (repeat' split) <;> (try simp [*]) <;> (try rfl))
@[simp] theorem execTakeoverTrigger_driversHeld (s : State) : KeepsHeld s (execTakeoverTrigger s) := by
  first | (unfold execTakeoverTrigger; repeat' (first | (simp +contextual [*] <;> fail) | (with_reducible (refine foldl_driversHeld _ _ _ ?_ ?_; rotate_left; intro _ _ _)) | (with_reducible (apply onlyIf_driversHeld; intro _ _)) | split))
@[simp] theorem execTakeoverMonitor_wires (s : State) : SameWires s (execTakeoverMonitor s) := by
  first | (unfold execTakeoverMonitor; (repeat' split) <;> simp [*])
@[simp] theorem execStandbyRoleRetake_driversHeld (s : State) : KeepsHeld s (execStandbyRoleRetake s) := by
  unfold execStandbyRoleRetake
  refine onlyIf_driversHeld _ _ _ fun t h => ?_
  dsimp only
  split
  · exact h
  · split
    · exact roleAfresh_driversHeld _ h
    · exact h
@[simp] theorem execYieldCriterion_driversHeld (a1) (a2) (s : State) : KeepsHeld s (execYieldCriterion a1 a2 s) := by
  first | (unfold execYieldCriterion; repeat' (first | (simp +contextual [*] <;> fail) | (with_reducible (refine foldl_driversHeld _ _ _ ?_ ?_; rotate_left; intro _ _ _)) | (with_reducible (apply onlyIf_driversHeld; intro _ _)) | split))
@[simp] theorem execYieldReturnTimeout_driversHeld (s : State) : KeepsHeld s (execYieldReturnTimeout s) := by
  first | (unfold execYieldReturnTimeout; repeat' (first | (simp +contextual [*] <;> fail) | (with_reducible (refine foldl_driversHeld _ _ _ ?_ ?_; rotate_left; intro _ _ _)) | (with_reducible (apply onlyIf_driversHeld; intro _ _)) | split))
@[simp] theorem execKeeperReleaseRestart_wires (s : State) : SameWires s (execKeeperReleaseRestart s) := by
  first | (unfold execKeeperReleaseRestart; (repeat' split) <;> simp [*])
@[simp] theorem onMirrored_wires (a1) (f2) (s : State) (hf2 : ∀ x0, wires (f2 x0) = wires x0) : SameWires s (onMirrored a1 f2 s) := by
  first | (unfold onMirrored; simp [*])
@[simp] theorem onCopied_wires (a1) (f2) (s : State) (hf2 : ∀ x0, wires (f2 x0) = wires x0) : SameWires s (onCopied a1 f2 s) := by
  first | (unfold onCopied; simp [*])
@[simp] theorem execHello_driversHeld (a1) (a2) (s : State) : KeepsHeld s (execHello a1 a2 s) := by
  first | (unfold execHello; grind [endSession_wires, refuseJoin_driversHeld, sendHello_wires, startProgress_driversHeld, beginSession_wires, KeepsHeld, onlyIf_driversHeld, Held, wires, kwires])
@[simp] theorem execJoinRetry_wires (s : State) : SameWires s (execJoinRetry s) := by
  first | (unfold execJoinRetry; simp [*])
@[simp] theorem execStatus_wires (a1) (a2) (s : State) : SameWires s (execStatus a1 a2 s) := by
  first | (unfold execStatus; simp [*])
@[simp] theorem execHealthReport_wires (a1) (a2) (s : State) : SameWires s (execHealthReport a1 a2 s) := by
  first | (unfold execHealthReport; (repeat' split) <;> simp [*])
@[simp] theorem execJournal_wires (a1) (a2) (a3) (s : State) : SameWires s (execJournal a1 a2 a3 s) := by
  first | (unfold execJournal; simp [*])
@[simp] theorem execCorniceWrite_wires (a1) (a2) (a3) (s : State) : SameWires s (execCorniceWrite a1 a2 a3 s) := by
  first | (unfold execCorniceWrite; (try apply onlyIf_wires); intros; (repeat' split) <;> (try simp [*]) <;> (try rfl))
@[simp] theorem execCorniceRelease_wires (a1) (a2) (s : State) : SameWires s (execCorniceRelease a1 a2 s) := by
  first | (unfold execCorniceRelease; (try apply onlyIf_wires); intros; (repeat' split) <;> (try simp [*]) <;> (try rfl))
@[simp] theorem execTransport_wires (a1) (a2) (s : State) : SameWires s (execTransport a1 a2 s) := by
  first | (unfold execTransport; simp [*])
@[simp] theorem execOperation_wires (a1) (a2) (a3) (s : State) : SameWires s (execOperation a1 a2 a3 s) := by
  first | (unfold execOperation; simp [*])
@[simp] theorem execMilmoState_wires (a1) (a2) (s : State) : SameWires s (execMilmoState a1 a2 s) := by
  first | (unfold execMilmoState; simp [*])
@[simp] theorem execSettings_wires (a1) (a2) (a3) (a4) (s : State) : SameWires s (execSettings a1 a2 a3 a4 s) := by
  unfold execSettings
  split
  · refine onlyIf_wires _ _ _ fun t => ?_
    rw [mirrorSettings_wires, ackFrames_wires, gotFrame_wires]; rfl
  · exact onMirrored_wires _ _ _ fun t => rfl
@[simp] theorem execCounters_wires (a1) (a2) (s : State) : SameWires s (execCounters a1 a2 s) := by
  first | (unfold execCounters; (try apply onlyIf_wires); intros; (repeat' split) <;> (try simp [*]) <;> (try rfl))
@[simp] theorem execFlushProgress_wires (a1) (a2) (a3) (s : State) : SameWires s (execFlushProgress a1 a2 a3 s) := by
  first | (unfold execFlushProgress; simp [*])
@[simp] theorem execMirrorAck_driversHeld (a1) (a2) (a3) (s : State) : KeepsHeld s (execMirrorAck a1 a2 a3 s) := by
  first | (unfold execMirrorAck; grind [gotFrame_wires, ackedUpTo_wires, afterPlanned_wires, finishPlanned_driversHeld, KeepsHeld, onlyIf_driversHeld, Held, wires, kwires])
@[simp] theorem execCopyFirn_wires (a1) (a2) (a3) (a4) (a5) (s : State) : SameWires s (execCopyFirn a1 a2 a3 a4 a5 s) := by
  first | (unfold execCopyFirn; simp [*])
@[simp] theorem execCopyCornice_wires (a1) (a2) (s : State) : SameWires s (execCopyCornice a1 a2 s) := by
  first | (unfold execCopyCornice; (try apply onlyIf_wires); intros; (repeat' split) <;> (try simp [*]) <;> (try rfl))
@[simp] theorem execCopyGranule_wires (a1) (a2) (a3) (a4) (s : State) : SameWires s (execCopyGranule a1 a2 a3 a4 s) := by
  first | (unfold execCopyGranule; simp [*])
@[simp] theorem execJoinStage_driversHeld (a1) (a2) (a3) (s : State) : KeepsHeld s (execJoinStage a1 a2 a3 s) := by
  unfold execJoinStage
  refine onlyIf_driversHeld _ _ _ fun t ht => ?_
  have hg : Held (wires (gotFrame a1 t)) := by rw [gotFrame_wires]; exact ht
  generalize gotFrame a1 t = u at hg
  dsimp only
  split
  · split
    · rw [sendFrame_wires, resetJoin_wires]; exact hg
    · rw [stageDone_wires]; exact hg
    · rw [stageDone_wires]; exact hg
    · rw [stageDone_wires]; exact hg
    · exact borrow_driversHeld _ hg
    · exact hg
  · split
    · split
      · rw [joinAsked_wires]; exact hg
      · exact hg
      · exact hg
      · exact hg
      · exact hg
    · split
      · split
        · exact driveHold_driversHeld _ hg
        · exact hg
      · split
        · exact startProgress_driversHeld _ hg
        · exact hg
      · exact hg
@[simp] theorem execYield_wires (a1) (a2) (a3) (a4) (s : State) : SameWires s (execYield a1 a2 a3 a4 s) := by
  first | (unfold execYield; simp [*])
@[simp] theorem execHandoff_wires (a1) (a2) (s : State) : SameWires s (execHandoff a1 a2 s) := by
  first | (unfold execHandoff; (try apply onlyIf_wires); intros; (repeat' split) <;> (try simp [*]) <;> (try rfl))
@[simp] theorem execHingeInvalidFrame_wires (a1) (s : State) : SameWires s (execHingeInvalidFrame a1 s) := by
  first | (unfold execHingeInvalidFrame; simp [*])
@[simp] theorem execHingeTrainingComplete_driversHeld (a1) (s : State) : KeepsHeld s (execHingeTrainingComplete a1 s) := by
  first | (unfold execHingeTrainingComplete; grind [linkBack_driversHeld, sendHello_wires, KeepsHeld, onlyIf_driversHeld, Held, wires, kwires])
@[simp] theorem execTransportProgressTimer_wires (s : State) : SameWires s (execTransportProgressTimer s) := by
  first | (unfold execTransportProgressTimer; simp [*])
@[simp] theorem execRetransmissionTimeout_wires (a1) (s : State) : SameWires s (execRetransmissionTimeout a1 s) := by
  first | (unfold execRetransmissionTimeout; (repeat' split) <;> simp [*])
@[simp] theorem execControllerShutdown_wires (a1) (s : State) : SameWires s (execControllerShutdown a1 s) := by
  first | (unfold execControllerShutdown; simp [*])
@[simp] theorem execOrderlyShutdown_driversHeld (a1) (s : State) : KeepsHeld s (execOrderlyShutdown a1 s) := by
  first | (unfold execOrderlyShutdown; repeat' (first | (simp +contextual [*] <;> fail) | (with_reducible (refine foldl_driversHeld _ _ _ ?_ ?_; rotate_left; intro _ _ _)) | (with_reducible (apply onlyIf_driversHeld; intro _ _)) | split))
@[simp] theorem execAbruptShutdown_driversHeld (a1) (s : State) : KeepsHeld s (execAbruptShutdown a1 s) := by
  first | (unfold execAbruptShutdown; repeat' (first | (simp +contextual [*] <;> fail) | (with_reducible (refine foldl_driversHeld _ _ _ ?_ ?_; rotate_left; intro _ _ _)) | (with_reducible (apply onlyIf_driversHeld; intro _ _)) | split))
@[simp] theorem execShutdownDeadline_driversHeld (s : State) : KeepsHeld s (execShutdownDeadline s) := by
  first | (unfold execShutdownDeadline; repeat' (first | (simp +contextual [*] <;> fail) | (with_reducible (refine foldl_driversHeld _ _ _ ?_ ?_; rotate_left; intro _ _ _)) | (with_reducible (apply onlyIf_driversHeld; intro _ _)) | split))
@[simp] theorem execControllerEnable_wires (a1) (s : State) : SameWires s (execControllerEnable a1 s) := by
  first | (unfold execControllerEnable; simp [*])
@[simp] theorem execFirmwareImageDownload_wires (a1) (a2) (a3) (a4) (s : State) : SameWires s (execFirmwareImageDownload a1 a2 a3 a4 s) := by
  first | (unfold execFirmwareImageDownload; grind [adm_wires, done_wires, takeBytes_wires, refuseAdm_wires, refuseIncoming_wires, SameWires, onlyIf_wires, foldl_wires])
@[simp] theorem execCommitConfiguration_driversHeld (a1) (a2) (a3) (s : State) : KeepsHeld s (execCommitConfiguration a1 a2 a3 s) := by
  unfold execCommitConfiguration; exact adm_driversHeld _ _ _ _ _ _ fun t ht => firmwareCommit_driversHeld _ _ _ _ _ ht
@[simp] theorem execCommitStage_driversHeld (a1) (a2) (a3) (s : State) : KeepsHeld s (execCommitStage a1 a2 a3 s) := by
  unfold execCommitStage; exact adm_driversHeld _ _ _ _ _ _ fun t ht => firmwareCommit_driversHeld _ _ _ _ _ ht
@[simp] theorem execCommitStageActivate_driversHeld (a1) (a2) (a3) (s : State) : KeepsHeld s (execCommitStageActivate a1 a2 a3 s) := by
  unfold execCommitStageActivate; exact adm_driversHeld _ _ _ _ _ _ fun t ht => firmwareCommit_driversHeld _ _ _ _ _ ht
@[simp] theorem execCommitActivateStaged_driversHeld (a1) (a2) (a3) (s : State) : KeepsHeld s (execCommitActivateStaged a1 a2 a3 s) := by
  unfold execCommitActivateStaged; exact adm_driversHeld _ _ _ _ _ _ fun t ht => firmwareCommit_driversHeld _ _ _ _ _ ht
@[simp] theorem execCommitActivateRestart_driversHeld (a1) (a2) (a3) (s : State) : KeepsHeld s (execCommitActivateRestart a1 a2 a3 s) := by
  unfold execCommitActivateRestart; exact adm_driversHeld _ _ _ _ _ _ fun t ht => firmwareCommit_driversHeld _ _ _ _ _ ht
@[simp] theorem execBankEraseComplete_driversHeld (s : State) : KeepsHeld s (execBankEraseComplete s) := by
  first | (unfold execBankEraseComplete; grind [restartProgress_driversHeld, markPending_wires, KeepsHeld, onlyIf_driversHeld, Held, wires, kwires])
@[simp] theorem execBankEraseDeadline_wires (s : State) : SameWires s (execBankEraseDeadline s) := by
  first | (unfold execBankEraseDeadline; (repeat' split) <;> simp [*])
@[simp] theorem execTrialConfirm_wires (s : State) : SameWires s (execTrialConfirm s) := by
  first | (unfold execTrialConfirm; simp [*])
theorem execConfirmationMonitor_core (s : State) (h : Held (wires s)) (c : Nat) (g : State → State) (hg : ∀ t, wires (g t) = wires t) : Held (wires (
    let a := record 0x9810 (pathMonitor 0) (le 1 c) s
    let b := if a.keeper.holdOut then releaseHold a else a
    g b)) := by
  extract_lets a b
  have ha : Held (wires a) := by rw [show wires a = wires s from record_wires _ _ _ _]; exact h
  rw [hg]
  cases e : a.keeper.holdOut
  · simp only [b, e]; exact ha
  · simp only [b, e]; exact releaseHold_driversHeld _ ha
@[simp] theorem execConfirmationMonitor_driversHeld (s : State) : KeepsHeld s (execConfirmationMonitor s) := by
  refine onlyIf_driversHeld _ _ _ fun t ht => execConfirmationMonitor_core t ht ((unmet t).getD 0) (fun b => dueWarm .confirmation
      (if b.boot.trial then { b with boot := { b.boot with reverted := some (b.boot.bank, (bankOf b.boot b.boot.bank).pkgId, (unmet t).getD 0) } } else b)) fun b => ?_
  rw [dueWarm_wires]; split <;> rfl
@[simp] theorem execRollbackFuseTimer_wires (s : State) : SameWires s (execRollbackFuseTimer s) := by
  first | (unfold execRollbackFuseTimer; (repeat' split) <;> simp [*])
@[simp] theorem execTftpWriteRequest_wires (a1) (a2) (a3) (s : State) : SameWires s (execTftpWriteRequest a1 a2 a3 s) := by
  first | (unfold execTftpWriteRequest; simp [*])
@[simp] theorem execTftpData_wires (a1) (a2) (a3) (a4) (s : State) : SameWires s (execTftpData a1 a2 a3 a4 s) := by
  unfold execTftpData
  split
  · refine onlyIf_wires _ _ _ fun t => ?_
    extract_lets bs
    split
    · exact tftpRefuse_wires _ _ _ _
    · split
      · exact (tftpAck_wires _ _ _).trans rfl
      · split
        · exact tftpRefuse_wires _ _ _ _
        · split
          · exact tftpRefuse_wires _ _ _ _
          · split
            · exact tftpRefuse_wires _ _ _ _
            · rw [tftpWrite_wires, tftpAck_wires]
  · rw [sameWires_next]
@[simp] theorem execOfferTimer_wires (s : State) : SameWires s (execOfferTimer s) := by
  first | (unfold execOfferTimer; grind [keepTarget_wires, sendFwd_wires, onForwarder_wires, SameWires, onlyIf_wires, foldl_wires])
@[simp] theorem execPullProgressTimeout_wires (s : State) : SameWires s (execPullProgressTimeout s) := by
  first | (unfold execPullProgressTimeout; (repeat' split) <;> simp [*])
@[simp] theorem execChainGiveUp_wires (s : State) : SameWires s (execChainGiveUp s) := by
  first | (unfold execChainGiveUp; (repeat' split) <;> simp [*])
@[simp] theorem execUpdatePull_wires (a1) (a2) (s : State) : SameWires s (execUpdatePull a1 a2 s) := by
  first | (unfold execUpdatePull; grind [gram_wires, segments_wires, onForwarder_wires, SameWires, onlyIf_wires, foldl_wires])
@[simp] theorem execUpdateStaged_wires (a1) (a2) (s : State) : SameWires s (execUpdateStaged a1 a2 s) := by
  first | (unfold execUpdateStaged; grind [gram_wires, record_wires, onForwarder_wires, SameWires, onlyIf_wires, foldl_wires, wires, kwires])
@[simp] theorem execUpdateRefused_wires (a1) (a2) (s : State) : SameWires s (execUpdateRefused a1 a2 s) := by
  first | (unfold execUpdateRefused; grind [gram_wires, moveOn_wires, SameWires, onlyIf_wires, foldl_wires])
@[simp] theorem execUpdateOffer_wires (a1) (a2) (s : State) : SameWires s (execUpdateOffer a1 a2 s) := by
  first | (unfold execUpdateOffer; grind [gram_wires, twinTurn_wires, answerStaged_wires, refuseChain_wires, pullNext_wires, SameWires, onlyIf_wires, foldl_wires, wires, kwires])
@[simp] theorem execUpdateSegment_wires (a1) (a2) (s : State) : SameWires s (execUpdateSegment a1 a2 s) := by
  first | (unfold execUpdateSegment; grind [gram_wires, refuseChain_wires, pullNext_wires, answerStaged_wires, stagePackage_wires, SameWires, onlyIf_wires, foldl_wires, wires, kwires])
@[simp] theorem execUpdateConfirmed_driversHeld (a1) (a2) (s : State) : KeepsHeld s (execUpdateConfirmed a1 a2 s) := by
  unfold execUpdateConfirmed
  refine gram_driversHeld _ _ _ _ fun t ht => ?_
  split
  · split
    · exact activationProgress_driversHeld _ ht
    · split
      · rw [answerStaged_wires]; exact ht
      · exact ht
  · split
    · rw [answerStaged_wires]; exact ht
    · exact ht
@[simp] theorem execConfirmedTimer_wires (s : State) : SameWires s (execConfirmedTimer s) := by
  first | (unfold execConfirmedTimer; grind [keepTarget_wires, sendFwd_wires, onForwarder_wires, SameWires, onlyIf_wires, foldl_wires])
@[simp] theorem coherent_wires (a1) (f2) (s : State) (hf2 : ∀ x0 x1, wires (f2 x0 x1) = wires x1) : SameWires s (coherent a1 f2 s) := by
  first | (unfold coherent; simp [*])
@[simp] theorem execGets_wires (a1) (s : State) : SameWires s (execGets a1 s) := by
  first | (unfold execGets; simp [*])
@[simp] theorem execGetm_wires (a1) (s : State) : SameWires s (execGetm a1 s) := by
  first | (unfold execGetm; simp [*])
@[simp] theorem execUpgrade_wires (a1) (s : State) : SameWires s (execUpgrade a1 s) := by
  first | (unfold execUpgrade; simp [*])
@[simp] theorem execPutm_wires (a1) (a2) (s : State) : SameWires s (execPutm a1 a2 s) := by
  first | (unfold execPutm; simp [*])
@[simp] theorem execPute_wires (a1) (s : State) : SameWires s (execPute a1 s) := by
  first | (unfold execPute; simp [*])
@[simp] theorem execPuts_wires (a1) (s : State) : SameWires s (execPuts a1 s) := by
  first | (unfold execPuts; simp [*])
@[simp] theorem execCrossedevict_wires (a1) (s : State) : SameWires s (execCrossedevict a1 s) := by
  first | (unfold execCrossedevict; grind [coherent_wires, sendCoh_wires, answered_wires, onCoh_wires, SameWires, onlyIf_wires, foldl_wires])
@[simp] theorem execInvack_wires (a1) (s : State) : SameWires s (execInvack a1 s) := by
  unfold execInvack
  refine coherent_wires _ _ _ fun h t => ?_
  split
  · split
    · exact answered_wires _ _ _ _ _ _
    · rfl
  · rfl
@[simp] theorem execFwdgets_wires (a1) (a2) (a3) (a4) (s : State) : SameWires s (execFwdgets a1 a2 a3 a4 s) := by
  unfold execFwdgets
  refine coherent_wires _ _ _ fun h t => ?_
  split
  · rfl
  · split
    · exact crossedEvict_wires _ _ _
    · dsimp only
      rw [sendCoh_wires, sendCoh_wires, onCoh_wires]
@[simp] theorem execFwdgetm_wires (a1) (a2) (a3) (a4) (s : State) : SameWires s (execFwdgetm a1 a2 a3 a4 s) := by
  unfold execFwdgetm
  refine coherent_wires _ _ _ fun h t => ?_
  split
  · rfl
  · split
    · exact crossedEvict_wires _ _ _
    · rw [sendCoh_wires, onCoh_wires]
@[simp] theorem execInv_wires (a1) (a2) (s : State) : SameWires s (execInv a1 a2 s) := by
  first | (unfold execInv; simp [*])
@[simp] theorem execRecall_wires (a1) (a2) (a3) (s : State) : SameWires s (execRecall a1 a2 a3 s) := by
  first | (unfold execRecall; grind [coherent_wires, onCoh_wires, crossedEvict_wires, sendCoh_wires, SameWires, onlyIf_wires, foldl_wires])
@[simp] theorem execData_wires (a1) (a2) (a3) (a4) (s : State) : SameWires s (execData a1 a2 a3 a4 s) := by
  first | (unfold execData; grind [coherent_wires, dataAtDir_wires, dataAtRequester_wires, SameWires, onlyIf_wires, foldl_wires])
@[simp] theorem execPutack_wires (a1) (s : State) : SameWires s (execPutack a1 s) := by
  first | (unfold execPutack; simp [*])
@[simp] theorem execCheckpointGranuleWrite_wires (a1) (s : State) : SameWires s (execCheckpointGranuleWrite a1 s) := by
  first | (unfold execCheckpointGranuleWrite; (try apply onlyIf_wires); intros; (repeat' split) <;> (try simp [*]) <;> (try rfl))
@[simp] theorem execDeltaLogSegmentWrite_wires (a1) (s : State) : SameWires s (execDeltaLogSegmentWrite a1 s) := by
  unfold execDeltaLogSegmentWrite
  refine onlyIf_wires _ _ _ fun t => ?_
  split
  · dsimp only
    split
    · rename_i v heq; have h := congrArg (fun p => wires p.2) heq; simp only [metaWrite_wires] at h; rw [releaseSegments_wires, withDelta_wires]; exact h.symm
    · rename_i v heq; have h := congrArg (fun p => wires p.2) heq; simp only [metaWrite_wires] at h; exact h.symm
  · rfl
@[simp] theorem execGranuleRebuild_wires (a1) (s : State) : SameWires s (execGranuleRebuild a1 s) := by
  first | (unfold execGranuleRebuild; simp [*])
@[simp] theorem execLedgerDeltaRunWrite_wires (a1) (s : State) : SameWires s (execLedgerDeltaRunWrite a1 s) := by
  unfold execLedgerDeltaRunWrite
  refine onlyIf_wires _ _ _ fun t => ?_
  dsimp only
  split
  · rename_i v heq; have h := congrArg (fun p => wires p.2) heq; simp only [writeRun_wires] at h
    split
    · exact (addBg_wires _ _ _ _ _).trans h.symm
    · exact h.symm
  · rename_i v heq; have h := congrArg (fun p => wires p.2) heq; simp only [writeRun_wires] at h; exact h.symm
@[simp] theorem execLedgerMerge_wires (a1) (s : State) : SameWires s (execLedgerMerge a1 s) := by
  unfold execLedgerMerge
  refine onlyIf_wires _ _ _ fun t => ?_
  extract_lets r old
  split
  · rename_i v heq; have h := congrArg (fun p => wires p.2) heq; simp only [writeRun_wires] at h
    rw [doneBg_wires, journal_wires, deadGrains_wires]; exact h.symm
  · rename_i v heq; have h := congrArg (fun p => wires p.2) heq; simp only [writeRun_wires] at h; exact h.symm
@[simp] theorem execTombstoneRelease_wires (a1) (a2) (s : State) : SameWires s (execTombstoneRelease a1 a2 s) := by
  first | (unfold execTombstoneRelease; (try apply onlyIf_wires); intros; (repeat' split) <;> (try simp [*]) <;> (try rfl))
@[simp] theorem execVersionRecordLapse_wires (a1) (a2) (a3) (s : State) : SameWires s (execVersionRecordLapse a1 a2 a3 s) := by
  first | (unfold execVersionRecordLapse; (try apply onlyIf_wires); intros; (repeat' split) <;> (try simp [*]) <;> (try rfl))
@[simp] theorem execProgramUnitTimeout_wires (a1) (s : State) : SameWires s (execProgramUnitTimeout a1 s) := by
  unfold execProgramUnitTimeout; exact andSettle_wires _ _ (mediaProgramUnitTimeout_wires _ _)
@[simp] theorem execFlashProgramComplete_wires (a1) (a2) (a3) (a4) (s : State) : SameWires s (execFlashProgramComplete a1 a2 a3 a4 s) := by
  unfold execFlashProgramComplete; exact andSettle_wires _ _ (mediaFlashProgramComplete_wires _ _ _ _ _)
@[simp] theorem execFlashReadComplete_wires (a1) (a2) (a3) (a4) (a5) (a6) (a7) (s : State) : SameWires s (execFlashReadComplete a1 a2 a3 a4 a5 a6 a7 s) := by
  unfold execFlashReadComplete; exact andSettle_wires _ _ (mediaFlashReadComplete_wires _ _ _ _ _ _ _ _)
@[simp] theorem execReadingLadderDeadline_driversHeld (a1) (s : State) : KeepsHeld s (execReadingLadderDeadline a1 s) := by
  unfold execReadingLadderDeadline; exact andSettle_driversHeld _ _ (mediaReadingLadderDeadline_driversHeld _ _)
@[simp] theorem execFlashEraseComplete_wires (a1) (a2) (a3) (s : State) : SameWires s (execFlashEraseComplete a1 a2 a3 s) := by
  unfold execFlashEraseComplete; exact andSettle_wires _ _ (mediaFlashEraseComplete_wires _ _ _ _)
@[simp] theorem execSpillSetErase_wires (a1) (a2) (s : State) : SameWires s (execSpillSetErase a1 a2 s) := by
  unfold execSpillSetErase; exact andSettle_wires _ _ (mediaSpillSetErase_wires _ _ _)
@[simp] theorem execDieReadyTimeout_wires (a1) (s : State) : SameWires s (execDieReadyTimeout a1 s) := by
  unfold execDieReadyTimeout; exact andSettle_wires _ _ (mediaDieReadyTimeout_wires _ _)
@[simp] theorem execBackgroundLevelRise_wires (a1) (a2) (a3) (s : State) : SameWires s (execBackgroundLevelRise a1 a2 a3 s) := by
  unfold execBackgroundLevelRise; exact andSettle_wires _ _ (mediaBackgroundLevelRise_wires _ _ _ _)
@[simp] theorem execBackgroundDeadline_wires (a1) (a2) (a3) (s : State) : SameWires s (execBackgroundDeadline a1 a2 a3 s) := by
  unfold execBackgroundDeadline; exact andSettle_wires _ _ (mediaBackgroundDeadline_wires _ _ _ _)
@[simp] theorem execSweepVisit_wires (a1) (a2) (a3) (a4) (a5) (s : State) : SameWires s (execSweepVisit a1 a2 a3 a4 a5 s) := by
  unfold execSweepVisit; exact andSettle_wires _ _ (mediaSweepVisit_wires _ _ _ _ _ _)
@[simp] theorem execSweepPassEnd_wires (s : State) : SameWires s (execSweepPassEnd s) := by
  unfold execSweepPassEnd; exact andSettle_wires _ _ (mediaSweepPassEnd_wires _)
@[simp] theorem execReadCounterCopy_wires (s : State) : SameWires s (execReadCounterCopy s) := by
  unfold execReadCounterCopy; exact andSettle_wires _ _ (mediaReadCounterCopy_wires _)
@[simp] theorem execRewrite_wires (a1) (a2) (s : State) : SameWires s (execRewrite a1 a2 s) := by
  unfold execRewrite; exact andSettle_wires _ _ (mediaRewrite_wires _ _ _)
@[simp] theorem execGarbageCollection_wires (s : State) : SameWires s (execGarbageCollection s) := by
  unfold execGarbageCollection; exact andSettle_wires _ _ (mediaGarbageCollection_wires _)
@[simp] theorem execStaticWearLevelling_wires (a1) (s : State) : SameWires s (execStaticWearLevelling a1 s) := by
  unfold execStaticWearLevelling; exact andSettle_wires _ _ (mediaStaticWearLevelling_wires _ _)
@[simp] theorem execSelfTestComplete_driversHeld (a1) (a2) (s : State) : KeepsHeld s (execSelfTestComplete a1 a2 s) := by
  unfold execSelfTestComplete; exact andSettle_driversHeld _ _ (memSelfTestComplete_driversHeld _ _ _)
@[simp] theorem execSelfTestDeadline_driversHeld (a1) (s : State) : KeepsHeld s (execSelfTestDeadline a1 s) := by
  unfold execSelfTestDeadline; exact andSettle_driversHeld _ _ (memSelfTestDeadline_driversHeld _ _)
@[simp] theorem execRetirementEntryExpiry_wires (a1) (s : State) : SameWires s (execRetirementEntryExpiry a1 s) := by
  unfold execRetirementEntryExpiry; exact andSettle_wires _ _ (memRetirementEntryExpiry_wires _ _)
@[simp] theorem execCorrectableRead_driversHeld (a1) (s : State) : KeepsHeld s (execCorrectableRead a1 s) := by
  unfold execCorrectableRead; exact andSettle_driversHeld _ _ (memCorrectableRead_driversHeld _ _)
@[simp] theorem execBucketLeak_wires (a1) (s : State) : SameWires s (execBucketLeak a1 s) := by
  unfold execBucketLeak; exact andSettle_wires _ _ (memBucketLeak_wires _ _)
@[simp] theorem execMemoryScrub_driversHeld (a1) (a2) (s : State) : KeepsHeld s (execMemoryScrub a1 a2 s) := by
  unfold execMemoryScrub; exact andSettle_driversHeld _ _ (memMemoryScrub_driversHeld _ _ _)
@[simp] theorem execNarrowWrite_wires (a1) (a2) (s : State) : SameWires s (execNarrowWrite a1 a2 s) := by
  unfold execNarrowWrite; exact andSettle_wires _ _ (memNarrowWrite_wires _ _ _)
@[simp] theorem execCoreLoadUncorrectable_driversHeld (a1) (a2) (a3) (a4) (a5) (s : State) : KeepsHeld s (execCoreLoadUncorrectable a1 a2 a3 a4 a5 s) := by
  unfold execCoreLoadUncorrectable; exact andSettle_driversHeld _ _ (memCoreLoadUncorrectable_driversHeld _ _ _ _ _ _ _)
@[simp] theorem execInstructionFetchUncorrectable_driversHeld (a1) (a2) (a3) (s : State) : KeepsHeld s (execInstructionFetchUncorrectable a1 a2 a3 s) := by
  unfold execInstructionFetchUncorrectable; exact andSettle_driversHeld _ _ (memInstructionFetchUncorrectable_driversHeld _ _ _ _)
@[simp] theorem execDmaReadUncorrectable_driversHeld (a1) (a2) (a3) (s : State) : KeepsHeld s (execDmaReadUncorrectable a1 a2 a3 s) := by
  unfold execDmaReadUncorrectable; exact andSettle_driversHeld _ _ (memDmaReadUncorrectable_driversHeld _ _ _ _)
@[simp] theorem execDmaChannelRestart_wires (a1) (s : State) : SameWires s (execDmaChannelRestart a1 s) := by
  unfold execDmaChannelRestart; exact andSettle_wires _ _ (memDmaChannelRestart_wires _ _)
@[simp] theorem execRingWrite_wires (s : State) : SameWires s (execRingWrite s) := by
  first | (unfold execRingWrite; grind [SameWires, onlyIf_wires, foldl_wires, wires, kwires])
@[simp] theorem execRingWriteComplete_wires (s : State) : SameWires s (execRingWriteComplete s) := by
  first | (unfold execRingWriteComplete; (repeat' split) <;> simp [*])
@[simp] theorem execRingWriteDeadline_wires (s : State) : SameWires s (execRingWriteDeadline s) := by
  first | (unfold execRingWriteDeadline; (repeat' split) <;> simp [*])
@[simp] theorem execSummaryRecordTimer_wires (a1) (s : State) : SameWires s (execSummaryRecordTimer a1 s) := by
  first | (unfold execSummaryRecordTimer; (repeat' split) <;> simp [*])
@[simp] theorem execFrameReceive_wires (a1) (s : State) : SameWires s (execFrameReceive a1 s) := by
  first | (unfold execFrameReceive; (try apply onlyIf_wires); intros; (repeat' split) <;> (try simp [*]) <;> (try rfl))
@[simp] theorem execLinkDown_wires (a1) (a2) (s : State) : SameWires s (execLinkDown a1 a2 s) := by
  first | (unfold execLinkDown; simp [*])
@[simp] theorem execLinkUp_wires (a1) (s : State) : SameWires s (execLinkUp a1 s) := by
  first | (unfold execLinkUp; (repeat' split) <;> simp [*])
@[simp] theorem execNrefclkLoss_wires (s : State) : SameWires s (execNrefclkLoss s) := by
  first | (unfold execNrefclkLoss; simp [*])
@[simp] theorem execPfcFrameReceive_wires (a1) (a2) (s : State) : SameWires s (execPfcFrameReceive a1 a2 s) := by
  first | (unfold execPfcFrameReceive; simp [*])
@[simp] theorem execPfcXoffRefresh_wires (a1) (a2) (a3) (s : State) : SameWires s (execPfcXoffRefresh a1 a2 a3 s) := by
  first | (unfold execPfcXoffRefresh; (repeat' split) <;> simp [*])
@[simp] theorem execPfcPauseDeadline_wires (a1) (a2) (s : State) : SameWires s (execPfcPauseDeadline a1 a2 s) := by
  first | (unfold execPfcPauseDeadline; (repeat' split) <;> simp [*])
@[simp] theorem execReceiveBufferStall_wires (a1) (s : State) : SameWires s (execReceiveBufferStall a1 s) := by
  first | (unfold execReceiveBufferStall; (repeat' split) <;> simp [*])
@[simp] theorem execPauseFrame_wires (a1) (s : State) : SameWires s (execPauseFrame a1 s) := by
  first | (unfold execPauseFrame; simp [*])
@[simp] theorem execTxFrameAge_driversHeld (a1) (a2) (s : State) : KeepsHeld s (execTxFrameAge a1 a2 s) := by
  first | (unfold execTxFrameAge; repeat' (first | (simp +contextual [*] <;> fail) | (with_reducible (refine foldl_driversHeld _ _ _ ?_ ?_; rotate_left; intro _ _ _)) | (with_reducible (apply onlyIf_driversHeld; intro _ _)) | split))
@[simp] theorem execCounterBit31_wires (a1) (a2) (s : State) : SameWires s (execCounterBit31 a1 a2 s) := by
  first | (unfold execCounterBit31; (repeat' split) <;> simp [*])
@[simp] theorem execCounterSweep_wires (s : State) : SameWires s (execCounterSweep s) := by
  first | (unfold execCounterSweep; simp [*])
@[simp] theorem execArpRequest_wires (a1) (a2) (s : State) : SameWires s (execArpRequest a1 a2 s) := by
  first | (unfold execArpRequest; simp [*])
@[simp] theorem execNeighbourSolicitation_wires (a1) (a2) (s : State) : SameWires s (execNeighbourSolicitation a1 a2 s) := by
  first | (unfold execNeighbourSolicitation; simp [*])
@[simp] theorem execEchoRequest_wires (a1) (a2) (a3) (a4) (s : State) : SameWires s (execEchoRequest a1 a2 a3 a4 s) := by
  first | (unfold execEchoRequest; (repeat' split) <;> simp [*])
@[simp] theorem execLldpTransmit_wires (s : State) : SameWires s (execLldpTransmit s) := by
  first | (unfold execLldpTransmit; simp [*])
@[simp] theorem execAnnouncementRepeat_wires (s : State) : SameWires s (execAnnouncementRepeat s) := by
  unfold execAnnouncementRepeat
  refine onlyIf_wires _ _ _ fun t => ?_
  have e : wires (if 0 < t.net.annLeft then announceNow t else t) = wires t := by split <;> simp
  dsimp only
  show wires (if _ then List.foldl _ _ _ else _) = wires t
  split
  · exact (foldl_wires _ _ _ fun u g => reportGroup_wires _ _).trans e
  · exact e
@[simp] theorem execPtpSync_wires (a1) (a2) (a3) (a4) (s : State) : SameWires s (execPtpSync a1 a2 a3 a4 s) := by
  first | (unfold execPtpSync; simp [*])
@[simp] theorem execPtpSyncTimeout_wires (s : State) : SameWires s (execPtpSyncTimeout s) := by
  first | (unfold execPtpSyncTimeout; simp [*])
@[simp] theorem execPtpAnnounce_wires (a1) (a2) (a3) (a4) (s : State) : SameWires s (execPtpAnnounce a1 a2 a3 a4 s) := by
  first | (unfold execPtpAnnounce; simp [*])
@[simp] theorem execPaceWindow_wires (a1) (s : State) : SameWires s (execPaceWindow a1 s) := by
  unfold execPaceWindow
  refine onlyIf_wires _ _ _ fun t => ?_
  dsimp only
  split
  · exact (takeWindow_wires _ _).trans rfl
  · rfl
@[simp] theorem execPaceDecision_wires (s : State) : SameWires s (execPaceDecision s) := by
  first | (unfold execPaceDecision; (repeat' split) <;> simp [*])
@[simp] theorem execAvsbusTransaction_wires (a1) (a2) (a3) (s : State) : SameWires s (execAvsbusTransaction a1 a2 a3 s) := by
  first | (unfold execAvsbusTransaction; simp [*])
@[simp] theorem execAvsbusFailure_wires (s : State) : SameWires s (execAvsbusFailure s) := by
  first | (unfold execAvsbusFailure; (try apply onlyIf_wires); intros; (repeat' split) <;> (try simp [*]) <;> (try rfl))
@[simp] theorem execAvsbusRetry_wires (a1) (a2) (a3) (s : State) : SameWires s (execAvsbusRetry a1 a2 a3 s) := by
  first | (unfold execAvsbusRetry; simp [*])
@[simp] theorem execPaceDeficit_driversHeld (s : State) : KeepsHeld s (execPaceDeficit s) := by
  unfold execPaceDeficit
  split
  · refine onlyIf_driversHeld _ _ _ fun t h => ?_
    dsimp only
    split
    · rw [record_wires]; exact h
    · exact missAndJudge_driversHeld _ (by rw [record_wires]; exact h)
  · rw [keepsHeld_next]; exact id
@[simp] theorem execRefclockLoss_driversHeld (a1) (s : State) : KeepsHeld s (execRefclockLoss a1 s) := by
  first | (unfold execRefclockLoss; grind [linkDownNow_wires, criterionTrue_driversHeld, KeepsHeld, onlyIf_driversHeld, Held, wires, kwires])
@[simp] theorem execCommandRestartDeadline_driversHeld (a1) (s : State) : KeepsHeld s (execCommandRestartDeadline a1 s) := by
  first | (unfold execCommandRestartDeadline; repeat' (first | (simp +contextual [*] <;> fail) | (with_reducible (refine foldl_driversHeld _ _ _ ?_ ?_; rotate_left; intro _ _ _)) | (with_reducible (apply onlyIf_driversHeld; intro _ _)) | split))
@[simp] theorem execPowerFailDetected_driversHeld (a1) (a2) (s : State) : KeepsHeld s (execPowerFailDetected a1 a2 s) := by
  first | (unfold execPowerFailDetected; grind [powerDown_driversHeld, releaseHold_driversHeld, unheldFail_driversHeld, dropTest_wires, record_wires, beginFlush_wires, park_wires, KeepsHeld, onlyIf_driversHeld, Held, wires, kwires])
@[simp] theorem execFlushComplete_driversHeld (a1) (a2) (s : State) : KeepsHeld s (execFlushComplete a1 a2 s) := by
  first | (unfold execFlushComplete; (repeat' split) <;> simp +contextual [*])
@[simp] theorem execFlushDeadline_wires (s : State) : SameWires s (execFlushDeadline s) := by
  first | (unfold execFlushDeadline; (repeat' split) <;> simp [*])
@[simp] theorem execInputSupplyReturn_wires (s : State) : SameWires s (execInputSupplyReturn s) := by
  first | (unfold execInputSupplyReturn; (repeat' split) <;> (try simp [*]) <;> rfl)
@[simp] theorem execPowerMeasurement_wires (a1) (a2) (a3) (a4) (s : State) : SameWires s (execPowerMeasurement a1 a2 a3 a4 s) := by
  first | (unfold execPowerMeasurement; (try apply onlyIf_wires); intros; (repeat' split) <;> (try simp [*]) <;> (try rfl))
@[simp] theorem execCapExceededDeadline_wires (s : State) : SameWires s (execCapExceededDeadline s) := by
  first | (unfold execCapExceededDeadline; (repeat' split) <;> simp [*])
@[simp] theorem execThermalAction_driversHeld (a1) (s : State) : KeepsHeld s (execThermalAction a1 s) := by
  first | (unfold execThermalAction; grind [thermalRow_driversHeld, KeepsHeld, onlyIf_driversHeld, Held, wires, kwires])
@[simp] theorem execThermalTrip_driversHeld (s : State) : KeepsHeld s (execThermalTrip s) := by
  first | (unfold execThermalTrip; grind [releaseHold_driversHeld, powerDown_driversHeld, KeepsHeld, onlyIf_driversHeld, Held, wires, kwires])
@[simp] theorem execThermalRestart_wires (s : State) : SameWires s (execThermalRestart s) := by
  first | (unfold execThermalRestart; (repeat' split) <;> simp [*])
@[simp] theorem execThermalHandoverTimeout_driversHeld (s : State) : KeepsHeld s (execThermalHandoverTimeout s) := by
  unfold execThermalHandoverTimeout
  split
  · refine onlyIf_driversHeld _ _ _ fun t ht => ?_
    extract_lets src u
    have hu : Held (wires u) := ht
    split
    · exact stopDevice_driversHeld _ (by rw [sendFrame_wires]; exact hu)
    · exact hu
  · rw [keepsHeld_next]; exact id
@[simp] theorem execTokenRequest_wires (a1) (a2) (a3) (s : State) : SameWires s (execTokenRequest a1 a2 a3 s) := by
  first | (unfold execTokenRequest; simp [*])
@[simp] theorem execTokenGrant_wires (s : State) : SameWires s (execTokenGrant s) := by
  first | (unfold execTokenGrant; (repeat' split) <;> simp [*])
@[simp] theorem execEnergyIntervalClose_wires (s : State) : SameWires s (execEnergyIntervalClose s) := by
  first | (unfold execEnergyIntervalClose; (repeat' split) <;> simp [*])
@[simp] theorem execPowerStateAdopt_wires (s : State) : SameWires s (execPowerStateAdopt s) := by
  first | (unfold execPowerStateAdopt; grind [SameWires, onlyIf_wires, foldl_wires, wires, kwires])
@[simp] theorem execWardScrubTick_wires (a1) (a2) (s : State) : SameWires s (execWardScrubTick a1 a2 s) := by
  first | (unfold execWardScrubTick; simp [*])
@[simp] theorem execWardShadowRebuilt_wires (a1) (a2) (s : State) : SameWires s (execWardShadowRebuilt a1 a2 s) := by
  first | (unfold execWardShadowRebuilt; simp [*])
@[simp] theorem execWardScrubPassDeadline_wires (a1) (s : State) : SameWires s (execWardScrubPassDeadline a1 s) := by
  first | (unfold execWardScrubPassDeadline; simp [*])
@[simp] theorem execWardGroupRelocation_wires (a1) (s : State) : SameWires s (execWardGroupRelocation a1 s) := by
  first | (unfold execWardGroupRelocation; grind [retireWardBank_wires, record_wires, SameWires, onlyIf_wires, foldl_wires, wires, kwires])
end Sys2Proof.Machine
end

