-- ==== Sys2Proof/Tests/Slice0.lean ====
section
/-! SUPPORT. Tests of the model on fixed values, and for every statement with hypotheses a state and operands that meet them. -/

namespace Sys2Proof.Tests

open Sys2Proof.Machine

set_option maxRecDepth 10000

/-! ### States -/

/-- A device at a keeper state. -/
def atKeeper (k : Keeper) : State := { State.reset with keeper := k }

/-- A device whose cores run, at a time. -/
def up (t : Nat) : State := { atKeeper { Keeper.reset with phase := .released } with now := t }

/-- A serving device that holds the pair alone. -/
def solo (t : Nat) : State :=
  { up t with twin := { Twin.reset with roleState := .solo }, start := { Startup.reset with serving := true, service := true, step := 9 } }

/-- A small configuration: one namespace for host "h", TCP and RDMA, one pair in slot 0. -/
def cfg0 : Cfg :=
  { pair := 1, seq := 1, name := "t"
    net := { v6 := false, v4 := true, tcp := true, rdma := true, port := 4420, svcMac := 1, svc4 := 1, svc6 := 1, dev4 := (2, 3), dev6 := (2, 3),
             sgmii := false, ptpPeer := false, ptpTransport := 0, ptpDomain := 0, lossless := [5, 6], groupModes := [1, 1, 1, 1],
             groupConn := [0, 0, 0, 0], marks := [], macs := [] }
    geo := { soloBus := true, jedec := false, rate := 2400, bits := 3, planes := 4, page := 16384, spare := 2048, pages := 1024, blocks := 512,
             gbit := 2048, absentDies := [] }
    pow := { capMf := 1000, vCut := 6000, vFull := 12000, iT := 1000, esr := 10, eFix := 1000, eGib := 1000, eMin := 1, periodH := 168, budget := 1000,
             thaw := 100, idle := 10, cRead := 1, cTlc := 4, cSlc := 2, cErase := 3, cX24 := 1, cX36 := 2, cWake := 1, intervalMs := 10, dormant := true }
    roster := some { ident := 1, port := 5000, lossS := 30, calThr := 4096, inBulk := 100, outBulk := 100, mcast := false, p0 := 1, p1 := 2
                     slots := [{ slot := 0, pair := 1, zone := 0, rack := 0, feed := 0, retiring := false, a4 := some 1, a6 := none }] }
    nss := [{ id := 1, pol := { k := 1, m := 0, thr := 1, ack := 1, dom := .rack, qos := 0 }, maxKey := 255, redirect := false, bankSet := [],
              q0 := 1, q1 := 2, hosts := ["h"] }]
    ward := { cascade := [], actions := [], images := [] }
    lim := { rate := 10, burst := 100, overs := [] }
    media := { sweepDays := 7, rdThr := 100000, rdSpill := 100000, spread := 100, goal := 10, floor := 5, reserve := 2, spare := 10, spareThr := 10 }
    hinge := { twin := false, netLoss := true, missLimit := 4, windowMs := 1, serialA := 1, serialB := 2 }
    sec := { erase := true, windowH := 24, rekey := 24, successor := 0, pkgs := [] }
    gauge := { div := 1, ins := [] } }

/-- The pair of that configuration, alone in its icefield, serving at slot 0. -/
def served (t : Nat) : State :=
  { solo t with
    cfg := some cfg0
    net := { Net.reset with macs := [{ freshMac 0 0 1 with up := true }] }
    gauge := { Gauge.reset with passed := true, aDev := 100, aTwin := 100 }
    sec := { Sec.reset with root := some 1, salts := [(1, 1)] }
    kw := { Keyway.reset with dram := 2 ^ 36 }
    ice := { Ice.reset with slot := some 0, viewed := true, own := .placing, view := [⟨0, .placing, false, 1, 0, 0, 0⟩] } }

/-- With its flash drivers enabled. -/
def driven (t : Nat) : State := { served t with keeper := { (served t).keeper with drivers := true, holdOut := true } }

/-- A connection on MAC 0. -/
def conn (idx cntl qid : Nat) (mgmt inited : Bool) : Conn :=
  { idx := idx, rdma := false, mgmt := mgmt, disc := false, cntl := cntl, qid := qid, qsize := 31, inited := inited, hdgst := false, ddgst := false,
    align := 0, carrier := none, sndAck := 0, sndNxt := 0, rcvNxt := 0, wnd := 0, mac := 0 }

/-- A controller of host "h". -/
def ctrl (id : Nat) (mgmt : Bool) : Ctrl :=
  { id := id, mgmt := mgmt, disc := false, nqn := "h", kato := 0, seenAt := 0, queues := 64, aec := 0, aers := [], masked := [], waiting := [],
    sat := 30000, cc := 1, shst := 0, props := [], errors := [], errCount := 0, changed := [] }

/-- Connection 1 before its first unit, connection 2 before its Connect. -/
def opened (s : State) : State := { s with host := { s.host with conns := [conn 1 0 0 false false, conn 2 0 0 false true] } }

/-- An admin queue of controller 1 on connection 1, at the service address or at the management address. -/
def adminOn (mgmt : Bool) (s : State) : State := { s with host := { s.host with conns := [conn 1 1 0 mgmt true], ctrls := [ctrl 1 mgmt] } }

/-- With it an I/O queue on connection 2, and connection 3 before its Connect. -/
def ioOn (s : State) : State :=
  { s with host := { s.host with conns := [conn 1 1 0 false true, conn 2 1 1 false true, conn 3 0 0 false true], ctrls := [ctrl 1 false] } }

/-- A command on the admin queue. -/
def cmd1 : Adm := ⟨1, 7⟩

/-! ### Objects -/

/-- The policy of the sample namespace. -/
def pol0 : Policy := { k := 1, m := 0, thr := 1, ack := 1, dom := .rack, qos := 0 }

/-- No condition. -/
def opts0 : StoreOpts := { ifExists := false, ifAbsent := false, ifVersion := false, expected := 0 }

/-- An item of key [1] in namespace 1. -/
def item0 (st : Nat) : Item :=
  { ns := 1, chunk := 0, key := [1], pos := 0, storeId := 5, version := 4096, st := st, intent := false, d3 := false, replica := true, tomb := false,
    repair := false, domShort := false, k := 1, m := 0, thr := 1, ack := 1, dom := .rack, holders := [0], len := 4, valueLen := 4, grains := [0],
    flash := [], sb := 0, counter := 0, ackAt := 0, queryAt := 0, coord := 0, zext := false, released := [] }

/-- Its fragment as a Store carries it. -/
def frag0 (data : List Byte) : FragB :=
  { ns := 1, chunk := 0, key := [1], pos := 0, k := 1, m := 0, storeId := 6, version := 0, len := data.length, valueLen := data.length, segOff := 0,
    verReq := false, replica := true, tomb := false, repair := false, domShort := false, dom := .rack, ack := 1, thr := 1, opts := opts0, result := 0,
    holders := [0], data := data }

/-- A version of it at its coordinator. -/
def ver0 (st : Nat) (tomb : Bool) : CoVer :=
  { version := 4096, storeId := 5, st := st, intent := false, tomb := tomb, k := 1, m := 0, thr := 1, ack := 1, dom := .rack, domShort := false,
    valueLen := 4, nChunks := 1, chunks := [{ chunk := 0, holders := [(0, 0)], d1 := [0], d3 := [0], lost := [] }], assignedAt := 0, commitTime := 0,
    zext := [], unacked := [], sentAt := 0 }

/-- Its coordinating record. -/
def rec0 (vs : List CoVer) : CoRec := { ns := 1, key := [1], bin := 0, greatest := 4096, vers := vs }

/-- A Store of it at its entry pair, by command 9 of connection 2. -/
def store0 (chunks : List EChunk) (stage got : Nat) : EStore :=
  { id := 6, conn := 2, cid := 9, ns := 1, key := [1], tomb := false, pol := pol0, opts := opts0, valueLen := 4, got := got, data := [], chunks := chunks,
    version := 0, versionAt := 0, coord := 0, tries := 0, stage := stage, at_ := 0, commitAt := 0, intents := [], asked := [], posted := false,
    d1 := false, timeout := 30000, qos := 0 }

/-- Its chunk, sent to slot 0 or not yet. -/
def chunk0 (sent : Option Nat) : EChunk :=
  { chunk := 0, len := 4, grains := [0], bin := 0, poss := [⟨0, 0, sent, 0, 0, false⟩], passed := [], sentAt := 0, allSent := sent.isSome, domShort := false }

/-- A datagram's header from a slot, without its tag. -/
def hdrOf (slot type : Nat) : Hdr :=
  { bytes := be 2 0x4D4C ++ be 1 1 ++ be 1 type ++ be 2 0 ++ be 2 slot ++ be 1 0 ++ be 1 0 ++ be 2 0 ++ be 4 0 ++ be 8 1 ++ be 4 1 ++ be 4 1, tag := [] }

/-- The serving pair with a Store, records and items. -/
def withIce (f : Ice → Ice) (t : Nat) : State := { served t with ice := f (served t).ice }

/-! ### Well-formedness: each check refuses a term outside its range -/

/-- The entry of an Exist for key [1] on connection 2. -/
def entry0 : Sqe := mkSqe 2 0x14 9 1 0 [1] 0 0 0 0 0 0 0

/-- A frame of a wake pattern. -/
def plain0 : Frame :=
  { mac := 16, len := 64, fcsOk := true, symbolOk := true, bufferFull := false, dest := 0, vlan := none, prio := 7, etherType := 0x0800,
    ipOk := true, arp := false, l4Ok := true, milmo := false, bytes := [] }

/-- A site of die-X SRAM. -/
def spot0 : Site := { mem := 0, path := 0, idx := 0, kind := 0, addr := 0 }

theorem test_wf_role : Instr.wf (.coldStart 1 false 0) = true ∧ Instr.wf (.coldStart 2 false 0) = false := by decide
theorem test_wf_mac : Instr.wf (.linkUp 16) = true ∧ Instr.wf (.linkUp 17) = false := by decide
theorem test_wf_die : Instr.wf (.dieReadyTimeout 8191) = true ∧ Instr.wf (.dieReadyTimeout 8192) = false := by decide
theorem test_wf_slot : Instr.wf (.lossTimeout 4095) = true ∧ Instr.wf (.lossTimeout 4096) = false := by decide
theorem test_wf_bin : Instr.wf (.handoverFinal 1048575) = true ∧ Instr.wf (.handoverFinal 1048576) = false := by decide
theorem test_wf_namespace : Instr.wf (.ledgerMerge 65535) = true ∧ Instr.wf (.ledgerMerge 65536) = false := by decide
theorem test_wf_chunk : Instr.wf (.holderStatusQuery 0 65535) = true ∧ Instr.wf (.holderStatusQuery 0 65536) = false := by decide
theorem test_wf_position :
    Instr.wf (.fragmentResend 0 0 31) = true ∧ Instr.wf (.fragmentResend 0 0 0xFFFF) = true ∧ Instr.wf (.fragmentResend 0 0 32) = false := by decide
theorem test_wf_core : Instr.wf (.narrowWrite 255 spot0) = true ∧ Instr.wf (.narrowWrite 256 spot0) = false := by decide
theorem test_wf_cluster :
    Instr.wf (.invack ⟨31, 0⟩) = true ∧ Instr.wf (.invack ⟨32, 0⟩) = false ∧ Instr.wf (.gets ⟨⟨32, 0⟩, 7⟩) = true ∧ Instr.wf (.gets ⟨⟨0, 0⟩, 8⟩) = false := by decide
theorem test_wf_lane : Instr.wf (.linkLaneFail 15) = true ∧ Instr.wf (.linkLaneFail 16) = false := by decide
theorem test_wf_priority : Instr.wf (.pfcPauseDeadline 0 7) = true ∧ Instr.wf (.pfcPauseDeadline 0 8) = false := by decide
theorem test_wf_criterion : Instr.wf (.yieldCriterion 5 0) = true ∧ Instr.wf (.yieldCriterion 6 0) = false := by decide
theorem test_wf_key :
    Instr.wf (.tombstoneRelease 1 [0]) = true ∧ Instr.wf (.tombstoneRelease 1 []) = false ∧ Instr.wf (.tombstoneRelease 1 (List.replicate 256 0)) = false := by decide
theorem test_wf_entry : Instr.wf (.exist entry0) = true ∧ Instr.wf (.retrieve entry0) = false ∧ Instr.wf (.exist { entry0 with dws := [0x14] }) = false := by decide
theorem test_wf_admin : Instr.wf (.keepAlive ⟨1, 65535⟩) = true ∧ Instr.wf (.keepAlive ⟨1, 65536⟩) = false := by decide
theorem test_wf_site : Instr.wf (.correctableRead spot0) = true ∧ Instr.wf (.correctableRead { spot0 with mem := 3 }) = false := by decide
theorem test_wf_frame : Instr.wf (.frameReceive plain0) = true ∧ Instr.wf (.frameReceive { plain0 with prio := 8 }) = false := by decide

/-! ### The spec's worked examples -/

/-- Table 4.6: the item of h = 0x6A1FC3D28B405E97 in the reference build. -/
theorem test_buckets :
    fpOf 0x6A1FC3D28B405E97 = 2336251543 ∧ bucket1 5368709120 0x6A1FC3D28B405E97 = 2225583303 ∧
    altOf 5368709120 2336251543 2225583303 = 4561834847 := by decide

/-- Table 4.2: 192 GiB and 512 GiB of DRAM. -/
theorem test_capacity :
    buckets (192 * 2 ^ 30) = 2415919104 ∧ capacity (192 * 2 ^ 30) = 7730941132 ∧ admissionLimit (192 * 2 ^ 30) = 7700742144 ∧
    buckets (512 * 2 ^ 30) = 5368709120 ∧ capacity (512 * 2 ^ 30) = 17179869184 ∧ admissionLimit (512 * 2 ^ 30) = 17112760320 := by decide

/-- Table 17.6: core 77, flash die 4 969, region 2, pair slot 1207. -/
theorem test_paths : pathCore 77 = 0x0240404D ∧ pathFlashDie 4969 = 0x10045369 ∧ pathRegion 2 = 0x4C000000 ∧ pathSlot 1207 = 0xA01804B7 := by decide

/-- Grain 2 of page 1 842, block 1 203, plane 3, LUN 9, target 2, channel 77. -/
theorem test_grain_address :
    mkAddr 77 2 9 3 1203 1842 2 = 0x9B4B04B37322 ∧ addrDie 0x9B4B04B37322 = 4969 ∧ addrBlock 0x9B4B04B37322 = 1203 := by decide

/-- Table 5.6: three rows of bank 4, for namespace 7. -/
def ward7 : State :=
  let m (n : Nat) : BitVec 128 := BitVec.ofNat 128 (0x3FF * 2 ^ 118 + (2 ^ (8 * n) - 1))
  let v (k : Key) : BitVec 128 := BitVec.ofNat 128 (6 * 2 ^ 118 + ofLe k)
  let w : WardRec :=
    { cascade := List.replicate 64 1
      actions := (List.range 13).map (fun i => if i = 11 then ⟨some (4, 2), none, some 1, none⟩ else if i = 12 then ⟨none, none, none, some 6⟩
                                               else ⟨none, none, none, none⟩)
      images := [⟨4, 3, ⟨100, 12, v [0x74, 0x6D, 0x70, 0x2F], m 4⟩⟩, ⟨4, 9, ⟨100, 13, v [0x74, 0x6D], m 2⟩⟩,
                 ⟨4, 17, ⟨200, 0, v [0x74, 0x6D, 0x70, 0x2F, 0x6B, 0x65, 0x65, 0x70, 0x2F], m 9⟩⟩] }
  { State.reset with cfg := some { cfg0 with ward := w } }

/-- Namespace 7 with the defaults of Table 2.1. -/
def ns7 : NsEntry :=
  { id := 7, pol := { k := 16, m := 4, thr := 4, ack := 2, dom := .rack, qos := 4 }, maxKey := 255, redirect := false, bankSet := [4],
    q0 := 1, q1 := 2, hosts := ["h"] }

/-- The entry image of row 3 as the spec prints it. -/
theorem test_ward_image :
    (wardImage (wardOf ward7) 4 3).map (fun e => (e.value, e.mask)) =
      some (0x01800000000000000000000_02F706D74#128, 0xFFC00000000000000000000_0FFFFFFFF#128) := by decide

/-- The policy of a key once that table is loaded. -/
def wardPolicy (key : Key) : Policy := applyAction ns7.pol (classifyShadow (loadWard ward7) ns7 0 key)

/-- Table 5.7: the four keys "tmp/x1", "tmp/keep/y", "tmz" and "log/1". -/
theorem test_ward_first : wardPolicy [0x74, 0x6D, 0x70, 0x2F, 0x78, 0x31] = { ns7.pol with k := 4, m := 2, ack := 1 } := by decide
theorem test_ward_second : wardPolicy [0x74, 0x6D, 0x70, 0x2F, 0x6B, 0x65, 0x65, 0x70, 0x2F, 0x79] = ns7.pol := by decide
theorem test_ward_third : wardPolicy [0x74, 0x6D, 0x7A] = { ns7.pol with qos := 6 } := by decide
theorem test_ward_fourth : wardPolicy [0x6C, 0x6F, 0x67, 0x2F, 0x31] = ns7.pol := by decide

/-- Table 9.4: MAC addresses and filter bins of the groups of bin 0x3A5C7. -/
theorem test_groups :
    binGroups { cfg0.net with v6 := true, v4 := true } 0x3A5C7 = [0x33330003A5C7, 0x01005E43A5C7] ∧
    groupBin 0x33330003A5C7 = 0x5CE ∧ groupBin 0x01005E43A5C7 = 0x1B3 := by decide

/-- Table 11.4: 12.000 V on 1.6843 F with V_cut 7.0 V, E_fixed 6 J and 4.0 J per GiB admit 14.5 GiB. -/
theorem test_admission :
    let c := { cfg0 with pow := { cfg0.pow with vCut := 7000, eFix := 60, eGib := 400 } }
    let s := { State.reset with cfg := some c, gauge := { Gauge.reset with cg := some 1684300 } }
    admissionFor s (usable s 12000000) = 14848 := by decide

/-- 0x4050 is critical, 0x9420 an error, 0x0030 a trace (Tables 10.15, 17.9, 15.8). -/
theorem test_severities : severity 0x4050 = 6 ∧ severity 0x9420 = 4 ∧ severity 0x0030 = 0 := by decide

/-- The rows of the table have no bits, so no word spells a command. -/
theorem test_no_words : decodeTableWord 0 0 = none ∧ decodeTableWord 64 5 = none := by decide

/-! ### Hypotheses of the statements -/
theorem witness_StepRunsFront : State.reset.pending = [] := by decide
theorem witness_DriversHeldInvariant : DriversHeld State.reset ∧ step State.reset = .next (tick State.reset) := by
  refine ⟨?_, rfl⟩
  intro h; cases h
theorem witness_ColdAndWakeStarts : State.reset.keeper.phase = .off ∧ 1 ≤ 1 ∧
    (atKeeper { Keeper.reset with phase := .dormant, wakeDue := true }).keeper.phase = .dormant ∧
    (atKeeper { Keeper.reset with phase := .dormant, wakeDue := true }).keeper.wakeDue = true ∧
    (atKeeper { Keeper.reset with phase := .dormant, wakeDue := true }).keeper.pfail = false := by decide
theorem witness_RailSequencing :
    (atKeeper { Keeper.reset with phase := .sequencing, en := 1 }).keeper.phase = .sequencing ∧
    (atKeeper { Keeper.reset with phase := .sequencing, en := 1 }).keeper.pg + 1 = 1 ∧
    (let s := atKeeper { Keeper.reset with phase := .sequencing, pg := 1, en := 2 }
     s.keeper.phase = .sequencing ∧ s.keeper.pg = 1 ∧ s.keeper.en = 2 ∧ (false = false ∨ true = false)) ∧
    (atKeeper { Keeper.reset with phase := .sequencing, en := 5, pg := 4 }).keeper.pg = 4 ∧
    (let s : State := { atKeeper { Keeper.reset with phase := .sequencing, en := 1 } with now := 20000000 }
     s.keeper.seqAt + 20000000 ≤ s.now ∧ s.keeper.en = 1) ∧
    (let s : State := { atKeeper { Keeper.reset with phase := .retry, failures := 3 } with now := 1000000000 }
     s.keeper.phase = .retry ∧ s.keeper.seqAt + 1000000000 ≤ s.now ∧ 3 ≤ s.keeper.failures) ∧
    (2 ≤ (atKeeper { Keeper.reset with phase := .sequencing, en := 2 }).keeper.en ∧
      running (atKeeper { Keeper.reset with phase := .sequencing, en := 2 }) = false) ∧
    (2 ≤ (atKeeper { Keeper.reset with phase := .released, en := 5 }).keeper.en ∧
      running (atKeeper { Keeper.reset with phase := .released, en := 5 }) = true) := by decide
theorem witness_WarmStartAndKeeper :
    (let s : State := { up 7 with keeper := { (up 7).keeper with warmDue := some .update, holdOut := true } }
     s.keeper.warmDue = some .update ∧ running s = true ∧ s.power.flush = none) ∧
    (let s : State := { atKeeper { Keeper.reset with phase := .keeper, fillAt := some 0 } with now := 5000000000 }
     s.keeper.fillAt = some 0 ∧ s.keeper.phase = .keeper ∧ s.keeper.fillMissed = false ∧ 0 + 5000000000 ≤ s.now) ∧
    (atKeeper { Keeper.reset with fillMissed := true }).keeper.fillMissed = true ∧
    (let s : State := { atKeeper { Keeper.reset with phase := .keeper } with now := 2000000001, boot := { Boot.reset with copying := some (1, 0, false) } }
     s.boot.copying = some (1, 0, false) ∧ s.keeper.phase = .keeper ∧ 0 + (bankOf s.boot 1).length * 500 + 2000000000 < s.now) ∧
    ({ Boot.reset with copying := some (1, 0, true) } : Boot).copying = some (1, 0, true) ∧ (up 0).keeper.phase ≠ .off := by decide
/-- A frame on MM with the wake pattern of pair 1. -/
def wakeOf : Frame :=
  { mac := 16, len := 134, fcsOk := true, symbolOk := true, bufferFull := false, dest := 0, vlan := none, prio := 0,
    etherType := 0x842, ipOk := false, arp := false, l4Ok := true, milmo := false
    bytes := List.replicate 6 0xFF#8 ++ (List.range 16).flatMap (fun _ => be 8 1) }

/-- A DORMANT device of pair 1. -/
def dormant (p h : Bool) (t : Nat) : State :=
  { atKeeper { Keeper.reset with phase := .dormant, pfail := p, wakeHeld := h } with now := t, boot := { Boot.reset with pairHeld := some 1 } }

theorem witness_WakingFromDormant : (dormant false false 0).keeper.phase = .dormant ∧ wakes wakeOf (dormant false false 0) = true ∧
    wakes wakeOf (dormant true false 0) = true ∧ (dormant false true 1000000000).keeper.wakeHeld = true ∧
    (dormant false true 1000000000).keeper.pfailAt + 1000000000 ≤ (dormant false true 1000000000).now := by
  refine ⟨rfl, ?_, ?_, rfl, ?_⟩ <;> decide
theorem witness_CoreReleaseAndRole :
    (let s := atKeeper { Keeper.reset with phase := .keeper }
     s.keeper.phase = .keeper ∧ s.keeper.testEn = false ∧ s.boot.copying = none) ∧
    (let s : State := { up 60000000000 with start := { Startup.reset with unconfigured := true } }
     running s = true ∧ s.start.unconfigured = true ∧ s.cfg = none ∧ s.start.triedAt + 60000000000 ≤ s.now) ∧
    (let s : State := { up 60000000000 with start := { Startup.reset with waitSince := some 0 } }
     s.start.waitSince = some 0 ∧ running s = true ∧ 0 + 10000000000 ≤ s.now ∧ s.keeper.holdIn = false ∧ s.twin.complete = false ∧
       s.start.waitNoted = 0) ∧
    (let s : State := { up 60000000000 with start := { Startup.reset with waitSince := some 0 }, twin := { Twin.reset with complete := true } }
     s.start.waitSince = some 0 ∧ s.twin.complete = true) := by decide
theorem witness_StartMonitors :
    (let s : State := { up 8000000000 with start := { Startup.reset with step := 6, reloadAt := some 0 } }
     s.start.reloadAt = some 0 ∧ firstStarting s = true ∧ s.start.step = 6 ∧ s.start.reloadMissed = false ∧ 0 + 8000000000 ≤ s.now) ∧
    ({ Startup.reset with reloadMissed := true } : Startup).reloadMissed = true ∧
    (let s : State := { up 5 with start := { Startup.reset with servingBy := some 5 } }
     s.start.servingBy = some 5 ∧ running s = true ∧ s.start.serving = false ∧ 5 ≤ s.now) ∧
    (let s : State := { up 40000000 with start := { Startup.reset with lend := 2 } }
     running s = true ∧ s.start.lend = 2 ∧ s.start.lendAt + 40000000 ≤ s.now) := by decide
theorem witness_ShutdownCommands :
    admAccepts cmd1 (adminOn false (solo 0)) = true ∧ atMgmt (adminOn false (solo 0)) cmd1 = false ∧
    admAccepts cmd1 (adminOn true (solo 0)) = true ∧ atMgmt (adminOn true (solo 0)) cmd1 = true ∧
    ((solo 0).start.shutdown = none ∧ (solo 0).power.flush = none) ∧
    (let x : Shutdown := ⟨false, 0, 1, false, false, false, 0, []⟩
     let s : State := { solo 15000000000 with start := { Startup.reset with shutdown := some x } }
     s.start.shutdown = some x ∧ running s = true ∧ x.abrupt = false ∧ 1 ≤ x.step ∧ x.step ≤ 3 ∧ x.missed = false ∧ x.at_ + 15000000000 ≤ s.now) ∧
    0x38 ≠ offCc ∧ shnOf 1 = 0 ∧
    (ctrlOf (takeAdmin cmd1 0x7F 4 [bit false 0, offCc] [] (adminOn false (solo 0))) 1).isSome = true := by decide
theorem witness_ConnectionsOpenAndClose :
    mgmtUp (solo 0) = true ∧ (match netOf (solo 0) with | some n => n.port | none => 4420) = 4420 ∧ refusing (solo 0) = false ∧
    serves (served 0) = true ∧ isUp (served 0) 0 = true ∧ (netOf (served 0)).isSome = true ∧
    (match netOf (served 0) with | some n => n.tcp && n.rdma && n.port == 4420 | none => false) = true ∧ refusing (served 0) = false ∧
    (let s : State := { served 0 with start := { (served 0).start with shutdown := some ⟨false, 0, 2, false, false, false, 0, []⟩ } }
     serves s = true ∧ refusing s = true) ∧
    fresh (opened (served 0)) 1 = true ∧ running (opened (served 0)) = true ∧ (connBy (opened (served 0)) 1).isSome = true := by decide
theorem witness_ConnectAndDisconnect :
    (let s := opened (served 0)
     takesFrames s = true ∧ serves s = true ∧
     (match connBy s 2 with
      | some k => k.inited && decide (k.cntl = 0) && (adminConnectFail s k "h" true 0xFFFF 31 0).isNone && (adminConnectFail s k "h" false 0xFFFF 31 0).isSome
      | none => false) = true) ∧
    (let s := adminOn false (served 0)
     connected s cmd1 = true ∧ (match connBy s 1 with | some k => decide (k.qid = 0) | none => false) = true ∧ adminOpcodes.contains 0xFF = false) ∧
    (let s := ioOn (served 0)
     connected s ⟨2, 1⟩ = true ∧ (match connBy s 2 with | some k => decide (k.qid ≠ 0) | none => false) = true ∧ ioOpcodes.contains 0xFF = false ∧
     takesFrames s = true ∧ serves s = true ∧
     (match connBy s 3 with | some k => k.inited && decide (k.cntl = 0) && (ioConnectFail s k "h" true 1 2 31).isNone | none => false) = true) := by decide
theorem witness_AdminQueries :
    (let s := adminOn false (served 0)
     admAccepts cmd1 s = true ∧ (ctrlOf (takeAdmin cmd1 0x02 0 [] [] s) 1).isSome = true ∧ (ctrlOf (takeAdmin cmd1 0x06 0 [] [] s) 1).isSome = true ∧
     (ctrlOf (takeAdmin cmd1 0x0A 0 [0x07] [] s) 1).isSome = true ∧
     (match ctrlOf (takeAdmin cmd1 0x0C 0 [] [] s) 1 with | some c => c.waiting.isEmpty | none => false) = true) ∧
    (let s := adminOn false (served 0)
     let t : State := { s with host := { s.host with ctrls := s.host.ctrls.map (fun c => { c with waiting := [(0, 1)] }) } }
     admAccepts cmd1 t = true ∧
     (match ctrlOf (takeAdmin cmd1 0x0C 0 [] [] t) 1 with | some c => c.waiting == [(0, 1)] | none => false) = true) := by decide
theorem witness_SettingFeatures : admAccepts cmd1 (adminOn false (served 0)) = true ∧ (65535 % 65536 = 65535 ∨ 65535 / 65536 % 65536 = 65535) ∧
    5 < 65535 ∧ featureIds.contains 0xFE = false := by decide
theorem witness_PurgeAndFilters :
    (let s := adminOn false (served 0)
     let t := takeAdmin cmd1 0x80 1 [1024] [] s
     admAccepts cmd1 s = true ∧ (match s.cfg with | some c => c.sec.erase | none => false) = true ∧
     (match ctrlOf t 1 with | some k => (seenNs t k).contains 1 && ! (seenNs t k).contains 9 | none => false) = true ∧
     (drawSalt 1 t).isSome = true ∧ 5 ≠ 1024) ∧
    (let s : State := { adminOn false (served 0) with sec := { (served 0).sec with stopped := true } }
     admAccepts cmd1 s = true ∧ drawSalt 1 (takeAdmin cmd1 0x80 1 [1024] [] s) = none) ∧
    (let s := { served 0 with kw := { (served 0).kw with purging := [(1, 1, 7)] } }
     s.kw.purging.find? (fun p => p.1 == 1) = some (1, 1, 7) ∧ running s = true) := by
  refine ⟨⟨?_, ?_, ?_, ?_, ?_⟩, ⟨?_, ?_⟩, ⟨?_, ?_⟩⟩ <;> decide
/-- A management admin queue. -/
def mgmtOn : State := adminOn true (served 0)
/-- A file begun at offset 0. -/
def begun (bs : List Byte) : Incoming :=
  { bytes := bs, refused := none, source := 0, from_ := 1, origin := 0, chain := false, pkg := 0, length := 0, at_ := 0 }
theorem witness_DownloadsAndCommits :
    admAccepts cmd1 mgmtOn = true ∧ isCfg ((begun []).bytes ++ [0]) = false ∧ arrivalReason mgmtOn (begun []).bytes ((begun []).bytes ++ [0]) = none ∧
    (let bs : List Byte := List.replicate 2048 0
     arrivalReason mgmtOn [] bs = some 1 ∧ isCfg bs = false) ∧
    atMgmt (adminOn false (served 0)) cmd1 = false ∧ atMgmt mgmtOn cmd1 = true ∧
    (let t : State := { mgmtOn with boot := { mgmtOn.boot with incoming := some (begun [0x56, 0x4B, 0x43, 0x46]) } }
     atMgmt t cmd1 = true ∧ isCfg (begun [0x56, 0x4B, 0x43, 0x46]).bytes = true ∧ (begun [0x56]).refused = none) ∧
    mgmtOn.boot.incoming.isNone = true ∧ Machine.slotOk mgmtOn 2 = true := by
  refine ⟨?_, ?_, ?_, ⟨?_, ?_⟩, ?_, ?_, ⟨?_, ?_, ?_⟩, ?_, ?_⟩ <;> decide
/-- A package staged here. -/
def staged0 : Staged := { pkg := ⟨[]⟩, source := 0, forward := false, chain := false, at_ := 0, origin := 0, from_ := 0 }
/-- A package with security version 1. -/
def pkg1 : Package := ⟨List.replicate 18 0 ++ [1]⟩
theorem witness_BanksAndConfirmation :
    (let s (act : Bool) : State := { up 600000000002 with boot := { Boot.reset with erase := some (1, 1, act, false), staged := some staged0 } }
     running (s true) = true ∧ (s true).boot.erase = some (1, 1, true, false) ∧ (s false).boot.erase = some (1, 1, false, false) ∧
     1 + 600000000000 < (s false).now ∧ (s true).boot.staged.isSome = true) ∧
    ({ Boot.reset with erase := some (1, 1, true, true) } : Boot).erase = some (1, 1, true, true) ∧
    (let s : State := { solo 30000000001 with boot := { Boot.reset with trial := true } }
     running s = true ∧ s.boot.trial = true ∧ s.boot.confirmed = false ∧ unmet s = none) ∧
    (let s : State := { up 120000000000 with boot := { Boot.reset with trial := true } }
     running s = true ∧ s.boot.confirmed = false ∧ s.keeper.warmDue = none ∧ s.keeper.releasedAt + 120000000000 ≤ s.now ∧ s.boot.trial = true) ∧
    (let s : State := { up 86400000000001 with boot := { Boot.reset with confirmed := true, runs := some pkg1, cleanSince := 1 } }
     s.boot.runs = some pkg1 ∧ running s = true ∧ s.boot.confirmed = true ∧ s.boot.cleanSince + 86400000000000 ≤ s.now ∧ s.boot.fuseF < pkg1.secVer) ∧
    (let got : List Byte := List.replicate 512 0
     let s : State := { atKeeper { Keeper.reset with phase := .recovery } with boot := { Boot.reset with tftp := some ⟨9, 2, got⟩ } }
     s.keeper.phase = .recovery ∧ s.boot.tftp = some ⟨9, 2, got⟩ ∧ got.length ≤ 512 ∧ blockDone (got ++ got) = true ∧ blockDone got = false ∧
     headerReason s.boot s.serial none ⟨got ++ got⟩ = some 1 ∧ blockDone (got ++ [0]) = false) := by
  refine ⟨?_, ?_, ⟨?_, ?_, ?_, ?_⟩, ?_, ?_, ?_⟩ <;> decide
/-- An entry of connection 2 for namespace 1 with key [1]. -/
def sqe (opc dw10 opts fu sgl dw12 : Nat) : Sqe := mkSqe 2 opc 9 1 fu [1] dw10 opts 0 dw12 0 0 sgl

/-- Whether a command begins on a serving device with one I/O queue. -/
def begun' (r : CmdRule) (q : Sqe) (second compact : Bool) : Bool := (begins r q second compact (ioOn (served 0))).isSome

theorem witness_ChangingCommandsBegin :
    begun' ruleFlush (sqe 0x00 0 0 0 0 0) false false = true ∧
    begun' (ruleStore [1, 2, 3, 4]) (sqe 0x01 4 0 0 4 0) false false = true ∧
    begun' ruleDelete (sqe 0x10 0 0 0 0 0) false false = true ∧
    begun' (ruleLongStore [1, 2, 3, 4]) (sqe 0x81 4 0 0 4 0) true false = true ∧
    begun' ruleLongDelete (sqe 0x84 0 0 0 0 0) true false = true ∧
    begun' (ruleKeyCarrier (1 :: List.replicate 7 0 ++ [1] ++ List.replicate 255 0)) (sqe 0x8D 264 0 1 264 0) false false = true ∧
    begun' ruleShed (sqe 0x90 0 0 0 0 4096) true false = true := by
  refine ⟨?_, ?_, ?_, ?_, ?_, ?_, ?_⟩ <;> decide
theorem witness_ReadingCommandsBegin :
    begun' ruleRetrieve (sqe 0x02 4096 0 0 4096 0) false true = true ∧
    begun' ruleList (sqe 0x06 4096 0 0 4096 0) false false = true ∧
    begun' ruleExist (sqe 0x14 0 0 0 0 0) false true = true ∧
    begun' ruleLongRetrieve (sqe 0x82 4096 0 0 4096 0) true true = true ∧
    begun' ruleLongExist (sqe 0x88 0 0 0 0 0) true true = true ∧
    begun' ruleFilteredRetrieve (sqe 0x86 4096 0 0 4096 0) true true = true ∧
    begun' rulePatternList (mkSqe 2 0x8A 9 1 0 [] 4096 0 0 0 0 0 4096) false false = true ∧
    begun' ruleDurabilityQuery (sqe 0x8E 32 0 0 32 0) true true = true := by
  refine ⟨?_, ?_, ?_, ?_, ?_, ?_, ?_, ?_⟩ <;> decide
/-- The serving pair with one Ward row, for key [1] of its namespace, whose shadow word is lost. -/
def wardServed : State :=
  let c := { cfg0 with
    nss := cfg0.nss.map (fun n => { n with bankSet := [4] })
    ward := { cascade := List.replicate 64 1, actions := [], images := [⟨4, 3, ⟨100, 0, BitVec.ofNat 128 1, BitVec.ofNat 128 255⟩⟩] } }
  let s := loadWard { served 0 with cfg := some c }
  { s with ward := { s.ward with lostWords := [4099] } }

theorem witness_FailingCommandsAnswer :
    ioRule (.exist (sqe 0x14 0 0 0 0 0)) = some (ruleExist, sqe 0x14 0 0 0 0 0, false, true) ∧
    (failsAt ruleExist { sqe 0x14 0 0 0 0 0 with transportOk := false } false true (ioOn (served 0))).isSome = true ∧
    (searchWaits ruleExist (sqe 0x14 0 0 0 0 0) false true (ioOn wardServed)).isSome = true ∧
    (let s : State := { ioOn (served 0) with sec := { (served 0).sec with salts := [], stopped := true } }
     (match taken ruleExist (sqe 0x14 0 0 0 0 0) false true s with
      | some x => (firstFail (ruleExist.fails x.1 x.2)).isNone && (withSalt x.1.q.nsid x.2).isNone
      | none => false) = true) ∧
    (let s : State := ioOn { served 0 with start := { (served 0).start with shutdown := some ⟨false, 0, 2, false, false, false, 0, []⟩ } }
     ioAccepts (sqe 0x14 0 0 0 0 0) s = true ∧ inShutdown s = true) := by
  refine ⟨rfl, ?_, ?_, ?_, ?_, ?_⟩ <;> decide
theorem witness_AdmissionAndRecords :
    serves (served 0) = true ∧ holdsPair (served 0) = true ∧ running (served 0) = true ∧
    (let s := withIce (fun i => { i with stores := [store0 [] 0 0] }) 30000000000
     takesFrames s = true ∧ storeOf s 2 9 = some (store0 [] 0 0) ∧ wantsSpace (store0 [] 0 0) = true ∧ 0 + 1000000 * 30000 ≤ s.now) ∧
    (let e := store0 [chunk0 none] 0 0
     let s := withIce (fun i => { i with stores := [e] }) 0
     serves s = true ∧ storeOf s 2 9 = some e ∧ e.got + 4 ≤ sumL (e.chunks.map (·.len))) ∧
    (let s : State := { served 0 with kw := { (served 0).kw with waits := [⟨0, 0, frag0 [1], 0⟩], items := [item0 1] } }
     (mayProceed s 1 0 [1]).isSome = true ∧ receives s = true) ∧
    (let s := withIce (fun i => { i with recs := [rec0 [ver0 2 true]] }) 3600000000000
     raising s 1 [1] = false ∧ recOf s 1 [1] = some (rec0 [ver0 2 true]) ∧ tombReleasable s (rec0 [ver0 2 true]) = true) ∧
    (let s := withIce (fun i => { i with recs := [rec0 [ver0 3 false]] }) 3600000000000
     recOf s 1 [1] = some (rec0 [ver0 3 false]) ∧ (rec0 [ver0 3 false]).vers.find? (fun v => v.version == 4096) = some (ver0 3 false) ∧
       lapsed s (ver0 3 false) = true) := by
  refine ⟨?_, ?_, ?_, ⟨?_, ?_, ?_, ?_⟩, ⟨?_, ?_, ?_⟩, ⟨?_, ?_⟩, ⟨?_, ?_, ?_⟩, ?_, ?_, ?_⟩ <;> decide
/-- A ledger entry of key [1]. -/
def lent : LEntry := { ns := 1, lf := 0, th := 0, version := 4096, key := [1], pos := 0, tomb := false, ahead := [], at_ := 0 }
theorem witness_CheckpointAndLedger :
    (let s (n : Nat) : State := { driven 0 with kw := { Keyway.reset with nextGranule := n, incomplete := if n = 0 then [] else [0] } }
     bgGranted (unitLevel (s 0) (ofKind 9)) (s 0) = true ∧ (nextGranule (s 0)).isSome = true ∧ nextGranule (s 1000000) = none ∧
       bgGranted (unitLevel (s 1) (isUnit 11 0 0)) (s 1) = true ∧ (s 1).kw.incomplete.contains 0 = true) ∧
    (let s : State := { driven 60000000000 with kw := { Keyway.reset with deltas := [lent], runs := List.replicate 8 ⟨1, false, [lent]⟩ } }
     running s = true ∧ holdsPair s = true ∧ s.start.serving = true ∧ runDue s 1 = true ∧ bgGranted (unitLevel s (isUnit 8 1 0)) s = true ∧
       8 ≤ (deltaRuns s 1).length) := by
  refine ⟨⟨?_, ?_, ?_, ?_, ?_⟩, ?_⟩ <;> decide
theorem witness_CheckpointAndLedger_segment (w : SlotWrite) : ∃ rs rest,
    takeSegment 0 [⟨1, 1, List.replicate 2796202 w, 0⟩] = some (rs, rest) := by
  have h : segmentBytes ≤ 0 + kwBytes ⟨1, 1, List.replicate 2796202 w, 0⟩ := by
    unfold kwBytes; rw [List.length_replicate]; decide
  exact ⟨_, _, by rw [takeSegment, if_pos h]⟩
/-- A string of read 7, and one of a listing, on an engine since time 0. -/
def str3 (o : RimeFor) : RString := { owner := o, image := [0x61], input := [0x61], off := 0, at_ := 0 }
/-- The Ward loaded with 64 groups of one bank. -/
def warded (f : WardSt → WardSt) (t : Nat) : State := { up t with ward := f { WardSt.reset with loaded := true } }
theorem witness_WardAndRime :
    (running (warded id 4096001) = true ∧ (warded id 4096001).ward.loaded = true ∧ (warded id 4096001).ward.tickAt + 2000 ≤ 4096001 ∧
      (warded id 4096001).ward.lasting.contains 5 = false ∧ (warded id 4096001).mem.qUnits.contains (pathX 0x18 5) = false ∧
      (warded id 4096001).ward.passAt + 4096000 < (warded id 4096001).now) ∧
    (aGet (1024 * 5 + 6) (warded (fun w => { w with rebuilding := [(1024 * 5 + 6, 0)] }) 0).ward.rebuilding).isSome = true ∧
    (let s := { warded (fun w => { w with lasting := [5] }) 0 with cfg := some { cfg0 with ward := { cfg0.ward with cascade := List.replicate 64 1 } } }
     s.ward.lasting.contains 5 = true ∧ (freeGroup s (groupWidth (wardOf s) (groupHead (wardOf s) 5)) (groupHead (wardOf s) 5)).isSome = true) ∧
    (let s := { warded (fun w => { w with lasting := [5] }) 0 with cfg := some { cfg0 with ward := { cfg0.ward with cascade := [0, 0, 0, 0, 0, 1] } } }
     s.ward.lasting.contains 5 = true ∧ freeGroup s (groupWidth (wardOf s) (groupHead (wardOf s) 5)) (groupHead (wardOf s) 5) = none) ∧
    (let s : State := { up 10000 with rime := { RimeSt.reset with busy := [(3, str3 (.read 7)), (4, str3 (.key 1 0))] } }
     aGet 3 s.rime.busy = some (str3 (.read 7)) ∧ aGet 4 s.rime.busy = some (str3 (.key 1 0)) ∧ (str3 (.read 7)).at_ + 10000 ≤ s.now) := by
  refine ⟨⟨?_, ?_, ?_, ?_, ?_, ?_⟩, ?_, ⟨?_, ?_⟩, ⟨?_, ?_⟩, ?_, ?_, ?_⟩ <;> decide
/-- A superblock of group 0 with a row on die 0, block 7, a unit waiting since 0. -/
def sb0 (st : Nat) : SbRec :=
  { seq := 1, kind := 0, state := st, group := 0, parity := 0, members := [0], rows := [(0, 7)], programmed := 0, verified := 0, summary := none, cursor := 1,
    limit := 100, done := [], waitSince := some 0, live := 1, reloc := false, hold := false, lastAt := 0 }
/-- A program, a parity program or an erase that is out since time 0. -/
def opx (op : Nat) : OpEntry :=
  { die := 0, op := op, state := 2, block := 7, wl := 0, planes := 0, suspends := 0, source := 0, sb := 1, issued := 0 }
/-- A grain read in flight. -/
def gread (why : Nat) : GrainRead := { id := 3, addr := 7 * 65536, step := 1, at_ := 0, why := why, of_ := 1, noted := false }
/-- A pair with media work. -/
def withMedia (f : Media → Media) (ops : List OpEntry) (t : Nat) : State :=
  { driven t with media := f Media.reset, twin := { (driven t).twin with ops := ops } }
theorem witness_FlashOperationsEnd :
    running (served 0) = true ∧ holdsPair (served 0) = true ∧
    (let s := withMedia (fun m => { m with sbs := [sb0 1] }) [] 50000000
     sbBy s 1 = some (sb0 1) ∧ (sb0 1).waitSince = some 0 ∧ (sb0 1).state = 1 ∧ 0 + 50000000 ≤ s.now) ∧
    (let s (op : Nat) := withMedia (fun m => { m with sbs := [sb0 1] }) [opx op] 10000000
     opAt (s 1) 0 7 0 (fun o => o == 1 || o == 2) = some (opx 1) ∧ opAt (s 2) 0 7 0 (fun o => o == 1 || o == 2) = some (opx 2) ∧
     (sbBy (addSweep 0 7 (endOp (opx 1) (s 1))) (opx 1).sb).isSome = true ∧ (sbBy (addSweep 0 7 (endOp (opx 2) (s 2))) (opx 2).sb).isSome = true ∧
     (sbBy (programFailed (sb0 1) 0 7 0 (addSweep 0 7 (endOp (opx 1) (s 1)))) (opx 1).sb).isSome = true ∧
     opAt (s 3) 0 7 0 (fun o => o == 3) = some (opx 3) ∧ usableDie (s 1) 0 = true) ∧
    (let s (w : Nat) := withMedia (fun m => { m with reads := [gread w] }) [] 5000001
     (s 2).media.reads.find? (fun r => r.id == 3 && r.step == 1) = some (gread 2) ∧ (s 0).media.reads.find? (fun r => r.id == 3 && r.step == 1) = some (gread 0) ∧
     (s 0).media.reads.find? (fun r => r.id == 3) = some (gread 0) ∧ (gread 0).at_ + 5000000 < (s 0).now ∧
     verifies 1 3 true true true = true ∧ verifies 1 117 true true true = false) ∧
    (let s := withMedia (fun m => { m with reads := [gread 0], flash := [(7 * 65536, { kind := 0, counter := 1, index := 0, data := [] })] }) [] 0
     (aGet (gread 0).addr (noteDecode (gread 0) 1 3 0 (openGrain (gread 0) true (returnTokens 0 (readBlock 3) 0 s))).media.flash).isSome = true) ∧
    (let s := withMedia id [] 0
     (spillSet s 1).state ≠ 0 ∧ s.power.flush = none ∧ (spillSet s 1).complete = false ∧ ((spillSet s 1).pe + 1) % max (10 * (mediaOf s).spread) 1 ≠ 0) ∧
    (let s (n st : Nat) := withMedia id [{ opx 1 with suspends := n, state := st }] 0
     (s 0 2).twin.ops.find? (fun x => x.die == 0 && x.state == 2 && ! heldBack (s 0 2) x) = some (opx 1) ∧
     (s 8 2).twin.ops.find? (fun x => x.die == 0 && x.state == 2 && ! heldBack (s 8 2) x) = some { opx 1 with suspends := 8 } ∧
     (s 1 3).power.granted.any (fun r => r.die == 0 && decide (65536 ≤ r.block)) = false ∧
     (s 1 3).twin.ops.find? (fun x => x.die == 0 && x.state == 3) = some { opx 1 with suspends := 1, state := 3 }) := by
  refine ⟨?_, ?_, ⟨?_, ?_, ?_, ?_⟩, ⟨?_, ?_, ?_, ?_, ?_, ?_, ?_⟩, ⟨?_, ?_, ?_, ?_, ?_, ?_⟩, ?_, ⟨?_, ?_, ?_, ?_⟩, ?_, ?_, ?_, ?_⟩ <;> decide
theorem witness_FlashOperationsEnd_silent :
    silentDie (withMedia id [opx 1] (Config.dieOpTime.toNat + 10000000)) 0 = true := by
  simp [silentDie, withMedia, opx, driven, served, solo, up]
/-- A unit of background work since 0 with a span of 1 s. -/
def bg0 (kind id id2 : Nat) : BgUnit := { kind := kind, id := id, id2 := id2, due := 0, span := 1000000000, level := 0, fault := false }
theorem witness_BackgroundWork :
    (let s := withMedia (fun m => { m with bg := [bg0 2 5 6] }) [] 1000000000
     running s = true ∧ holdsPair s = true ∧ s.media.bg.find? (fun u => u.kind == 2 && u.id == 5 && u.id2 == 6) = some (bg0 2 5 6) ∧
     (bg0 2 5 6).level < ageLevel s.now (bg0 2 5 6) ∧ (bg0 2 5 6).due + (bg0 2 5 6).span ≤ s.now ∧ s.media.copiedAt + 1000000000 ≤ s.now ∧
     bgGranted (unitLevel s (fun u => u.kind == 1 && u.id == 0)) s = true ∧ bgGranted (unitLevel s (ofKind 1)) s = true ∧ usableDie s 0 = true ∧
     s.media.sweepAt < s.now ∧
     (s.media.bg.filter (fun u => u.kind == 1)).all (fun u => decide (s.media.sweepAt ≤ u.due)) = true) ∧
    (let s := withMedia (fun m => { m with bg := [bg0 1 0 7] }) [] 0
     bgGranted (unitLevel s (isUnit 1 0 7)) s = true ∧ oldestRow s 0 7 = true) ∧
    (let r := withMedia (fun m => { m with bg := [bg0 3 7 0, bg0 7 0 0, bg0 6 0 0], sbs := [sb0 4], pe := [(0, 3, 101)] }) [] 86400000000000
     let s : State := { r with kw := { r.kw with items := [{ item0 2 with sb := 1, d3 := true }] } }
     bgGranted (unitLevel s (isRewrite 7)) s = true ∧ bgGranted (unitLevel s (ofKind 7)) s = true ∧ bgGranted (unitLevel s (isUnit 6 0 0)) s = true ∧
     s.media.bg.find? (isRewrite (65536 * 0 + 7)) = some (bg0 3 7 0) ∧
     sbAt s 0 7 = some (sb0 4) ∧ (sb0 4).kind ≠ 1 ∧ victim s = some (sb0 4) ∧ s.media.bg.any (ofKind 7) = true ∧
     s.media.bg.any (isUnit 6 0 0) = true ∧ (mediaOf s).spread < spreadOf s 0 ∧ coldest s 0 = some (sb0 4)) ∧
    (let s := withMedia (fun m => { m with bg := [bg0 6 0 0] }) [] 0
     s.media.bg.any (isUnit 6 0 0) = true ∧ bgGranted (unitLevel s (isUnit 6 0 0)) s = true ∧ spreadOf s 0 ≤ (mediaOf s).spread) ∧
    (let s := withMedia (fun m => { m with bg := [bg0 3 7 0], sbs := [{ sb0 1 with kind := 1 }] }) [] 0
     s.media.bg.find? (isRewrite 7) = some (bg0 3 7 0) ∧ bgGranted (unitLevel s (isRewrite 7)) s = true ∧ (sbAt s 0 7).map (·.kind) = some 1) := by
  refine ⟨⟨?_, ?_, ?_, ?_, ?_, ?_, ?_, ?_, ?_, ?_, ?_⟩, ⟨?_, ?_⟩, ⟨?_, ?_, ?_, ?_, ?_, ?_, ?_, ?_, ?_, ?_, ?_⟩, ⟨?_, ?_, ?_⟩, ?_, ?_, ?_⟩ <;> decide
/-- A flush that began at 0 with nothing to spill. -/
def flush0 : Flush := { cause := 0, at_ := 0, set := 0, left := [], index := 0, spilled := 0, vStart := 12000000, measured := true, number := 1, missed := false, why := 0, bytes := 0 }
theorem witness_PowerFailAndFlush :
    (let s : State := { served 0 with gauge := { (served 0).gauge with cg := some 1000 } }
     detected 0 0 s = true ∧ detected 2 10000000 s = true ∧ s.power.flush = none ∧ running s = true ∧ holdsPair s = true ∧ s.gauge.cg.isSome = true ∧
       (served 0).gauge.cg = none) ∧
    (∀ p ∈ [Phase.dormant, .stopped, .sequencing, .retry, .failed, .recovery],
      detected 0 0 (atKeeper { Keeper.reset with phase := p }) = true ∧ (atKeeper { Keeper.reset with phase := p }).power.flush = none) ∧
    (let s : State := { up 0 with twin := { Twin.reset with roleState := .standby } }
     detected 0 0 s = true ∧ s.power.flush = none ∧ running s = true ∧ s.twin.roleState = .standby) ∧
    (let s : State := { up 20000001 with power := { Power.reset with flush := some flush0 } }
     s.power.flush = some flush0 ∧ flush0.at_ + flushLimit flush0.bytes < s.now) ∧
    (let s := up 0; detected 0 0 s = true ∧ running s = true ∧ holdsPair s = false ∧ s.twin.roleState ≠ .standby) := by
  refine ⟨⟨?_, ?_, ?_, ?_, ?_, ?_, ?_⟩, ?_, ?_, ?_, ?_, ?_⟩ <;> decide
/-- A test at a step since 0. -/
def gtest (step : Nat) : GTest := { step := step, v0 := 12000000, at_ := 0, start := true, missed := false }
/-- The serving pair with a gauge. -/
def withGauge (f : Gauge → Gauge) (t : Nat) : State := { served t with gauge := f Gauge.reset }
theorem witness_GaugeTests :
    (let s := withGauge (fun g => { g with due := true, retryAt := some 5 }) 5
     running s = true ∧ s.cfg.isSome = true ∧ s.gauge.test = none ∧ s.gauge.due = true ∧ s.gauge.retryAt = some 5 ∧ 5 ≤ s.now ∧ s.keeper.holdTest = false) ∧
    (let s := withGauge (fun g => { g with testPassed := true, nextDue := 5 }) 5
     s.gauge.test = none ∧ s.gauge.testPassed = true ∧ s.gauge.retryAt = none ∧ s.gauge.nextDue ≤ s.now) ∧
    (let s (n : Nat) := withGauge (fun g => { g with test := some (gtest n) }) 2000000001
     (s 1).gauge.test = some (gtest 1) ∧ (s 3).gauge.test = some (gtest 3) ∧ (powOf (s 1)).vFull * 1000 ≤ 12000000 ∧
     measuredCap (powOf (s 3)).iT (fitOf [5, 5]) = none ∧ (gtest 3).at_ + 2000000000 < (s 3).now ∧
     measuredCap (powOf (s 3)).iT (fitOf [30, 20, 10]) = some 1000000 ∧
     seriesRes (gtest 3).v0 (mean [12000000]) (powOf (s 3)).iT ≤ (powOf (s 3)).esr ∧ fitGood (fitOf [30, 20, 10]) [30, 20, 10] = true) ∧
    (let s := withGauge (fun g => { g with backSince := some 0, readOnly := true, excessSince := some 0 }) 1000000000
     s.gauge.backSince = some 0 ∧ running s = true ∧ s.gauge.readOnly = true ∧ 0 + 1000000000 ≤ s.now ∧ s.gauge.excessSince = some 0 ∧ s.gauge.excessNoted = false) := by
  refine ⟨⟨?_, ?_, ?_, ?_, ?_, ?_, ?_⟩, ⟨?_, ?_, ?_, ?_⟩, ⟨?_, ?_, ?_, ?_, ?_, ?_, ?_, ?_⟩, ?_⟩ <;> decide
/-- A token request of a read that waits. -/
def treq : TokReq := { id := 1, die := 0, block := 7, wl := 0, use := 0, tokens := 1, rank := 1, at_ := 0 }
/-- A device whose cores run, with power state. -/
def withPower (f : Power → Power) (t : Nat) : State := { up t with power := f Power.reset }
/-- An interval open since 0. -/
def intv : Interval :=
  { seq := 1, start := 0, end_ := 0, flags := 0, ps0 := 0, ps1 := 0, device := 0, byTokens := 0, measured := 0, peak := 0, throttle := 0, thaw := 0,
    eUse := 0, admission := 0 }
theorem witness_PowerAndThermal :
    (let s := withPower (fun p => { p with floorSince := some 0 }) 100000000
     running s = true ∧ s.power.floorSince = some 0 ∧ s.power.floorNoted = false ∧ 0 + 100000000 ≤ s.now) ∧
    (let s : State := { atKeeper { Keeper.reset with phase := .stopped } with now := 10000000000, power := { Power.reset with coldSince := some 0 } }
     s.power.coldSince = some 0 ∧ s.keeper.phase = .stopped ∧ 0 + 10000000000 ≤ s.now ∧ s.keeper.phase ≠ .off ∧ s.keeper.phase ≠ .down ∧
       s.keeper.phase ≠ .dormant) ∧
    (let r := withPower (fun p => { p with waiting := [treq] }) 0
     let s := { r with cfg := some { cfg0 with pow := { cfg0.pow with budget := 1000, idle := 1 } }, keeper := { r.keeper with drivers := true, holdOut := true } }
     nextWaiting s = some treq ∧ running s = true ∧ fits s treq.tokens = true ∧ thawAllows s treq.tokens = true ∧ classGranted s (rankClass treq.rank) = true) ∧
    (let s := withPower (fun p => { p with open_ := some intv, asked := some (2, 0) }) 60000000000
     s.power.open_ = some intv ∧ s.power.flush = none ∧ intv.start + (powOf s).intervalMs * 1000000 ≤ s.now ∧ s.power.asked = some (2, 0)) ∧
    (withPower id 0).power.open_ = none ∧
    (let s : State := { up 1000000000 with twin := { Twin.reset with roleState := .standby, thermalHandover := some 0 } }
     s.twin.thermalHandover = some 0 ∧ running s = true ∧ s.twin.roleState = .standby ∧ 0 + 1000000000 ≤ s.now) := by
  refine ⟨⟨?_, ?_, ?_, ?_⟩, ⟨?_, ?_, ?_, ?_, ?_, ?_⟩, ⟨?_, ?_, ?_, ?_, ?_⟩, ⟨?_, ?_, ?_, ?_⟩, ?_, ?_, ?_, ?_, ?_⟩ <;> decide
/-- A device whose cores run, with the pace loop. -/
def withPace (f : Pace → Pace) (t : Nat) : State := { up t with pace := f Pace.reset }
theorem witness_PaceLoop :
    (let s := withPace id 10000
     running s = true ∧ s.pace.windowAt + 10000 ≤ s.now ∧ lowestPace [5, 4, 3, 2] s.mem.qRegions = some 2 ∧ lowestPace [5] [0] = none ∧ s.pace.frozen = false) ∧
    (let s := withPace (fun p => { p with lowest := some 1500, windows := 10 }) 0
     s.pace.lowest = some 1500 ∧ 10 ≤ s.pace.windows) ∧
    (let s := withPace (fun p => { p with frozen := true, deficitSince := some 0 }) 1000001
     s.pace.frozen = true ∧ s.pace.retryAt ≤ s.now ∧ s.pace.deficitSince = some 0 ∧ 0 + (s.pace.deficits + 1) * 1000000 < s.now) ∧
    3 ≤ (withPace (fun p => { p with avsFails := 3 }) 0).pace.avsFails ∧
    (let s : State := { up 50001 with mem := { (up 0).mem with restarts := [(4, 0)] } }
     aGet 4 s.mem.restarts = some 0 ∧ 0 + 50000 < s.now) := by
  refine ⟨⟨?_, ?_, ?_, ?_, ?_⟩, ⟨?_, ?_⟩, ⟨?_, ?_, ?_, ?_⟩, ?_, ?_, ?_⟩ <;> decide
/-- Cluster 2's interest in line 64, which region 0 owns. -/
def coh2 : Coh := { cluster := 2, line := 64 }
/-- A directory entry of that line. -/
def dir64 (o : Option Nat) (sh : List Nat) (t : Option CTxn) : DirLine := ⟨0, 64, o, sh, t⟩
/-- A device whose region 0 has that entry. -/
def withDir (d : DirLine) : State := { up 0 with coh := { (up 0).coh with dir := [d] } }
/-- A request of a cluster. -/
def creq (kind cluster : Nat) : CReq := ⟨kind, cluster, 0, 0, []⟩
theorem witness_CoherenceRequests :
    (∀ d ∈ [dir64 (some 5) [] none, dir64 none [] none, dir64 none [2] none, dir64 none [3] none, dir64 (some 2) [] none],
      atHome 0 coh2 (withDir d) = true ∧ mustQueue (withDir d).coh 64 = false ∧ dirOf (withDir d).coh 64 = d) ∧
    (dir64 none [2] none).sharers.filter (· != 2) = [] ∧ (dir64 none [3] none).sharers.filter (· != 2) = [3] ∧
    (∀ t ∈ [(⟨creq 0 5, [2], [2], [], false⟩ : CTxn), ⟨creq 0 5, [2], [], [], false⟩],
      atHome 0 coh2 (withDir (dir64 (some 2) [] (some t))) = true ∧ (dirOf (withDir (dir64 (some 2) [] (some t))).coh 64).txn = some t ∧
      t.waits.contains 2 = true ∧ (withDir (dir64 (some 2) [] (some t))).coh.ports = []) ∧
    uncachedTo 0 { cluster := 40, line := 64 } (up 0) = true ∧ uncachedTo 0 { cluster := 9, line := 64 } (up 0) = true := by decide
/-- A snoop to cluster 2 for a request of cluster 5. -/
def snoop (kind : Nat) (put : List (Nat × Option (List (Word × Bool)))) : CTxn := ⟨creq kind 5, [2], [], put, false⟩
/-- Cluster 2 with the line, in its eviction buffer or not. -/
def holding (ev : Bool) (t : Option CTxn) : State :=
  { withDir (dir64 (some 2) [] t) with coh := { (withDir (dir64 (some 2) [] t)).coh with lines := [⟨2, 64, .e, ev, zeroLine, []⟩] } }
theorem witness_CoherenceSnoops :
    (inService (holding false none) coh2 = true ∧ clusterLine (holding false none).coh coh2 = some ⟨2, 64, .e, false, zeroLine, []⟩ ∧
      (dirOf (holding false none).coh 64).txn = none) ∧
    (inService (up 0) coh2 = true ∧ evictingAt (up 0).coh coh2 = false) ∧
    (inService (holding true (some (snoop 1 []))) coh2 = true ∧ evictingAt (holding true (some (snoop 1 []))).coh coh2 = true ∧
      (dirOf (holding true (some (snoop 1 []))).coh 64).txn = some (snoop 1 [])) ∧
    (∀ p ∈ [snoop 1 [], snoop 1 [(2, none)], snoop 0 []], inService (withDir (dir64 (some 2) [] (some p))) coh2 = true ∧
      (dirOf (withDir (dir64 (some 2) [] (some p))).coh 64).txn = some p ∧ p.waits.contains 2 = true ∧
      inService (withDir (dir64 (some 2) [] (some p))) { coh2 with cluster := 5 } = true ∧ p.req.cluster = 5 ∧ (withDir (dir64 (some 2) [] (some p))).coh.lines = []) ∧
    (snoop 1 []).put.find? (fun p => p.1 == 2) = none ∧ (snoop 1 [(2, none)]).put.find? (fun p => p.1 == 2) = some (2, none) ∧
    (snoop 1 []).req.kind = 1 ∧ (snoop 0 []).req.kind = 0 := by decide
theorem witness_DirectorySingleOwner : isCoherence (.gets ⟨coh2, 0⟩) = true ∧
    (∀ d ∈ (withDir (dir64 (some 5) [] none)).coh.dir, d.owner.isSome = true → d.sharers = []) := by decide
theorem witness_MemoryErrors : running (up 0) = true ∧ 31 < 32 ∧ (up 0).mem.halted.contains 4 = false ∧
    (let x : Site := { mem := 0, path := pathX 0x04 3, idx := 0, kind := 1, addr := 64 }; x.mem = 0 ∧ unitCode x.path = 4 ∧ dirtyLine x (up 0) = false) ∧
    (let x : Site := { mem := 1, path := pathX 0x0B 3, idx := 0, kind := 2, addr := 64 }; x.mem ≠ 0 ∧ unitCode x.path ≠ 0x17) ∧
    unitCode (pathX 0x17 3) = 0x17 ∧
    (let s : State := { up 0 with mem := { MemState.reset with halted := [4] } }; running s = true ∧ s.mem.halted.contains 4 = true) := by decide
/-- A word of a memory bank. -/
def site0 : Site := { mem := 0, path := 16384, idx := 3, kind := 0, addr := 64 }
theorem witness_BucketsAndRetirement :
    (let s : State := { up 86400000000000 with mem := { MemState.reset with
       buckets := [(16384, 2, 0)], tests := [⟨site0, 0, 1⟩], retire := [⟨site0, 1, [0], 1, 0, none⟩] } }
     s.mem.buckets.find? (fun b => b.1 == 16384) = some (16384, 2, 0) ∧ running s = true ∧
     s.mem.tests.find? (fun x => sameSite x.site site0) = some ⟨site0, 0, 1⟩ ∧ 0 + 10 * testTime site0.kind < s.now ∧
     (entryAt s site0).isSome = true ∧ ([0].getLast?.getD 0) + 86400 ≤ s.now / 1000000000) := by decide
/-- A device whose cores run, with key state. -/
def withSec (f : Sec → Sec) (t : Nat) : State := { up t with sec := f Sec.reset }
theorem witness_KeysAndEntropy :
    unitCode (0x14 * 2 ^ 14) = 0x14 ∧
    (let s := withSec id 1000000000
     running s = true ∧ reseedDue s = true ∧ s.sec.stopped = false ∧ noEntropy s = false ∧ s.sec.maskAt + 1000000 ≤ s.now ∧
     s.sec.excluded.contains 0 = false ∧ s.sec.excluded.contains (1 - 0) = false) ∧
    (let s := withSec (fun x => { x with excluded := [0, 1] }) 1000000000; reseedDue s = true ∧ noEntropy s = true) ∧
    (let s := withSec (fun x => { x with excluded := [1] }) 0
     s.sec.excluded.contains 0 = false ∧
     noEntropy (record 0x7030 (pathX 0x44 0) (le 1 0 ++ le 1 0) { s with sec := { s.sec with excluded := sIns 0 s.sec.excluded } }) = true) ∧
    (let s : State := { up 86400000000000 with ptp := { Ptp.reset with locked := true } }
     running s = true ∧ s.ptp.locked = true ∧ s.ice.epoch < epochOf s.now) := by decide
theorem witness_DroppedDatagrams :
    let h : Hdr := { bytes := [], tag := [] }
    gramRule (.viewDigest h 0) = some (h, .viewDigest 0) ∧ receives (served 0) = true ∧ hears (served 0) = true ∧
    (accept h (gramOf (.viewDigest 0)) (served 0)).1 = none ∧ (accept h (gramOf (.viewSync [])) (served 0)).1 = none ∧
    milmoTypes.contains h.type = false ∧ milmoTypes.contains (hdrOf 9 0x04).type = true ∧ (accept (hdrOf 9 0x04) (0x04, []) (served 0)).1 = none :=
  ⟨rfl, by decide, by decide, by decide, by decide, by decide, by decide, by decide⟩
/-- The roster of two pairs. -/
def cfg2 : Cfg := { cfg0 with roster := (cfg0.roster).map (fun r => { r with slots := r.slots ++ [{ slot := 1, pair := 2, zone := 1, rack := 1, feed := 1, retiring := false, a4 := some 2, a6 := none }] }) }
/-- A pair in an icefield of two, the other slot in a state. -/
def two (v : VSlot) (f : Ice → Ice) (t : Nat) : State :=
  let s := served t
  { s with cfg := some cfg2, ice := f { s.ice with view := [⟨0, .placing, false, 1, 0, 0, 0⟩, v] } }
/-- The other slot, alive and not suspected, or suspected by this pair since 0. -/
def v1 (susp : Bool) : VSlot := ⟨1, .placing, susp, 1, 0, 0, 0⟩
/-- A header and the tag that its sender computes over it and a body. -/
def tagged (s : State) (h : Hdr) (body : List Byte) : Hdr :=
  { h with tag := gramTag s ((genFor s.sec.gens h.epoch).map (·.1)) h.epoch h.slot h.role h.seq (h.bytes ++ body) }
theorem tagged_ok (s : State) (h : Hdr) (body : List Byte) : tagOk s (tagged s h body) body = true := by
  simp only [tagOk, tagged, Hdr.epoch, Hdr.slot, Hdr.role, Hdr.seq, Hdr.field, beq_self_eq_true]
/-- A datagram of slot 1 with a body, tagged under the keys of a state. -/
def signed (s : State) (b : Body) : Hdr := tagged s (hdrOf 1 (typeOf b)) (gramOf b).2
/-- Its tag verifies, so whether it is accepted depends on the rest of it. -/
theorem signed_accept (s : State) (b : Body) : accept (signed s b) (gramOf b) s = acceptBy true (typeOf b) (signed s b) s := by
  unfold accept signed; rw [tagged_ok]; rfl
/-- A probe of slot 0. -/
def prb0 : ProbeB := { target := 0, requester := 1, pid := 1, senderState := .placing, updates := [] }

theorem witness_MembershipCommands :
    (let s := two (v1 false) id 10000000000
     receives s = true ∧ hears s = true ∧ s.ice.probeAt + 10000000 ≤ s.now ∧ drawn 4 (aliveOthers s) [1] = true ∧
     s.ice.ownLeft = 0 ∧ s.ice.digestAt + 1000000000 ≤ s.now ∧ (aliveOthers s).contains 1 = true) ∧
    (let p : Probing := ⟨1, 5, 0, none, 0⟩
     let s := two (v1 false) (fun i => { i with probes := [p] }) 4000000
     silentProbe s 5 = some p ∧ drawn 3 ((aliveOthers s).filter (· != p.target)) [] = true ∧
     relayOver { s with ice := { s.ice with probes := [{ p with result := 2 }] } } 5 = some 1) ∧
    (let s := two (v1 true) id 30000000000
     viewOf s 1 = some (v1 true) ∧ (match rosterOf s with | some r => decide (secNs r.lossS ≤ s.now) | none => false) = true ∧ receives s = true ∧
     s.ice.isolated = false ∧ alive (v1 true).state = true ∧ s.ice.slot = some (v1 true).marker) ∧
    (let s (t : Nat) := two (v1 false) (fun i => { i with viewed := false }) t
     hears (s 0) = true ∧ (s 10000000000).ice.viewed = false ∧ (s 10000000000).ice.syncFrom + 10000000000 ≤ (s 10000000000).now ∧
     (s 1000000000).ice.syncAt + 1000000000 ≤ (s 1000000000).now ∧ (s 1000000000).now < (s 1000000000).ice.syncFrom + 10000000000 ∧ (s 0).ice.syncTries < 3) ∧
    (let s := two (v1 false) (fun i => { i with own := .closed }) 600000000000
     receives s = true ∧ s.ice.own = .closed ∧ causesNow s = [] ∧ s.ice.closedAt + secNs 600 ≤ s.now ∧ 100 * entries s.kw < 98 * admissionLimit s.kw.dram ∧
     threshold s (mediaOf s).floor < freeF s) := by
  refine ⟨⟨?_, ?_, ?_, ?_, ?_, ?_, ?_⟩, ⟨?_, ?_, ?_⟩, ⟨?_, ?_, ?_, ?_, ?_, ?_⟩, ⟨?_, ?_, ?_, ?_, ?_, ?_⟩, ?_, ?_, ?_, ?_, ?_, ?_⟩ <;> decide
/-- Datagrams of slot 1 that a pair in an icefield of two accepts. -/
theorem witness_MembershipCommands_accept :
    ∀ b ∈ [Body.probe prb0, .probeAck prb0, .probeRequest prb0, .viewDigest 5, .viewSync []],
      (accept (signed (two (v1 false) id 0) b) (gramOf b) (two (v1 false) id 0)).1.isSome = true := by
  simp only [signed_accept]
  simp only [List.mem_cons, List.not_mem_nil, or_false]
  rintro b (rfl | rfl | rfl | rfl | rfl) <;> decide
/-- A control body for version 4096 of a Store. -/
def ctl1 : CtlB := { storeId := 6, version := 4096, ns := 1, chunks := 1, level := 1, result := 0, pos := 0, commitTime := 0, key := [1] }
/-- A fragment of it. -/
def frag1 : FragB := frag0 []
/-- An acknowledgement of it. -/
def ack1 : AckB := { storeId := 6, chunk := 0, pos := 0, level := 1, result := 0, cond := 0, hint := 0, version := 4096, ref := 0 }
theorem witness_StoreDatagrams : receives (two (v1 false) id 0) = true ∧
    ∀ b ∈ [Body.fragment frag1, .fragmentAck ack1, .commitRequest ctl1, .commitIntent ctl1, .intentAck ctl1, .commitConfirm ctl1, .commitNotice ctl1, .abortNotice ctl1, .statusQuery ctl1],
      (accept (signed (two (v1 false) id 0) b) (gramOf b) (two (v1 false) id 0)).1.isSome = true := by
  refine ⟨by decide, ?_⟩
  simp only [signed_accept]
  simp only [List.mem_cons, List.not_mem_nil, or_false]
  rintro b (rfl | rfl | rfl | rfl | rfl | rfl | rfl | rfl | rfl) <;> decide
theorem witness_StoreTimers :
    (let e := store0 [{ chunk0 (some 0) with allSent := false, poss := [⟨0, 1, some 0, 0, 0, false⟩, ⟨1, 0, some 0, 0, 0, false⟩] }] 1 4
     let s := two (v1 false) (fun i => { i with stores := [e] }) 200000
     receives s = true ∧ (lateChunk s 6 0).isSome = true ∧ (silentPos s 6 0 1).isSome = true) ∧
    (let s := withIce (fun i => { i with recs := [rec0 [ver0 1 false]] }) 2000000000
     verAt s 1 [1] 4096 = some (rec0 [ver0 1 false], ver0 1 false) ∧ receives s = true ∧ (ver0 1 false).assignedAt + 2000000000 ≤ s.now) ∧
    (let v : CoVer := { ver0 4 false with unacked := [1] }
     let s := two (v1 false) (fun i => { i with recs := [rec0 [v]] }) 200000
     verAt s 1 [1] 4096 = some (rec0 [v], v) ∧ v.unacked ≠ [] ∧ v.sentAt + 200000 ≤ s.now) ∧
    (let e : EStore := { store0 [chunk0 (some 0)] 1 4 with version := 4096 }
     let s := withIce (fun i => { i with stores := [e] }) 2000000000
     storeBy s 6 = some e ∧ e.version ≠ 0 ∧ e.versionAt + 2000000000 ≤ s.now) ∧
    (let e := store0 [chunk0 (some 0)] 2 4
     let s := withIce (fun i => { i with stores := [e] }) 200000
     storeBy s 6 = some e ∧ e.commitAt + 200000 ≤ s.now) ∧
    (let i := item0 1
     let s : State := { served 2500000000 with kw := { (served 0).kw with items := [i] } }
     unsettled s 5 0 = some i ∧ receives s = true ∧ i.ackAt + 2500000000 ≤ s.now ∧ i.queryAt + 1000000000 ≤ s.now) := by
  refine ⟨⟨?_, ?_, ?_⟩, ⟨?_, ?_, ?_⟩, ⟨?_, ?_, ?_⟩, ⟨?_, ?_, ?_⟩, ⟨?_, ?_⟩, ?_, ?_, ?_, ?_⟩ <;> decide
/-- A read that waits for a piece asked at 0 of slot 1. -/
def read0 : ERead :=
  { id := 7, conn := 2, cid := 9, kind := 0, ns := 1, key := [1], off := 0, len := 0, buf := 4096, handle := 0, filter := none, opts := 0, expected := 0,
    coord := 0, tries := 0, stage := 1, at_ := 0, recs := [], want := [(0, 0, 1, 0)], got := [], tried := [], asked := [], replies := [] }
/-- A gather that waits for slot 1 since 0. -/
def gather0 : Gather := { id := 8, conn := 2, cid := 9, ns := 1, pattern := false, source := [], cursor := zeroCursor, startKey := [1], buf := 4096, asked := [(1, 0, 0)], more := [], entries := [] }
/-- A located key. -/
def loc1 : LocB := { ns := 1, first := 0, count := 1, key := [1], pos := 0, version := 4096, off := 0, len := 0 }
/-- A gather's body. -/
def gath1 : GatherB := { ns := 1, gid := 8, pattern := false, byCursor := false, cursor := zeroCursor, startKey := [1], source := [], more := false, entries := [] }
/-- A durability record. -/
def dur1 : DurRec := { version := 4096, greatest := 4096, state := 1, level := 1, holders := 1, atD1 := 1, atD3 := 0, tomb := false, successor := false, commitTime := 0 }
theorem witness_ReadsAndListings :
    (let s := two (v1 false) (fun i => { i with readsE := [read0], gathers := [gather0] }) 1000000
     receives s = true ∧ silentPiece s 7 0 0 = true ∧ gatherDue s 8 1 = some gather0) ∧
    ∀ b ∈ [Body.locate loc1, .locateReply 0 1 [], .readRequest loc1, .readData frag1, .durabilityQuery loc1, .durabilityReply 0 1 dur1, .gatherRequest gath1, .gatherReply gath1],
      (accept (signed (two (v1 false) id 0) b) (gramOf b) (two (v1 false) id 0)).1.isSome = true := by
  refine ⟨⟨?_, ?_, ?_⟩, ?_⟩
  · decide
  · decide
  · decide
  simp only [signed_accept]
  simp only [List.mem_cons, List.not_mem_nil, or_false]
  rintro b (rfl | rfl | rfl | rfl | rfl | rfl | rfl | rfl) <;> decide
/-- A stripe record of a committed version. -/
def stripe1 : StripeB := { ns := 1, chunk := 0, key := [1], state := 1, intent := false, tomb := false, domShort := false, zeroExt := false, final := false, holders := [0], version := 4096, greatest := 4096, valueLen := 0, k := 1, m := 0, dom := .rack, thr := 1, d3 := [] }
theorem witness_SuccessionDatagrams : receives (two (v1 false) id 0) = true ∧ (rosterEntry (two (v1 false) id 0) 1).isSome = true ∧
    ∀ b ∈ [Body.recordQuery loc1, .recordReply [stripe1] 0, .floorNotice 1 2, .floorAck 1 2, .orphanNotice stripe1, .handoverRecord stripe1 0, .holderReturn stripe1 none,
        .repairOrder stripe1 0],
      (accept (signed (two (v1 false) id 0) b) (gramOf b) (two (v1 false) id 0)).1.isSome = true := by
  refine ⟨by decide, by decide, ?_⟩
  simp only [signed_accept]
  simp only [List.mem_cons, List.not_mem_nil, or_false]
  rintro b (rfl | rfl | rfl | rfl | rfl | rfl | rfl | rfl) <;> decide
/-- A state with its flash drivers enabled. -/
def lit (s : State) : State := { s with keeper := { s.keeper with drivers := true, holdOut := true } }
theorem witness_RepairHandoverAndLeases :
    (let s := lit (two (v1 false) (fun i => { i with raises := [⟨0, 1, [1], 1, [1], 0⟩], returned := [(1, [1], 0)], leases := [⟨3, 1, 2, 0, 0, false, 0⟩] }) 86400000000000)
     receives s = true ∧ raisesDue s 0 ≠ [] ∧ knownNs s 1 = true ∧ returnOver s 1 [1] = true ∧ s.ice.permitAt + 1000000 ≤ s.now ∧
     (s.ice.leases.find? (fun l => l.id == 3 && decide (l.last + 5000000 ≤ s.now))).isSome = true ∧ (placingSet s).contains 1 = true ∧ classGranted s (unitLevel s (ofKind 15)) = true) ∧
    (let s := lit (two (v1 false) (fun i => { i with readsE := [{ read0 with kind := 6, stage := 2 }] }) 10000000000)
     receives s = true ∧ repairsDue s 1 [1] ≠ [] ∧ classGranted s (unitLevel s (ofKind 13)) = true) ∧
    (let r := two (v1 false) id 0
     let s : State := { r with cfg := (r.cfg).map (fun c => { c with roster := c.roster.map (fun x => { x with calThr := 1 }) }), ptp := { r.ptp with locked := true } }
     receives s = true ∧ calendarOn s = true ∧ s.ptp.locked = true) ∧
    (let s := two (v1 false) (fun i => { i with entering := [1] }) 0
     receives s = true ∧ finalDue s 0 = some 1) := by
  refine ⟨⟨?_, ?_, ?_, ?_, ?_, ?_, ?_, ?_⟩, ⟨?_, ?_, ?_⟩, ⟨?_, ?_, ?_⟩, ?_, ?_⟩ <;> decide
/-- A lease's body. -/
def lease1 : LeaseB := { id := 3, queue := 2, locked := false, calendar := false, rate := 1, bytes := 4096 }
/-- Lease datagrams of slot 1 that a pair in an icefield of two accepts. -/
theorem witness_RepairHandoverAndLeases_accept :
    ∀ b ∈ [Body.leaseRequest lease1, .permit lease1], (accept (signed (two (v1 false) id 0) b) (gramOf b) (two (v1 false) id 0)).1.isSome = true := by
  simp only [signed_accept]
  simp only [List.mem_cons, List.not_mem_nil, or_false]
  rintro b (rfl | rfl) <;> decide
/-- What an Update Forward datagram says about a package. -/
def fwd0 (pkg off : Nat) (d : List Byte) : FwdB :=
  { chain := true, solo := false, confirmed := false, mask := [0], reason := 0, origin := 0, pkg := pkg, length := 4096, off := off, ask := 4096, data := d }
/-- A forwarder whose target is slot 1. -/
def fw0 : Forwarder := { target := some 1, mask := [], solo := false, confirmed := false, offerAt := 0, progressAt := 0, confirmAt := 0, stopped := false }
/-- A pair in an icefield of two, with the state of its firmware. -/
def withBoot (f : Boot → Boot) (t : Nat) : State := let s := two (v1 false) id t; { s with boot := f s.boot }
/-- A package pulled from slot 1, some bytes of it there. -/
def pulled (bs : List Byte) : Incoming := { begun bs with source := 1, from_ := 1, pkg := 1, length := 769 }
/-- A package of a header block and one byte, with some parts in its manifest. -/
def block0 (parts : Byte) : List Byte := List.replicate 8 0 ++ [1, 3] ++ List.replicate 16 0 ++ [parts] ++ List.replicate 742 0
/-- A package that goes on from here. -/
def staged1 : Staged := { staged0 with forward := true, chain := true, source := 1, from_ := 1 }
/-- The state in which a datagram of slot 1 is accepted. -/
def heard (s : State) (b : Body) : State := (acceptBy true (typeOf b) (signed s b) s).1.getD s
theorem heard_accept (s : State) (b : Body) (h : (acceptBy true (typeOf b) (signed s b) s).1.isSome = true) :
    (accept (signed s b) (gramOf b) s).1 = some (heard s b) := by
  rw [signed_accept]; unfold heard; revert h; cases (acceptBy true (typeOf b) (signed s b) s).1 <;> simp
theorem witness_UpdateForwarding_offer (b : FwdB) (hb : b = fwd0 1 0 []) :
    (let s := withBoot (fun x => { x with runs := some ⟨[]⟩, confirmed := true }) 0
     receives s = true ∧ (acceptBy true (typeOf (.updateForward 1 b)) (signed s (.updateForward 1 b)) s).1.isSome = true ∧
       runsConfirmed (heard s (.updateForward 1 b)) (Package.mk []).id = true) ∧
    (let s := withBoot (fun x => { x with bankB := { x.bankB with state := 1 } }) 0
     receives s = true ∧ (acceptBy true (typeOf (.updateForward 1 b)) (signed s (.updateForward 1 b)) s).1.isSome = true ∧
       (heard s (.updateForward 1 b)).boot.staged.isNone = true ∧ runsConfirmed (heard s (.updateForward 1 b)) 1 = false ∧ stagingBusy (heard s (.updateForward 1 b)).boot = true) ∧
    (let s := withBoot id 0
     receives s = true ∧ (acceptBy true (typeOf (.updateForward 1 b)) (signed s (.updateForward 1 b)) s).1.isSome = true ∧
       (heard s (.updateForward 1 b)).boot.staged.isNone = true ∧ runsConfirmed (heard s (.updateForward 1 b)) 1 = false ∧
       stagingBusy (heard s (.updateForward 1 b)).boot = false ∧ (heard s (.updateForward 1 b)).boot.incoming.isNone = true) ∧
    (let s := withBoot (fun x => { x with incoming := some (pulled []) }) 0
     receives s = true ∧ (acceptBy true (typeOf (.updateForward 1 b)) (signed s (.updateForward 1 b)) s).1.isSome = true ∧
       (heard s (.updateForward 1 b)).boot.staged.isNone = true ∧ runsConfirmed (heard s (.updateForward 1 b)) 1 = false ∧
       stagingBusy (heard s (.updateForward 1 b)).boot = false ∧ (heard s (.updateForward 1 b)).boot.incoming = some (pulled []) ∧
       (pulled []).source = 1 ∧ (pulled []).pkg = b.pkg ∧ (pulled []).from_ = (signed s (.updateForward 1 b)).slot) := by
  subst hb
  refine ⟨⟨?_, ?_, ?_⟩, ⟨?_, ?_, ?_, ?_, ?_⟩, ⟨?_, ?_, ?_, ?_, ?_, ?_⟩, ?_, ?_, ?_, ?_, ?_, ?_, ?_, ?_, ?_⟩ <;> decide
theorem witness_UpdateForwarding_staged (n : Nat) (b : FwdB) (hb : b = fwd0 (Package.mk []).id 0 []) (hn : n = 2 ∨ n = 4 ∨ n = 5 ∨ n = 6) :
    (let s := withBoot id 0
     receives s = true ∧ (acceptBy true (typeOf (.updateForward n b)) (signed s (.updateForward n b)) s).1.isSome = true ∧
       (heard s (.updateForward n b)).boot.staged.isNone = true ∧ (heard s (.updateForward n b)).boot.forwarder.isNone = true) ∧
    (let s := withBoot (fun x => { x with staged := some staged1, forwarder := some fw0 }) 0
     receives s = true ∧ (acceptBy true (typeOf (.updateForward n b)) (signed s (.updateForward n b)) s).1.isSome = true ∧
       (heard s (.updateForward n b)).boot.staged = some staged1 ∧ (heard s (.updateForward n b)).boot.forwarder = some fw0 ∧
       spreads (heard s (.updateForward n b)) b.pkg = some staged1 ∧ staged1.pkg.id = b.pkg ∧ staged1.forward = true ∧
       fw0.target = some (signed s (.updateForward n b)).slot) := by
  subst hb
  refine ⟨⟨?_, ?_, ?_, ?_⟩, ?_, ?_, ?_, ?_, ?_, rfl, rfl, ?_⟩ <;> rcases hn with rfl | rfl | rfl | rfl <;> decide
theorem witness_UpdateForwarding_segment (bs : List Byte) (d : List Byte) (hd : bs = [] ∧ d = block0 0 ∨ bs = [] ∧ d = [0] ∨ bs = (block0 0).take 768 ∧ d = [0] ∨
      bs = (block0 1).take 768 ∧ d = [0]) :
    let b := fwd0 1 bs.length d
    let s := withBoot (fun x => { x with incoming := some (pulled bs) }) 0
    receives s = true ∧ (acceptBy true (typeOf (.updateForward 3 b)) (signed s (.updateForward 3 b)) s).1.isSome = true ∧
      (heard s (.updateForward 3 b)).boot.incoming = some (pulled bs) ∧ (pulled bs).from_ = (signed s (.updateForward 3 b)).slot ∧ b.data.isEmpty = false := by
  rcases hd with ⟨rfl, rfl⟩ | ⟨rfl, rfl⟩ | ⟨rfl, rfl⟩ | ⟨rfl, rfl⟩ <;> refine ⟨?_, ?_, ?_, ?_, ?_⟩ <;> decide
theorem witness_UpdateForwarding_segment_outcomes :
    (blockDone (block0 0) = true ∧ blockDone [] = false ∧ (chainReason (withBoot id 0) (pulled []) (block0 0)).isSome = true) ∧
    (blockDone ([] ++ [0]) = false ∧ ([] ++ [(0 : Byte)]).length < (pulled []).length) ∧
    (blockDone ((block0 0).take 768) = true ∧ (pulled []).length ≤ ((block0 0).take 768 ++ [0]).length ∧ digestsOk (packageOf ((block0 0).take 768 ++ [0])) = true) ∧
    (blockDone ((block0 1).take 768) = true ∧ digestsOk (packageOf ((block0 1).take 768 ++ [0])) = false) ∧
    (blockDone ([0] ++ [0]) = false ∧ ({ pulled [0] with length := 2 } : Incoming).length ≤ ([0] ++ [(0 : Byte)]).length) := by
  refine ⟨⟨?_, ?_, ?_⟩, ⟨?_, ?_⟩, ⟨?_, ?_, ?_⟩, ⟨?_, ?_⟩, ?_, ?_⟩ <;> decide
theorem witness_UpdateForwarding_timers :
    (let s := withBoot (fun b => { b with staged := some staged1, forwarder := some fw0 }) 604800000000000
     forwards s = some staged1 ∧ (keepTarget 1 s).boot.forwarder = some fw0 ∧ fw0.stopped = false ∧ maskFull fw0 = false ∧ fw0.offerAt + 1000000000 ≤ (keepTarget 1 s).now ∧
     fw0.progressAt + 600000000000 ≤ s.now ∧ staged1.at_ + 604800000000000 ≤ s.now) ∧
    (let s := withBoot (fun b => { b with spread := some staged1, forwarder := some fw0, confirmed := true, runs := some ⟨[]⟩ }) 10000000000
     running s = true ∧ holdsPair s = true ∧ pairConfirmed s staged1 = true ∧ (keepTarget 1 s).boot.forwarder = some fw0 ∧
     fw0.confirmAt + 10000000000 ≤ (keepTarget 1 s).now) := by
  refine ⟨⟨?_, ?_, ?_, ?_, ?_, ?_, ?_⟩, ?_, ?_, ?_, ?_, ?_⟩ <;> decide
/-- The running device with its HOLD and BEAT wires in a state. -/
def held (f : Keeper → Keeper) (t : Nat) : State := let s := up t; { s with keeper := f s.keeper }
/-- The running device with its twin's state. -/
def paired (f : Twin → Twin) (k : Keeper → Keeper) (t : Nat) : State := let s := held k t; { s with twin := f s.twin }
theorem witness_HoldAndBeat :
    (∀ b : Bool, (held (fun k => { k with holdIn := false, holdOut := b }) 0).keeper.phase ≠ .off) ∧ (held (fun k => { k with holdIn := true }) 0).keeper.holdIn = true ∧
    (let s := paired (fun x => { x with roleState := .standby }) (fun k => { k with holdIn := false, holdOut := false, beatOut := .release }) 0
     running s = true ∧ s.twin.roleState = .standby ∧ s.keeper.beatOut = .release ∧ s.keeper.holdIn = false ∧ s.keeper.holdOut = false) ∧
    (let s := paired (fun x => { x with roleState := .yielded, yieldAt := some 0 }) (fun k => { k with holdIn := false, holdOut := false }) 0
     running s = true ∧ s.twin.yieldAt.isSome = true ∧ s.twin.roleState = .yielded ∧ s.keeper.holdOut = false) ∧
    (let s := paired id (fun k => { k with holdIn := false, holdOut := false }) 0
     running s = true ∧ ¬ (s.twin.roleState = .yielded ∧ s.twin.yieldAt.isSome = true) ∧ ¬ (s.twin.roleState = .standby ∧ s.keeper.beatOut = .release)) ∧
    running (atKeeper { Keeper.reset with phase := .keeper }) = false ∧
    (let s := paired (fun x => { x with collision := some 0 }) (fun k => { k with holdIn := true, holdOut := true, role := 0 }) 10000000
     running s = true ∧ s.twin.collision = some 0 ∧ 0 + 10000000 ≤ s.now ∧ s.keeper.holdIn = true ∧ s.keeper.role = 0) ∧
    (let s := held (fun k => { k with beatOut := .normal, beatOutAt := 0, holdOut := true }) 12000
     running s = true ∧ s.keeper.beatOutAt + 3960 ≤ s.now ∧ s.keeper.beatOutAt + 12000 ≤ s.now ∧ s.keeper.beatOut = .normal ∧ s.keeper.holdOut = true) ∧
    (let s (t : Nat) := held (fun k => { k with beatInAt := 0 }) t
     (s 1000).now ≤ (s 1000).keeper.beatInAt + 1000 ∧ (s 1001).keeper.beatInAt + 1000 < (s 1001).now ∧ (s 16000).keeper.beatInAt + 16000 ≤ (s 16000).now) := by
  refine ⟨?_, ?_, ⟨?_, ?_, ?_, ?_, ?_⟩, ⟨?_, ?_, ?_, ?_⟩, ⟨?_, ?_, ?_⟩, ?_, ⟨?_, ?_, ?_, ?_, ?_⟩, ⟨?_, ?_, ?_, ?_, ?_⟩, ?_, ?_, ?_⟩ <;> decide
theorem witness_TakeoverAndYield :
    (let s (h : Bool) (r : Option Nat) := paired (fun x => { x with roleState := .standby, healthy := h, retakeSince := r, status := none })
       (fun k => { k with holdIn := false, holdInAt := 0, beatIn := .silent }) 1000000
     ∀ h : Bool, running (s h none) = true ∧ (s h none).start.lend = 0 ∧ mayTake (s h none) = true ∧ mayTake (s h (some 0)) = true ∧ 0 + 1000000 ≤ (s h (some 0)).now) ∧
    (let s := paired (fun x => { x with takeover := some (0, 5, false), keeperRelease := some 0 }) id 1000000
     0 + 32000 ≤ s.now ∧ s.twin.takeover = some (0, 5, false) ∧ s.twin.keeperRelease = some 0 ∧ running s = true) ∧
    (let s (r : RoleState) := paired (fun x => { x with roleState := r, criterion := 0 }) id 0
     criterionShown 2 (s .standby) = true ∧ (s .active).twin.criterion ≠ 2 ∧ mayYield (s .active) = false ∧ (s .active).twin.trainSince = none ∧ (s .solo).twin.roleState = .solo ∧ (s .yielded).twin.roleState = .yielded ∧
       (paired (fun x => { x with roleState := .active, trainSince := some 0 }) id 0).twin.trainSince.isSome = true) ∧
    (let s := paired (fun x => { x with roleState := .active, healthy := true, reportAt := 0, status := none }) id 0
     mayYield s = true) ∧
    (let s := paired (fun x => { x with roleState := .yielded, yieldAt := some 0, reportAt := 0, trainSince := none }) (fun k => { k with holdIn := false }) 100001
     running s = true ∧ s.keeper.holdIn = false ∧ s.twin.reportAt + 100000 < s.now ∧ s.twin.yieldAt = some 0) := by
  refine ⟨?_, ⟨?_, ?_, ?_, ?_⟩, ⟨?_, ?_, ?_, ?_, ?_, ?_, ?_⟩, ?_, ?_, ?_, ?_, ?_⟩ <;> decide
/-- The running device with its twin configured. -/
def twinned (f : Twin → Twin) (t : Nat) : State :=
  { paired f id t with cfg := some { cfg0 with hinge := { cfg0.hinge with twin := true } } }
theorem witness_HingeLink :
    (let s := twinned (fun x => { x with
                                        linkUp := true, retired := [], trainSince := some 0, flitAt := 0, session := true, statusSent := 0, reportSent := 0, flitRx := 4
                                        roleState := .standby }) 500001
     running s = true ∧ (3 : Nat) ∉ s.twin.retired ∧ s.twin.trainSince = some 0 ∧ 0 + 500000 < s.now ∧ inOrder s 5 = true ∧ inOrder s 6 = false ∧
     s.twin.linkUp = true ∧ s.twin.flitAt + 200 ≤ s.now ∧ s.twin.session = true ∧ s.twin.statusSent + 2000 ≤ s.now ∧ s.twin.reportSent + 50000 ≤ s.now) ∧
    (let s (b : Bool) := twinned (fun x => { x with linkUp := false, retired := [], trainSince := none, triedAt := 0, session := b, roleState := .standby }) 1000000000
     ∀ b : Bool, running (s b) = true ∧ holdsPair (s b) = false ∧ twinConfigured (s b) = true ∧ (1 : Nat) ∉ (s b).pace.clocksLost ∧
       (s b).twin.triedAt + 1000000000 ≤ (s b).now ∧ 16 ≤ widest (s b).twin.retired) ∧
    widest [0, 4, 8, 12] = 0 := by
  refine ⟨⟨?_, ?_, ?_, ?_, ?_, ?_, ?_, ?_, ?_, ?_, ?_⟩, ?_, ?_⟩ <;> decide
/-- The Hello of a twin that agrees, or of another major version. -/
def hello0 (v : Nat) (s : State) : HelloB :=
  let o := ownHello s
  { o with major := o.major + v, role := 1 - o.role, serial := twinSerial s }
theorem witness_SessionFrames :
    (let s := twinned (fun x => { x with linkUp := true, session := false, refused := some 1, refusedAt := 0 }) 10000000000
     running s = true ∧ twinConfigured s = true ∧ s.twin.refused ≠ none ∧ s.twin.refusedAt + 10000000000 ≤ s.now ∧ (joinRefusal (hello0 99 s) s).isSome = true) ∧
    (let s := twinned (fun x => { x with linkUp := true, session := false }) 0
     joinRefusal (hello0 0 s) s = none) ∧
    (let s := twinned (fun x => { x with linkUp := true, session := true, handoff := true }) 0
     running s = true ∧ twinConfigured s = true ∧ s.twin.session = true ∧ s.twin.handoff = true) ∧
    (let s := twinned (fun x => { x with session := true, roleState := .active, planned := some (4, ownConn, 1) }) 0
     running s = true ∧ s.twin.session = true ∧ (gotFrame 2 (ackedUpTo 4 { s with twin := { s.twin with applied := max s.twin.applied 3 } })).twin.planned = some (4, ownConn, 1)) ∧
    (let s := twinned (fun x => { x with session := true, roleState := .solo }) 0
     running s = true ∧ s.twin.roleState ≠ .active ∧ s.twin.roleState ≠ .standby ∧ (0x7F : Nat) ∉ [0x01, 0x02, 0x03]) ∧
    (let s := twinned (fun x => { x with session := true, roleState := .active, unacked := [(1, 16, 0)], trainSince := none }) 100001
     running s = true ∧ 0 + 100000 < s.now ∧ (gotFrame 2 (ackedUpTo 1 { s with twin := { s.twin with applied := max s.twin.applied 3 } })).twin.planned = none) ∧
    (let s := twinned (fun x => { x with session := true, roleState := .standby }) 0
     running s = true ∧ inShutdown s = false) ∧
    (let s := ioOn (twinned (fun x => { x with session := true, roleState := .active }) 0)
     let t := { s with host := { s.host with conns := s.host.conns.map (fun c => { c with sndNxt := 5 }) } }
     running t = true ∧ (connBy t 2).isSome = true ∧ t.host.conns.filter (fun c => ! c.mgmt && decide (c.sndAck < c.sndNxt)) ≠ []) := by
  refine ⟨⟨?_, ?_, ?_, ?_, ?_⟩, ?_, ⟨?_, ?_, ?_, ?_⟩, ⟨?_, ?_, ?_⟩, ⟨?_, ?_, ?_, ?_⟩, ⟨?_, ?_, ?_⟩, ⟨?_, ?_⟩, ?_, ?_, ?_⟩ <;> decide
theorem witness_MirroredFrames :
    (let s := twinned (fun x => { x with session := true, roleState := .standby, rxSeq := 4 }) 0
     applies 5 s = true ∧ applies 4 s = false) ∧
    (let s := twinned (fun x => { x with session := true, roleState := .active, rxSeq := 4 }) 0
     running s = true ∧ s.twin.session = true ∧ s.twin.rxSeq < 5 ∧ ¬ s.twin.rxSeq < 4) := by
  decide
theorem witness_RecorderAndManagement :
    (let s := { record 0x3011 0 [] (up 10) with now := 1000000010 }
     running s = true ∧ s.mor.buffer ≠ [] ∧ s.mor.writing = none ∧ (writeTrigger s).isSome = true) ∧
    (let x : Suppr := { count := 1, last := { newRec 0 false 0x3011 3 0 [] with time := 0 } }
     let s := up 1000000000000
     let t := { s with mor := { s.mor with supp := [x] } }
     running t = true ∧ t.mor.supp.find? (fun x => decide (x.last.code = 0x3011)) = some x ∧ summaryDue (limOf t) t.mor t.now x = true) ∧
    (let s := up 1000001
     let t := { s with mor := { s.mor with writing := some (0, 0, false) } }
     running t = true ∧ t.mor.writing = some (0, 0, false) ∧ 0 + 1000000 < t.now) ∧
    (let s := adminOn false (served 1000000000)
     let t := { s with host := { s.host with ctrls := [{ ctrl 1 false with kato := 1000 }] } }
     running t = true ∧ (t.host.ctrls.find? (fun c => c.id == 1)) = some { ctrl 1 false with kato := 1000 } ∧ 0 + 1000000 * 1000 ≤ t.now) ∧
    ¬ ((0x07 : Nat) = 0x06 ∧ ([] : List Nat).length = 3) := by
  refine ⟨⟨?_, ?_, ?_, ?_⟩, ⟨?_, ?_, ?_⟩, ⟨?_, ?_, ?_⟩, ⟨?_, ?_, ?_⟩, ?_⟩ <;> decide
theorem witness_IdleUntilReleased : needsCores .keeperFeed = true ∧ needsLink (.linkUp 0) = true ∧ running State.reset = false ∧
    State.reset.keeper.phase ≠ .recovery := by decide
theorem witness_HoldFrame : movesHold .keeperFeed = false ∧ exec .keeperFeed State.reset = .next State.reset := ⟨by decide, rfl⟩
theorem witness_RecorderNumbers :
    (∃ m : Moraine, NumbersOk m ∧ m.through = false ∧ m.buffer.length < placesFor 0 ∧ m.clean = false) ∧
    (∃ m : Moraine, NumbersOk m ∧ m.through = true) ∧ placesFor 0 ≤ (List.replicate 4032 (newRec 0 false 0x3011 2 0 [])).length := by
  refine ⟨⟨{ Moraine.reset with clean := false }, ?_, rfl, ?_, rfl⟩, ⟨{ Moraine.reset with through := true }, ?_, rfl⟩, ?_⟩
  · simp [NumbersOk, Moraine.reset]
  · decide
  · simp [NumbersOk, Moraine.reset]
  · rw [List.length_replicate]; decide
/-- An entry of the table. -/
def kw0 : KwEntry := { fp := 0, loc := 0, size := 0, kind := 0, ver := 0, alt := false, pend := false, cor := false, zext := false, pos := 0, stash := false }
theorem witness_BucketsOfAKey : 2 ≤ 1024 ∧ (∃ e : KwEntry, e.fp = fpOf 5 ∧ e.alt = true) ∧ (∃ e : KwEntry, e.fp = fpOf 5 ∧ e.alt = false) := by
  refine ⟨by decide, ⟨{ kw0 with fp := fpOf 5, alt := true }, rfl, rfl⟩, ⟨{ kw0 with fp := fpOf 5, alt := false }, rfl, rfl⟩⟩
theorem witness_VersionsRise : mySlot (served 0) < 4096 ∧ recOf (served 0) 1 [1] = none ∧ (aGet (homeBin (served 0) 1 [1]) (served 0).ice.floors).getD 0 = 0 :=
  ⟨by decide, rfl, rfl⟩
/-- A namespace whose bank set names bank 0, whose group stands in the table with one row, for the namespace's every key. -/
def wardRows (rows : List (Nat × WardEntry)) : State := { served 0 with ward := { WardSt.reset with rows := rows, shadow := rows } }
/-- That namespace. -/
def nsBank : NsEntry := { id := 1, pol := { k := 1, m := 0, thr := 1, ack := 1, dom := .rack, qos := 0 }, maxKey := 255, redirect := false, bankSet := [0], q0 := 1, q1 := 2, hosts := [] }
theorem witness_WardPrecedence :
    let row : WardEntry := { prio := 9, action := 1, value := 0, mask := 0 }
    let cas (s : State) : State := { s with cfg := some { cfg0 with ward := { cfg0.ward with cascade := [1] } } }
    wardWinner [(5, 7, 0), (9, 8, 1), (9, 6, 2), (2, 1, 3)] = some (9, 6, 2) ∧
    setHeads (wardRows []) nsBank = [] ∧ setHeads (cas (wardRows [])) nsBank ≠ [] ∧ (setHeads (cas (wardRows [])) nsBank).any (cas (wardRows [])).ward.firmware.contains = false ∧
    wardMatches (cas (wardRows [])).ward.rows (cas (wardRows [])) nsBank 0 [1] = [] ∧
    wardWinner (wardMatches (cas (wardRows [(3, row)])).ward.rows (cas (wardRows [(3, row)])) nsBank 0 [1]) = some (9, 3, 1) ∧
    (∀ e ∈ rowEntries 1 3, e ∉ (cas (wardRows [(3, row)])).ward.lostWords ∧ aGet e (cas (wardRows [(3, row)])).ward.rebuilding = none) ∧
    rowMatches (cas (wardRows [(3, row)])).ward.shadow 1 3 1 0 [1] = true ∧
    (let s := cas { wardRows [] with ward := { WardSt.reset with firmware := [0] } }
     (setHeads s nsBank).any s.ward.firmware.contains = true) := by decide
theorem witness_HoldDriverTimer :
    (let s := held (fun k => { k with beatOut := .normal, beatOutAt := 0, fed := true }) 3960
     running s = true ∧ s.keeper.beatOutAt + 3960 ≤ s.now ∧ s.keeper.fed = true ∧ s.now < s.keeper.beatOutAt + 12000) ∧
    (held (fun k => { k with beatOutAt := 0 }) 12000).keeper.beatOutAt + 12000 ≤ (held id 12000).now := by decide
theorem witness_CrossedEvict : inService (holding true none) coh2 = true ∧ evictingAt (holding true none).coh coh2 = true ∧
    (dirOf (holding true (some (snoop 1 []))).coh 64).txn.isSome = true ∧ (holding true (some (snoop 1 []))).coh.ports = [] := by decide
/-- A frame on M0, of 64 bytes, that passes or whose check sum fails. -/
def frame0 (ok : Bool) : Frame := { mac := 0, len := 64, fcsOk := ok, symbolOk := true, bufferFull := false, dest := 0, vlan := none, prio := 0, etherType := 0x0800, ipOk := true, arp := false, l4Ok := true, milmo := false, bytes := [] }
/-- The serving pair with M0 in a state. -/
def withMac (f : Mac → Mac) (t : Nat) : State := let s := served t; { s with net := { s.net with macs := s.net.macs.map f } }
theorem witness_FramesAndLinks :
    takesFrames (withMac id 0) = true ∧ macTakes (withMac id 0) 0 = true ∧ isUp (withMac id 0) 0 = true ∧ dropCounter (withMac id 0) (frame0 false) = some 20 ∧
    dropCounter (withMac id 0) (frame0 true) = none ∧ (macOf (withMac id 0) 0).isSome = true ∧ running (withMac id 0) = true ∧
    (let s := withMac (fun m => { m with up := false }) 100000000
     running s = true ∧ s.twin.parked = false ∧ s.pace.clocksLost.contains 0 = false ∧
     (match macOf s 0 with | some m => ! m.up && ! m.laneRetired && decide (m.downAt + 100000000 ≤ s.now) | none => false) = true) ∧
    (let s := withMac (fun m => { m with counts := [(0, 2 ^ 31)], xoff := [(5, 0)], txq := [⟨3, 0, .connReset 1, false⟩] }) 1000000000
     s.net.sweptAt + 1000000000 ≤ s.now ∧
     (match macOf s 0 with
      | some m => decide (2 ^ 31 ≤ (aGet 0 m.counts).getD 0) && ! m.stalled && ! m.xoff.isEmpty && decide (m.progressAt + 100000000 ≤ s.now) &&
          (m.txq.find? (fun x => x.queue == 3)).isSome && m.up
      | none => false) = true) ∧
    (let s : State := { served 0 with net := { Net.reset with macs := [{ freshMac 0 16 4 with up := true }] }, keeper := { Keeper.reset with phase := .recovery } }
     isUp s 16 = true ∧ s.keeper.phase = .recovery ∧ linkRuns s 16 = true) := by
  refine ⟨?_, ?_, ?_, ?_, ?_, ?_, ?_, ⟨?_, ?_, ?_, ?_⟩, ⟨?_, ?_⟩, ?_, ?_, ?_⟩ <;> decide
/-- The serving pair with PTP on M0. -/
def withPtp (f : Ptp → Ptp) (t : Nat) : State :=
  let s := served t
  { s with cfg := some { cfg0 with net := { cfg0.net with macs := [{ vlan := 0, untagged := true, milmo := false, ptp := true, mcast := false }] } }, ptp := f s.ptp }
theorem witness_PausesAddressesAndTime :
    takesFrames (withMac id 0) = true ∧ isUp (withMac id 0) 0 = true ∧ (held4 (withMac id 0) 0).contains 1 = true ∧
    (match macOf (withMac id 0) 0, netOf (withMac id 0) with
     | some m, some n => n.lossless.contains 5 && m.up && ! m.stalled && (aGet 5 m.xoff).isNone
     | _, _ => false) = true ∧
    (match macOf (withMac (fun m => { m with xoff := [(5, 0)] }) 0) 0 with | some m => (aGet 5 m.xoff).isSome | none => false) = true ∧
    (match macOf (withMac (fun m => { m with paused := [(5, 0, 200000000)] }) 100000000) 0 with
     | some m => m.paused.find? (fun x => x.1 == 5) == some (5, 0, 200000000) | none => false) = true ∧
    (let s := { withMac id 0 with cfg := some { cfg0 with net := { cfg0.net with v6 := true } } }
     takesFrames s = true ∧ isUp s 0 = true ∧ (held6 s 0).contains 1 = true) ∧
    (let s := withPtp (fun p => { p with parent := some (0, 9, 1), locked := true }) 2000000000
     ptpOn s 0 0 = true ∧ s.ptp.parent = some (0, 9, 1) ∧ running s = true ∧ s.ptp.locked = true ∧ s.ptp.syncAt + 2000000000 ≤ s.now) ∧
    (ptpOn (withPtp id 0) 0 0 = true ∧ (withPtp id 0).ptp.parent = none) ∧
    (let s : State := { served 30000000000 with net := { (served 0).net with annLeft := 1 } }
     running s = true ∧ s.net.lldpAt + 30000000000 ≤ s.now ∧ s.start.service = true ∧ 0 < s.net.annLeft ∧ s.net.annAt + 1000000000 ≤ s.now ∧
     s.pace.clocksLost.contains 0 = false) := by
  refine ⟨?_, ?_, ?_, ?_, ?_, ?_, ⟨?_, ?_, ?_⟩, ⟨?_, ?_, ?_, ?_, ?_⟩, ⟨?_, ?_⟩, ?_, ?_, ?_, ?_, ?_, ?_⟩ <;> decide

end Sys2Proof.Tests
end

section
/-! SUPPORT. A snoop that crosses an eviction (R48): what each snoop does to a line in the eviction buffer. -/

namespace Sys2Proof.Machine

/-! ### The eviction buffer -/

/-- A directory entry is no line of a cluster. -/
@[simp] theorem evictingAt_setDir (d : DirLine) (k : Coherence) (c : Coh) : evictingAt (setDir d k) c = evictingAt k c := by
  have hlines : (setDir d k).lines = k.lines := by unfold setDir; split <;> rfl
  simp [evictingAt, clusterLine, hlines]

/-- A cluster holds the line that is in its eviction buffer. -/
theorem exists_clusterLine_of_evictingAt {k : Coherence} {c : Coh} (h : evictingAt k c = true) : ∃ x, clusterLine k c = some x := by
  unfold evictingAt at h
  split at h
  · exact ⟨_, ‹_›⟩
  · cases h

/-- A line in the eviction buffer is met there, whether or not the snoop finds its Put still on the way. -/
theorem inBuffer_of_evictingAt {c : Coh} {s : State} (ev : Bool) (h : evictingAt s.coh c = true) : inBuffer ev c s = true := by
  simp [inBuffer, h]

/-! ### Each snoop's answer -/

/-- `coherent_next` with the region named by `homeNo`. -/
theorem coherent_inService {c : Coh} {s : State} (f : Nat → State → State) (h : inService s c = true) :
    coherent c f s = .next (wake c.line (f (homeNo s c.line) s)) := by
  simp [coherent, onlyIf, h]

/-- The directory from a recall on: a line that is in no transient state enters a recall, which waits for every holder. -/
def recallDir (h : Nat) (c : Coh) (k : Coherence) : Coherence :=
  if (dirOf k c.line).txn.isSome then k
  else setDir { dirOf k c.line with
    region := h, txn := some ⟨⟨3, c.cluster, 0, 0, []⟩, (dirOf k c.line).owner.toList ++ (dirOf k c.line).sharers, [], [], false⟩ } k

@[simp] theorem evictingAt_recallDir (h : Nat) (c : Coh) (k : Coherence) : evictingAt (recallDir h c k) c = evictingAt k c := by
  unfold recallDir; split
  · rfl
  · exact evictingAt_setDir _ _ _

/-- After a recall the line is in a transient state. -/
theorem recallDir_transient (h : Nat) (c : Coh) (k : Coherence) : (dirOf (recallDir h c k) c.line).txn.isSome = true := by
  unfold recallDir
  split
  case isTrue ht => exact ht
  case isFalse =>
    have hfound (d : DirLine) (hd : d.txn.isSome = true) (hl : d.line = c.line) : (dirOf (setDir d k) c.line).txn.isSome = true := by
      obtain ⟨t, ht⟩ := Option.isSome_iff_exists.mp hd
      rwa [← hl, dirOf_setDir_txn d t k ht]
    exact hfound _ rfl (dirOf_line k c.line)

section Crossing
variable {c : Coh} {s : State}

theorem execFwdgets_crossed (req : Nat) (ev : Bool) (ws : List (Word × Bool)) (hs : inService s c = true) (he : evictingAt s.coh c = true) :
    execFwdgets c req ev ws s = .next (wake c.line (crossedEvict (homeNo s c.line) c s)) := by
  obtain ⟨x, hx⟩ := exists_clusterLine_of_evictingAt he
  rw [execFwdgets, coherent_inService _ hs]
  simp [hx, inBuffer_of_evictingAt ev he]

theorem execFwdgetm_crossed (req : Nat) (ev : Bool) (ws : List (Word × Bool)) (hs : inService s c = true) (he : evictingAt s.coh c = true) :
    execFwdgetm c req ev ws s = .next (wake c.line (crossedEvict (homeNo s c.line) c s)) := by
  obtain ⟨x, hx⟩ := exists_clusterLine_of_evictingAt he
  rw [execFwdgetm, coherent_inService _ hs]
  simp [hx, inBuffer_of_evictingAt ev he]

theorem execInv_crossed (ev : Bool) (hs : inService s c = true) (he : evictingAt s.coh c = true) :
    execInv c ev s = .next (wake c.line (crossedEvict (homeNo s c.line) c s)) := by
  rw [execInv, coherent_inService _ hs, if_pos (inBuffer_of_evictingAt ev he)]

/-- A recall answers as the other snoops do, over the directory it leaves the line in. -/
theorem execRecall_crossed (ev : Bool) (ws : List (Word × Bool)) (hs : inService s c = true) (he : evictingAt s.coh c = true) :
    execRecall c ev ws s =
      .next (wake c.line (crossedEvict (homeNo s c.line) c (onCoh (recallDir (homeNo s c.line) c) s))) := by
  obtain ⟨x, hx⟩ := exists_clusterLine_of_evictingAt he
  have hbuf : inBuffer ev c (onCoh (recallDir (homeNo s c.line) c) s) = true := inBuffer_of_evictingAt ev (by simpa using he)
  rw [execRecall, coherent_inService _ hs]
  cases ht : (dirOf s.coh c.line).txn <;> simp_all [onCoh, recallDir]

end Crossing

end Sys2Proof.Machine
end

section
/-! SUPPORT. The statement on snoops that cross an eviction, settled. -/

namespace Sys2Proof.Proofs
open Sys2Proof.Machine

/-- Settles O58: each of the four snoops comes to the answer `Machine.crossedEvict`, a recall over `recallDir`, and a transient
line wakes nothing. -/
theorem crossedEvict : Obligations.CrossedEvict := by
  intro c req ev ws s hs he
  have hsnoops : ∀ m ∈ [exec (.fwdgets c req ev ws) s, exec (.fwdgetm c req ev ws) s, exec (.inv c ev) s],
      m = .next (wake c.line (Machine.crossedEvict (homeNo s c.line) c s)) := by
    simp [execFwdgets_crossed req ev ws hs he, execFwdgetm_crossed req ev ws hs he, execInv_crossed ev hs he]
  refine ⟨evictingAt_evictLine c s.coh he, hsnoops, ?_, fun t => wake_transient c.line t⟩
  intro k hk
  obtain rfl : k = recallDir (homeNo s c.line) c s.coh := hk
  refine ⟨execRecall_crossed ev ws hs he, evictingAt_evictLine c _ (by simpa using he), ?_⟩
  rw [dirOf_dir (evictLine_dir c _)]
  exact recallDir_transient _ c s.coh

end Sys2Proof.Proofs
end

section
/-! SUPPORT. The version a coordinator assigns (R68): its slot, its sequence, and what it exceeds. -/

namespace Sys2Proof.Machine

/-- The highest version of a key on record, 0 where there is no record. -/
def highestOnRecord (s : State) (ns : Nat) (key : Key) : Nat :=
  match recOf s ns key with
  | some r => r.greatest
  | none => 0

/-- The version floor of a key's home bin, 0 where none was ever raised (R344). -/
def homeFloor (s : State) (ns : Nat) (key : Key) : Nat := (aGet (homeBin s ns key) s.ice.floors).getD 0

theorem highestOnRecord_of_none {s : State} {ns : Nat} {key : Key} (h : recOf s ns key = none) : highestOnRecord s ns key = 0 := by
  simp [highestOnRecord, h]

theorem nextVersion_eq (s : State) (ns : Nat) (key : Key) :
    nextVersion s ns key = 4096 * (max (highestOnRecord s ns key / 4096) (homeFloor s ns key) + 1) + mySlot s := rfl

/-- Bits [11:0] carry the coordinator's slot. -/
theorem nextVersion_mod {s : State} (ns : Nat) (key : Key) (h : mySlot s < 4096) : nextVersion s ns key % 4096 = mySlot s := by
  rw [nextVersion_eq, Nat.mul_add_mod, Nat.mod_eq_of_lt h]

/-- The bits from 12 on carry the sequence. -/
theorem nextVersion_div {s : State} (ns : Nat) (key : Key) (h : mySlot s < 4096) :
    nextVersion s ns key / 4096 = max (highestOnRecord s ns key / 4096) (homeFloor s ns key) + 1 := by
  rw [nextVersion_eq, Nat.mul_add_div (by decide), Nat.div_eq_of_lt h, Nat.add_zero]

/-- The sequence alone lifts a new version above the highest on record, whatever the slots of the two. -/
theorem highestOnRecord_lt_nextVersion (s : State) (ns : Nat) (key : Key) : highestOnRecord s ns key < nextVersion s ns key := by
  have hseq : highestOnRecord s ns key / 4096 ≤ max (highestOnRecord s ns key / 4096) (homeFloor s ns key) := le_max_left _ _
  rw [nextVersion_eq]
  omega

/-- A key without a record, in a bin whose floor is 0, begins at sequence 1. -/
theorem nextVersion_div_of_first {s : State} {ns : Nat} {key : Key} (h : mySlot s < 4096) (hrec : recOf s ns key = none)
    (hfloor : homeFloor s ns key = 0) : nextVersion s ns key / 4096 = 1 := by
  simp [nextVersion_div ns key h, highestOnRecord_of_none hrec, hfloor]

/-- An assignment answers the key's next version. -/
@[simp] theorem assignVer_fst (b : FragB) (s : State) : (assignVer b s).1 = nextVersion s b.ns b.key := rfl

end Sys2Proof.Machine
end

section
/-! SUPPORT. The statement on new versions, settled. -/

namespace Sys2Proof.Proofs
open Sys2Proof.Machine

/-- Settles O55: the version is 4096 times its sequence plus a slot below 4096, so slot and sequence are read back from it, and
the sequence exceeds that of every version on record. -/
theorem versionsRise : Obligations.VersionsRise := by
  refine ⟨fun s ns key g f hslot hg hf => ?_, rfl, assignVer_fst⟩
  obtain rfl : g = highestOnRecord s ns key := hg
  obtain rfl : f = homeFloor s ns key := hf
  have hrise := highestOnRecord_lt_nextVersion s ns key
  exact ⟨nextVersion_mod ns key hslot, nextVersion_div ns key hslot, hrise, Nat.ne_zero_of_lt hrise,
    nextVersion_div_of_first hslot⟩

end Sys2Proof.Proofs
end

section
/-! SUPPORT. The two buckets of a key (R157): the hash's fields, where the buckets lie, and the way back to the primary one. -/

namespace Sys2Proof.Machine

/-! ### The fields of the hash -/

theorem fpOf_eq_extractLsb (h : Word) : fpOf h = (h.extractLsb 31 0).toNat := by
  simp [fpOf, BitVec.extractLsb_toNat]

/-- Bits [63:24] lose nothing at the top, so they are the quotient by 2^24. -/
theorem toNat_extractLsb_63_24 (h : Word) : (h.extractLsb 63 24).toNat = h.toNat / 2 ^ 24 := by
  have hlt : h.toNat / 2 ^ 24 < 2 ^ 40 := Nat.div_lt_of_lt_mul h.isLt
  rw [BitVec.extractLsb_toNat, Nat.shiftRight_eq_div_pow]
  exact Nat.mod_eq_of_lt hlt

theorem bucket1_eq_shiftRight (bk : Nat) (h : Word) : bucket1 bk h = ((h.extractLsb 63 24).toNat * bk) >>> 40 := by
  rw [toNat_extractLsb_63_24, Nat.shiftRight_eq_div_pow, bucket1]

/-! ### The buckets lie in the table -/

/-- The 40 bits of the hash are a fraction of the table below 1. -/
theorem bucket1_lt {bk : Nat} (h : Word) (hbk : 0 < bk) : bucket1 bk h < bk := by
  rw [bucket1_eq_shiftRight, Nat.shiftRight_eq_div_pow]
  exact Nat.div_lt_of_lt_mul (Nat.mul_lt_mul_of_pos_right (h.extractLsb 63 24).isLt hbk)

theorem altOf_lt {bk : Nat} (fp b : Nat) (hbk : 0 < bk) : altOf bk fp b < bk := Nat.mod_lt _ hbk

theorem bucketOff_pos (bk fp : Nat) : 0 < bucketOff bk fp := by
  rw [bucketOff]; omega

theorem bucketOff_lt {bk : Nat} (fp : Nat) (hbk : 2 ≤ bk) : bucketOff bk fp < bk := by
  have hmod : fp % (bk - 1) < bk - 1 := Nat.mod_lt _ (by omega)
  rw [bucketOff]; omega

/-- An offset of 1 to B − 1 never comes round to the bucket it starts from. -/
theorem altOf_ne {bk b : Nat} (fp : Nat) (hbk : 2 ≤ bk) (hb : b < bk) : altOf bk fp b ≠ b := by
  intro heq
  have hback : b + bucketOff bk fp ≡ b + 0 [MOD bk] := heq.trans (Nat.mod_eq_of_lt hb).symm
  have hzero : bucketOff bk fp = 0 := (Nat.ModEq.add_left_cancel' b hback).eq_of_lt_of_lt (bucketOff_lt fp hbk) (by omega)
  exact (bucketOff_pos bk fp).ne' hzero

/-! ### The way back -/

/-- Taking the offset off the alternate bucket gives the bucket it was added to. -/
theorem primOf_altOf {bk b : Nat} (fp : Nat) (hbk : 2 ≤ bk) (hb : b < bk) : primOf bk fp (altOf bk fp b) = b := by
  have hoff := bucketOff_lt fp hbk
  calc primOf bk fp (altOf bk fp b)
      = ((b + bucketOff bk fp) % bk + (bk - bucketOff bk fp)) % bk := by
        rw [primOf, Nat.mod_eq_of_lt hoff, Nat.add_sub_assoc hoff.le, altOf]
    _ = (b + bk) % bk := by
        rw [Nat.mod_add_mod, Nat.add_assoc, Nat.add_sub_cancel' hoff.le]
    _ = b := by
        rw [Nat.add_mod_right, Nat.mod_eq_of_lt hb]

theorem primaryOf_of_alt {e : KwEntry} (bk b : Nat) (halt : e.alt = true) : primaryOf bk e b = primOf bk e.fp b := if_pos halt

theorem primaryOf_of_not_alt {e : KwEntry} (bk b : Nat) (halt : e.alt = false) : primaryOf bk e b = b := by
  simp [primaryOf, halt]

end Sys2Proof.Machine
end

section
/-! SUPPORT. The statement on the buckets of a key, settled. -/

namespace Sys2Proof.Proofs
open Sys2Proof.Machine

/-- Settles O54: both buckets are reduced to the table's range, and the offset, which is 1 to B − 1, leads to another bucket and
taken off again leads back. -/
theorem bucketsOfAKey : Obligations.BucketsOfAKey := by
  intro bk h hbk
  have hpos : 0 < bk := by omega
  have hb1 : bucket1 bk h < bk := bucket1_lt h hpos
  refine ⟨fpOf_eq_extractLsb h, bucket1_eq_shiftRight bk h, rfl, rfl, hb1, altOf_lt _ _ hpos, altOf_ne _ hbk hb1, ?_, ?_⟩
  · intro e hfp halt
    rw [primaryOf_of_alt bk _ halt, hfp, primOf_altOf _ hbk hb1]
  · intro e _ halt
    exact primaryOf_of_not_alt bk _ halt

end Sys2Proof.Proofs
end

section
/-! SUPPORT. Which row wins a Ward search (R200), and what a search delivers (R201, R204, R210, R212, R215). -/

namespace Sys2Proof.Machine

/-! ### The order of the rows (R200) -/

/-- A matching row as `wardMatches` lists it (priority, global head entry number, action index) prevails over another, or is level
with it. -/
def Prevails (x y : Nat × Nat × Nat) : Prop := y.1 < x.1 ∨ (y.1 = x.1 ∧ x.2.1 ≤ y.2.1)

/-- Of two matching rows, the winner so far and the next listed, the one that `wardWinner` goes on with. -/
def prevailing (y x : Nat × Nat × Nat) : Nat × Nat × Nat := if y.1 < x.1 ∨ (y.1 = x.1 ∧ x.2.1 < y.2.1) then x else y

theorem Prevails.refl (x : Nat × Nat × Nat) : Prevails x x := Or.inr ⟨rfl, le_rfl⟩

theorem Prevails.trans {x y z : Nat × Nat × Nat} (hxy : Prevails x y) (hyz : Prevails y z) : Prevails x z := by
  unfold Prevails at *
  omega

theorem prevailing_eq_or (y x : Nat × Nat × Nat) : prevailing y x = y ∨ prevailing y x = x := (ite_eq_or_eq _ x y).symm

theorem prevailing_prevails_left (y x : Nat × Nat × Nat) : Prevails (prevailing y x) y := by
  unfold prevailing
  split
  case isTrue h => exact h.imp_right (And.imp_right Nat.le_of_lt)
  case isFalse => exact .refl y

theorem prevailing_prevails_right (y x : Nat × Nat × Nat) : Prevails (prevailing y x) x := by
  unfold prevailing
  split
  case isTrue => exact .refl x
  case isFalse h => unfold Prevails; omega

/-! ### The winner -/

@[simp] theorem wardWinner_nil : wardWinner [] = none := rfl

/-- A row listed last wins unless the winner of the rows before it prevails. -/
theorem wardWinner_concat (l : List (Nat × Nat × Nat)) (x : Nat × Nat × Nat) :
    wardWinner (l ++ [x]) = some ((wardWinner l).elim x (prevailing · x)) := by
  rw [wardWinner, List.foldl_concat, ← wardWinner]
  cases wardWinner l with
  | none => rfl
  | some y => exact (apply_ite some _ x y).symm

theorem wardWinner_eq_none_iff (l : List (Nat × Nat × Nat)) : wardWinner l = none ↔ l = [] := by
  induction l using List.reverseRecOn with
  | nil => simp
  | append_singleton l x _ => simp [wardWinner_concat]

/-- The winner is one of the rows. -/
theorem wardWinner_mem {l : List (Nat × Nat × Nat)} {w : Nat × Nat × Nat} (hw : wardWinner l = some w) : w ∈ l := by
  induction l using List.reverseRecOn generalizing w with
  | nil => cases hw
  | append_singleton l x ih =>
    rw [wardWinner_concat, Option.some.injEq] at hw
    cases hl : wardWinner l with
    | none => simp [← hw, hl]
    | some y =>
      obtain rfl : prevailing y x = w := by simpa [hl] using hw
      rcases prevailing_eq_or y x with h | h <;> simp [h, ih hl]

/-- The winner prevails over every row. -/
theorem wardWinner_prevails {l : List (Nat × Nat × Nat)} {w : Nat × Nat × Nat} (hw : wardWinner l = some w) : ∀ y ∈ l, Prevails w y := by
  induction l using List.reverseRecOn generalizing w with
  | nil => simp
  | append_singleton l x ih =>
    rw [wardWinner_concat, Option.some.injEq] at hw
    cases hl : wardWinner l with
    | none =>
      obtain rfl : l = [] := (wardWinner_eq_none_iff l).mp hl
      obtain rfl : x = w := hw
      simpa using Prevails.refl x
    | some y =>
      obtain rfl : prevailing y x = w := by simpa [hl] using hw
      intro z hz
      rcases List.mem_append.mp hz with hz | hz
      · exact (prevailing_prevails_left y x).trans (ih hl z hz)
      · obtain rfl := List.mem_singleton.mp hz
        exact prevailing_prevails_right y z

/-! ### Actions (R201) -/

@[simp] theorem actionOf_zero (s : State) : actionOf s 0 = none := if_pos rfl

@[simp] theorem applyAction_none (p : Policy) : applyAction p none = p := rfl

theorem applyAction_some (p : Policy) (x : WardAction) :
    applyAction p (some x) = { p with
      k := (x.km.map (·.1)).getD p.k, m := (x.km.map (·.2)).getD p.m, thr := x.thr.getD p.thr, ack := x.ack.getD p.ack
      qos := x.qos.getD p.qos } := rfl

/-! ### Noting a search leaves what decides it (R211) -/

@[simp] theorem noteSearch_rows (n : NsEntry) (s : State) : (noteSearch n s).ward.rows = s.ward.rows := rfl

@[simp] theorem noteSearch_shadow (n : NsEntry) (s : State) : (noteSearch n s).ward.shadow = s.ward.shadow := rfl

@[simp] theorem noteSearch_lostWords (n : NsEntry) (s : State) : (noteSearch n s).ward.lostWords = s.ward.lostWords := rfl

@[simp] theorem noteSearch_rebuilding (n : NsEntry) (s : State) : (noteSearch n s).ward.rebuilding = s.ward.rebuilding := rfl

@[simp] theorem wardOf_noteSearch (n : NsEntry) (s : State) : wardOf (noteSearch n s) = wardOf s := rfl

@[simp] theorem wardMatches_noteSearch (t : List (Nat × WardEntry)) (n n' : NsEntry) (cls : Nat) (key : Key) (s : State) :
    wardMatches t (noteSearch n' s) n cls key = wardMatches t s n cls key := rfl

@[simp] theorem actionOf_noteSearch (n : NsEntry) (s : State) (a : Nat) : actionOf (noteSearch n s) a = actionOf s a := rfl

/-! ### The firmware classifier (R210, R215) -/

theorem classifyShadow_of_no_match {s : State} {n : NsEntry} {cls : Nat} {key : Key} (h : wardMatches s.ward.shadow s n cls key = []) :
    classifyShadow s n cls key = none := by
  simp [classifyShadow, h]

theorem classifyShadow_of_winner {s : State} {n : NsEntry} {cls : Nat} {key : Key} {p g a : Nat}
    (hw : wardWinner (wardMatches s.ward.shadow s n cls key) = some (p, g, a)) : classifyShadow s n cls key = actionOf s a := by
  simp [classifyShadow, hw]

/-! ### One taking of a search (R205, R210, R212) -/

/-- Width of the group in which the row with head entry `g` lies. -/
def rowWidth (s : State) (g : Nat) : Nat := groupWidth (wardOf s) (groupHead (wardOf s) (g / 1024))

@[simp] theorem rowWidth_noteSearch (n : NsEntry) (s : State) (g : Nat) : rowWidth (noteSearch n s) g = rowWidth s g := rfl

theorem takeSearch_of_no_match (fuel : Nat) {n : NsEntry} {cls : Nat} {key : Key} {s : State}
    (h : wardMatches s.ward.rows s n cls key = []) : takeSearch (fuel + 1) n cls key s = (.action none, s) := by
  simp [takeSearch, h]

/-- A winner whose shadow row can be read and passes the result check is delivered at the first taking. -/
theorem takeSearch_of_winner (fuel : Nat) {n : NsEntry} {cls : Nat} {key : Key} {s : State} {p g a : Nat}
    (hw : wardWinner (wardMatches s.ward.rows s n cls key) = some (p, g, a))
    (hwords : ∀ e ∈ rowEntries (rowWidth s g) g, e ∉ s.ward.lostWords ∧ aGet e s.ward.rebuilding = none)
    (hcheck : rowMatches s.ward.shadow (rowWidth s g) g n.id cls key = true) :
    takeSearch (fuel + 1) n cls key s = (.action (actionOf s a), s) := by
  rw [rowWidth] at hwords hcheck
  simpa [takeSearch, hw, hcheck] using hwords

/-! ### A search (R204, R215) -/

theorem search_of_no_group {s : State} {n : NsEntry} (cls : Nat) (key : Key) (h : setHeads s n = []) :
    search n cls key s = (.action none, s) := by
  simp [search, h]

theorem search_of_unplaced {s : State} {n : NsEntry} (cls : Nat) (key : Key) (hset : setHeads s n ≠ [])
    (hfw : (setHeads s n).any s.ward.firmware.contains = true) :
    search n cls key s = (.action (classifyShadow s n cls key), s) := by
  rw [search, if_neg (by simpa using hset), if_pos hfw]

theorem search_of_placed {s : State} {n : NsEntry} (cls : Nat) (key : Key) (hset : setHeads s n ≠ [])
    (hfw : (setHeads s n).any s.ward.firmware.contains = false) :
    search n cls key s = takeSearch 4 n cls key (noteSearch n s) := by
  rw [search, if_neg (by simpa using hset), if_neg (by simp [hfw])]

end Sys2Proof.Machine
end

section
/-! SUPPORT. The statement on the winning row, settled. -/

namespace Sys2Proof.Proofs
open Sys2Proof.Machine

/-- Settles O56: `wardWinner` keeps a row that prevails over all before it, by induction on the rows in the order listed; a search
over placed groups comes to its first taking, in a state that decides as the one before it. -/
theorem wardPrecedence : Obligations.WardPrecedence := by
  refine ⟨fun l => ⟨wardWinner_eq_none_iff l, fun x hx => ⟨wardWinner_mem hx, wardWinner_prevails hx⟩⟩, fun s n cls key => ?_,
    fun p x => ⟨applyAction_none p, applyAction_some p x⟩⟩
  refine ⟨search_of_no_group cls key, search_of_unplaced cls key, ?noMatch, ?winner, classifyShadow_of_no_match,
    fun p g a => classifyShadow_of_winner, actionOf_zero s⟩
  case noMatch =>
    intro hset hfw hnone
    rw [search_of_placed cls key hset hfw, takeSearch_of_no_match 3 (by simpa using hnone)]
  case winner =>
    intro p g a l hset hfw hw hl hwords hcheck
    obtain rfl : l = rowWidth s g := hl
    rw [search_of_placed cls key hset hfw,
      takeSearch_of_winner 3 (p := p) (by simpa using hw) (by simpa using hwords) (by simpa using hcheck), actionOf_noteSearch]

end Sys2Proof.Proofs
end

section
/-! SUPPORT. The hold driver's timer and a fed edge of the beat: an equation for each of their cases (R406, R407). -/

namespace Sys2Proof.Machine

/-- A Status frame for a change of the hold state (R414) leaves the keeper as it is. -/
@[simp] theorem noteHold_keeper (old s : State) : (noteHold old s).keeper = s.keeper := by
  unfold noteHold
  split
  · rfl
  · exact sendStatus_keeper s

/-- The device with its hold driver at rest: nothing driven, no beat, and no service that went with the hold (R407). -/
def holdDriverOff (s : State) : State :=
  { s with
    keeper := { s.keeper with holdOut := false, drivers := false, terms := false, beatOut := .none }
    start := { s.start with service := false } }

theorem execHoldDriverTimer_of_recent_edge {s : State} (h : s.now < s.keeper.beatOutAt + 12000) : execHoldDriverTimer s = .next s := by
  have hnot : ¬ s.keeper.beatOutAt + 12000 ≤ s.now := by omega
  simp [execHoldDriverTimer, onlyIf, hnot]

theorem execHoldDriverTimer_of_nothing_driven {s : State} (hout : s.keeper.holdOut = false) (hdrv : s.keeper.drivers = false) :
    execHoldDriverTimer s = .next s := by
  simp [execHoldDriverTimer, onlyIf, hout, hdrv]

theorem execHoldDriverTimer_of_expired {s : State} (h : s.keeper.beatOutAt + 12000 ≤ s.now)
    (hon : s.keeper.holdOut = true ∨ s.keeper.drivers = true) : execHoldDriverTimer s = .next (noteHold s (holdDriverOff s)) :=
  onlyIf_true _ _ s (by simp [h, hon])

theorem execBeatEdge_of_fed {s : State} (hrun : running s = true) (hbeat : s.keeper.beatOut = .normal)
    (hdue : s.keeper.beatOutAt + 3960 ≤ s.now) (hfed : s.keeper.fed = true) :
    execBeatEdge s = .next { s with keeper := { s.keeper with fed := false, beatOutAt := s.now } } := by
  rw [execBeatEdge, onlyIf_true _ _ _ (by simp [hrun, hbeat, hdue]), if_pos hfed]

end Sys2Proof.Machine
end

section
/-! SUPPORT. The statement on the hold driver's timer, settled. -/

namespace Sys2Proof.Proofs
open Sys2Proof.Machine

/-- Settles O57: a fed edge notes its time, and the timer's effect is split on whether 12 µs have passed and whether anything is
driven; the Status frame that may follow leaves the keeper alone. -/
theorem holdDriverTimer : Obligations.HoldDriverTimer := by
  refine ⟨fun s => execBeatEdge_of_fed, fun s => execHoldDriverTimer_of_recent_edge, fun s hdue => ?_⟩
  by_cases hon : s.keeper.holdOut = true ∨ s.keeper.drivers = true
  · have hkeeper : (noteHold s (holdDriverOff s)).keeper = (holdDriverOff s).keeper := noteHold_keeper s (holdDriverOff s)
    refine ⟨noteHold s (holdDriverOff s), execHoldDriverTimer_of_expired hdue hon, ?_⟩
    rw [hkeeper]
    exact ⟨rfl, rfl, fun hout hdrv => by simp [hout, hdrv] at hon, fun _ => ⟨rfl, rfl, holdDriverOff s, rfl, rfl, rfl⟩⟩
  · obtain ⟨hout, hdrv⟩ : s.keeper.holdOut = false ∧ s.keeper.drivers = false := by simpa using hon
    exact ⟨s, execHoldDriverTimer_of_nothing_driven hout hdrv, hdrv, hout, fun _ _ => rfl, fun h => absurd h hon⟩

end Sys2Proof.Proofs
end

section
/-! SUPPORT. Commands of the firmware and of the links under a device whose cores do not run: their guards are false, so they leave
the state as it is (R467, R582, R624). -/

namespace Sys2Proof.Machine

theorem onlyIf_false (f : State → State) {b : Bool} {s : State} (h : b = false) : onlyIf b f s = .next s := by simp [onlyIf, h]

section
variable {s : State}

theorem takesFrames_of_not_running (h : running s = false) : takesFrames s = false := by simp [takesFrames, h]

theorem receives_of_not_running (h : running s = false) : receives s = false := by simp [receives, takesFrames_of_not_running h]

theorem applies_of_not_running (fseq : Nat) (h : running s = false) : applies fseq s = false := by simp [applies, h]

theorem firstStarting_of_not_running (h : running s = false) : firstStarting s = false := by simp [firstStarting, h]

theorem linkRuns_of_not_running (mac : Nat) (h : running s = false) (hrec : s.keeper.phase ≠ .recovery) : linkRuns s mac = false := by
  simp [linkRuns, h, hrec]

theorem macTakes_of_not_running (mac : Nat) (h : running s = false) (hrec : s.keeper.phase ≠ .recovery) : macTakes s mac = false := by
  simp [macTakes, linkRuns_of_not_running mac h hrec]

theorem gram_of_not_running (hd : Hdr) (b : Body) (f : State → State) (h : running s = false) : gram hd b f s = .next s :=
  onlyIf_false _ (receives_of_not_running h)

theorem onMirrored_of_not_running (fseq : Nat) (f : State → State) (h : running s = false) : onMirrored fseq f s = .next s :=
  onlyIf_false _ (applies_of_not_running fseq h)

theorem onCopied_of_not_running (fseq : Nat) (f : State → State) (h : running s = false) : onCopied fseq f s = .next s :=
  onlyIf_false _ (applies_of_not_running fseq h)

theorem execSettings_of_not_running (fseq : Nat) (fs : List Filter) (pstate : Nat) (feats : List (Nat × Nat × Nat)) (h : running s = false) :
    execSettings fseq fs pstate feats s = .next s := by
  rw [execSettings, if_neg (by simp [h]), onMirrored_of_not_running fseq _ h]

end

/-- Four shapes of guard: a datagram, a mirrored frame, a guard that names the cores at once, and one behind what the command finds. -/
theorem exec_of_needsCores {i : Instr} {s : State} (h : needsCores i = true) (hr : running s = false) : exec i s = .next s := by
  have hrecv : receives s = false := receives_of_not_running hr
  have htake : takesFrames s = false := takesFrames_of_not_running hr
  cases i <;> try (exact absurd h Bool.false_ne_true)
  case abortNotice | commitConfirm | commitIntent | commitNotice | commitRequest | durabilityReply | floorAck | floorNotice | fragment |
      fragmentAck | handoverRecord | holderReturn | intentAck | leaseRequest | listingGatherReply | listingGatherRequest | locate | locateReply |
      milmoDurabilityQuery | orphanNotice | permit | probe | probeAck | probeRequest | readData | readRequest | recordQuery | recordReply |
      repairOrder | statusQuery | updateConfirmed | updateOffer | updatePull | updateRefused | updateSegment | updateStaged | viewDigest =>
    exact gram_of_not_running _ _ _ hr
  case journal | corniceWrite | transport | operation | milmoState | handoff =>
    unfold exec
    exact onMirrored_of_not_running _ _ hr
  case corniceRelease | counters | flushProgress | copyFirn | copyCornice | copyGranule =>
    unfold exec
    exact onCopied_of_not_running _ _ hr
  case settings => exact execSettings_of_not_running _ _ _ _ hr
  case admissionTimeout | announcementRepeat | avsbusFailure | avsbusRetry | avsbusTransaction | beatEdge | calendarSlot | confirmationMonitor |
      connectionLost | counterSweep | deltaLogSegmentWrite | digestTimer | drbgReseed | entropyHealthFail | floorNoticeResend | gaugePeriodTimer |
      gaugeReading | healthReport | healthReportTimeout | healthReportTimer | hello | hingeTrainingComplete | holderReturnTimeout | joinRetry |
      joinStage | keeperFeed | keyEpochChange | knownAnswerTest | ledgerDeltaRunWrite | lendDeadline | linkLaneFail | linkRetrainRetry |
      lldpTransmit | localMediaFailureReport | maskReseed | milmoInvalidType | mirrorAck | nrefclkLoss | nvmeMiCommand | paceWindow | pauseFrame |
      permitTimer | pfcFrameReceive | placingReannounce | powerMeasurement | probeTimer | ptpSyncTimeout | readRequestTimeout | rebalance |
      repairRetry | shedRecord | standbyRoleRetake | status | takeoverTrigger | tokenRequest | tombstoneRelease | transportProgressTimer |
      trialConfirm | twinPresentPoll | unconfiguredRetry | versionRecordLapse | wardGroupRelocation | wardScrubPassDeadline | wardScrubTick |
      yieldCriterion =>
    unfold exec
    exact onlyIf_false _ (by simp [hr, hrecv, htake])
  case hingeInvalidFrame | wardShadowRebuilt | yield =>
    unfold exec
    simp only [execHingeInvalidFrame, execWardShadowRebuilt, execYield]
    exact onlyIf_false _ (by simp [hr])
  case abortNoticeResend | admissionExcessDeadline | bankEraseComplete | bankEraseDeadline | capExceededDeadline | commandRestartDeadline |
      commitRequestResend | confirmedTimer | connect | counterBit31 | d2DispatchTimeout | energyIntervalClose | fragmentResend | gaugeRetryTimer |
      gaugeTestComplete | gaugeTestDeadline | gaugeTestStart | handoverFinal | helloWaitTimeout | holdCollisionTimeout | holderStatusQuery |
      keepAliveTimeout | keeperReleaseRestart | keywayPendingWaitEnd | leaseExpiry | linkRetrainTimeout | listingGatherResend | lossTimeout |
      mirrorAckDeadline | paceDecision | paceDeficit | pfcXoffRefresh | powerStateAdopt | probeAckTimeout | probeRequestTimeout |
      purgePassComplete | readOnlyExit | receiveBufferStall | retransmissionTimeout | ringWrite | ringWriteComplete | ringWriteDeadline |
      rollbackFuseTimer | servingDeadline | shutdownDeadline | storeLevelTimeout | summaryRecordTimer | takeoverMonitor | thermalHandoverTimeout |
      tokenGrant | versionAbortTimer | yieldReturnTimeout =>
    unfold exec
    simp only [execAbortNoticeResend, execAdmissionExcessDeadline, execBankEraseComplete, execBankEraseDeadline, execCapExceededDeadline,
      execCommandRestartDeadline, execCommitRequestResend, execConfirmedTimer, execConnect, execCounterBit31, execD2DispatchTimeout,
      execEnergyIntervalClose, execFragmentResend, execGaugeRetryTimer, execGaugeTestComplete, execGaugeTestDeadline, execGaugeTestStart,
      execHandoverFinal, execHelloWaitTimeout, execHoldCollisionTimeout, execHolderStatusQuery, execKeepAliveTimeout, execKeeperReleaseRestart,
      execKeywayPendingWaitEnd, execLeaseExpiry, execLinkRetrainTimeout, execListingGatherResend, execLossTimeout, execMirrorAckDeadline,
      execPaceDecision, execPaceDeficit, execPfcXoffRefresh, execPowerStateAdopt, execProbeAckTimeout, execProbeRequestTimeout,
      execPurgePassComplete, execReadOnlyExit, execReceiveBufferStall, execRetransmissionTimeout, execRingWrite, execRingWriteComplete,
      execRingWriteDeadline, execRollbackFuseTimer, execServingDeadline, execShutdownDeadline, execStoreLevelTimeout, execSummaryRecordTimer,
      execTakeoverMonitor, execThermalHandoverTimeout, execTokenGrant, execVersionAbortTimer, execYieldReturnTimeout]
    split <;> simp [onlyIf, hr, hrecv, htake]

theorem exec_of_needsLink {i : Instr} {s : State} (h : needsLink i = true) (hr : running s = false) (hrec : s.keeper.phase ≠ .recovery) :
    exec i s = .next s := by
  have hruns (mac : Nat) : linkRuns s mac = false := linkRuns_of_not_running mac hr hrec
  have htakes (mac : Nat) : macTakes s mac = false := macTakes_of_not_running mac hr hrec
  cases i <;> try (exact absurd h Bool.false_ne_true)
  case frameReceive | linkDown | arpRequest | neighbourSolicitation =>
    unfold exec
    exact onlyIf_false _ (by simp [hruns, htakes])
  case linkUp | echoRequest =>
    unfold exec
    simp only [execLinkUp, execEchoRequest]
    split
    · exact onlyIf_false _ (by simp [hruns, htakes])
    · rfl

end Sys2Proof.Machine
end

section
/-! SUPPORT. Every command answers a next state: its meaning is guarded by `onlyIf`, or by what the command finds, and no branch of
either stops. -/

namespace Sys2Proof.Machine

theorem andSettle_answers {r : Result} (h : ∃ t, r = .next t) : ∃ t, andSettle r = .next t := by
  obtain ⟨t, rfl⟩ := h
  exact ⟨settle t, rfl⟩

theorem exec_answers (i : Instr) (s : State) : ∃ t, exec i s = .next t := by
  cases i
  case backgroundDeadline | backgroundLevelRise | bucketLeak | flashEraseComplete | flashProgramComplete | flashReadComplete | programUnitTimeout |
      readingLadderDeadline | retirementEntryExpiry | rewrite | selfTestComplete | selfTestDeadline | sweepVisit | coreLoadUncorrectable =>
    refine andSettle_answers ?_
    simp only [mediaBackgroundDeadline, mediaBackgroundLevelRise, memBucketLeak, mediaFlashEraseComplete, mediaFlashProgramComplete,
      mediaFlashReadComplete, mediaProgramUnitTimeout, mediaReadingLadderDeadline, memRetirementEntryExpiry, mediaRewrite, memSelfTestComplete,
      memSelfTestDeadline, mediaSweepVisit, memCoreLoadUncorrectable]
    repeat' split
    all_goals exact ⟨_, rfl⟩
  case abortNoticeResend | admissionExcessDeadline | bankCopyDeadline | bankEraseComplete | bankEraseDeadline | capExceededDeadline | chainGiveUp |
      commandRestartDeadline | commitRequestResend | confirmedTimer | connect | counterBit31 | d2DispatchTimeout | echoRequest |
      energyIntervalClose | fillDeadline | flushComplete | flushDeadline | fragmentResend | gaugeRetryTimer | gaugeTestComplete |
      gaugeTestDeadline | gaugeTestStart | handoverFinal | helloWaitTimeout | holdCollisionTimeout | holderStatusQuery | keepAliveTimeout |
      keeperReleaseRestart | keywayPendingWaitEnd | keywayReloadDeadline | leaseExpiry | linkRetrainTimeout | linkUp | listingGatherResend |
      lossTimeout | mirrorAckDeadline | offerTimer | paceDecision | paceDeficit | pfcXoffRefresh | powerStateAdopt | probeAckTimeout |
      probeRequestTimeout | purgePassComplete | readOnlyExit | receiveBufferStall | retransmissionTimeout | rimeEngineStall | rimeStringEnd |
      ringWrite | ringWriteComplete | ringWriteDeadline | rollbackFuseTimer | servingDeadline | settings | shutdownDeadline | storeLevelTimeout |
      summaryRecordTimer | takeoverMonitor | tftpData | thermalAction | thermalHandoverTimeout | thermalRestart | tokenGrant | versionAbortTimer |
      warmStart | yieldReturnTimeout =>
    unfold exec
    simp only [execAbortNoticeResend, execAdmissionExcessDeadline, execBankCopyDeadline, execBankEraseComplete, execBankEraseDeadline,
      execCapExceededDeadline, execChainGiveUp, execCommandRestartDeadline, execCommitRequestResend, execConfirmedTimer, execConnect,
      execCounterBit31, execD2DispatchTimeout, execEchoRequest, execEnergyIntervalClose, execFillDeadline, execFlushComplete, execFlushDeadline,
      execFragmentResend, execGaugeRetryTimer, execGaugeTestComplete, execGaugeTestDeadline, execGaugeTestStart, execHandoverFinal,
      execHelloWaitTimeout, execHoldCollisionTimeout, execHolderStatusQuery, execKeepAliveTimeout, execKeeperReleaseRestart,
      execKeywayPendingWaitEnd, execKeywayReloadDeadline, execLeaseExpiry, execLinkRetrainTimeout, execLinkUp, execListingGatherResend,
      execLossTimeout, execMirrorAckDeadline, execOfferTimer, execPaceDecision, execPaceDeficit, execPfcXoffRefresh, execPowerStateAdopt,
      execProbeAckTimeout, execProbeRequestTimeout, execPurgePassComplete, execReadOnlyExit, execReceiveBufferStall, execRetransmissionTimeout,
      execRimeEngineStall, execRimeStringEnd, execRingWrite, execRingWriteComplete, execRingWriteDeadline, execRollbackFuseTimer,
      execServingDeadline, execSettings, execShutdownDeadline, execStoreLevelTimeout, execSummaryRecordTimer, execTakeoverMonitor, execTftpData,
      execThermalAction, execThermalHandoverTimeout, execThermalRestart, execTokenGrant, execVersionAbortTimer, execWarmStart,
      execYieldReturnTimeout]
    split <;> exact ⟨_, rfl⟩
  case pfcPauseDeadline | txFrameAge | pullProgressTimeout =>
    unfold exec
    simp only [execPfcPauseDeadline, execTxFrameAge, execPullProgressTimeout]
    repeat' split
    all_goals exact ⟨_, rfl⟩
  all_goals exact ⟨_, rfl⟩

end Sys2Proof.Machine
end

section
/-! SUPPORT. Every command at once: which leave the levels of HOLD and the drivers alone, and that none breaks their invariant. -/

namespace Sys2Proof.Machine

theorem exec_sameWires (i : Instr) (s : State) (h : movesHold i = false) : SameWires s (exec i s) := by
  cases i <;> try (exact absurd h.symm Bool.false_ne_true)
  all_goals simp

theorem exec_keepsHeld (i : Instr) (s : State) : KeepsHeld s (exec i s) := by
  cases h : movesHold i with
  | false => exact keepsHeld_of_same (exec_sameWires i s h)
  | true =>
    cases i <;> try (exact absurd h Bool.false_ne_true)
    all_goals simp

theorem step_keepsHeld (s : State) : KeepsHeld s (step s) := by
  unfold step
  split
  · exact exec_keepsHeld _ _
  · rw [keepsHeld_next]
    exact tick_driversHeld s

end Sys2Proof.Machine
end

section
/-! SUPPORT. The statements on all commands at once, settled. -/

namespace Sys2Proof.Proofs
open Sys2Proof.Machine

/-- Settles O1: the front command is taken off the queue, and on an empty queue a step is the tick. -/
theorem stepRunsFront : Obligations.StepRunsFront :=
  ⟨fun _ _ _ => rfl, fun s h => by simp only [step, h]⟩

/-- Settles O2, by `exec_answers`. -/
theorem noCommandStops : Obligations.NoCommandStops := exec_answers

/-- Settles O3: the reset state's keeper and stores, evaluated. -/
theorem driversHeldAtReset : Obligations.DriversHeldAtReset := by
  refine ⟨fun h => absurd h ?_, rfl, rfl, rfl⟩
  exact Bool.false_ne_true

/-- Settles O4: each command keeps the drivers held (`exec_keepsHeld`), and so does the passing of time. -/
theorem driversHeldInvariant : Obligations.DriversHeldInvariant := fun s t hs ht => step_keepsHeld s t ht hs

/-- Settles O51, by the guard of each such command. -/
theorem idleUntilReleased : Obligations.IdleUntilReleased :=
  ⟨fun _ _ h hr => exec_of_needsCores h hr, fun _ _ h hr hrec => exec_of_needsLink h hr hrec⟩

/-- Settles O52: a command that moves none of the three levels keeps them together (`exec_sameWires`). -/
theorem holdFrame : Obligations.HoldFrame := by
  intro i s t h ht
  have hsame : kwires t.keeper = kwires s.keeper := exec_sameWires i s h t ht
  simp only [kwires, Prod.mk.injEq] at hsame
  exact hsame

end Sys2Proof.Proofs
end

section
/-! SUPPORT. The messages of the coherence protocol keep a directory in which no entry names both an owner and a sharer (R43, R46). -/

namespace Sys2Proof.Machine

theorem soleOwners_crossedEvict {s : State} (hs : SoleOwners s.coh) (h : Nat) (c : Coh) : SoleOwners (crossedEvict h c s).coh :=
  soleOwners_dir (evictLine_dir c s.coh) hs

section
variable {c : Coh} {s t : State} (hs : SoleOwners s.coh)
include hs

theorem soleOwners_execFwdgets {req : Nat} {ev : Bool} {ws : List (Word × Bool)} (ht : execFwdgets c req ev ws s = .next t) : SoleOwners t.coh := by
  refine soleOwners_coherent hs (fun h => ?_) ht
  split
  · exact hs
  · split
    · exact soleOwners_crossedEvict hs h c
    · exact soleOwners_dir rfl hs

theorem soleOwners_execFwdgetm {req : Nat} {ev : Bool} {ws : List (Word × Bool)} (ht : execFwdgetm c req ev ws s = .next t) : SoleOwners t.coh := by
  refine soleOwners_coherent hs (fun h => ?_) ht
  split
  · exact hs
  · split
    · exact soleOwners_crossedEvict hs h c
    · exact soleOwners_dir rfl hs

theorem soleOwners_execInv {ev : Bool} (ht : execInv c ev s = .next t) : SoleOwners t.coh := by
  refine soleOwners_coherent hs (fun h => ?_) ht
  split
  · exact soleOwners_crossedEvict hs h c
  · exact soleOwners_dir rfl hs

/-- A recall begins its transaction on an entry whose owner and sharers stand. -/
theorem soleOwners_execRecall {ev : Bool} {ws : List (Word × Bool)} (ht : execRecall c ev ws s = .next t) : SoleOwners t.coh := by
  refine soleOwners_coherent hs (fun h => ?_) ht
  split
  · exact hs
  · extract_lets d s1
    have hs1 : SoleOwners s1.coh := by
      simp only [s1]
      split
      · exact hs
      · exact soleOwners_setDir hs (soleOwners_dirOf hs c.line)
    split
    · exact soleOwners_crossedEvict hs1 h c
    · exact soleOwners_dir rfl hs1

theorem soleOwners_execCrossedevict (ht : execCrossedevict c s = .next t) : SoleOwners t.coh := by
  refine soleOwners_coherent hs (fun h => ?_) ht
  dsimp only
  split
  · split
    · split
      · exact soleOwners_answered hs h c.line c.cluster _ _
      · exact soleOwners_setDir hs (soleOwners_dirOf hs c.line)
    · exact hs
  · exact hs

theorem soleOwners_execInvack (ht : execInvack c s = .next t) : SoleOwners t.coh := by
  refine soleOwners_coherent hs (fun h => ?_) ht
  split
  · split
    · exact soleOwners_answered hs h c.line c.cluster _ none
    · exact hs
  · exact hs

theorem soleOwners_execData {toDir ex : Bool} {ws : List (Word × Bool)} (ht : execData c toDir ws ex s = .next t) : SoleOwners t.coh := by
  refine soleOwners_coherent hs (fun h => ?_) ht
  split
  · split
    · exact soleOwners_dataAtDir hs h c _ ws
    · split
      · exact soleOwners_dataAtRequester hs c _ ws ex
      · exact hs
  · exact hs

theorem soleOwners_execPutack (ht : execPutack c s = .next t) : SoleOwners t.coh := by
  refine soleOwners_coherent hs (fun h => ?_) ht
  split
  · exact soleOwners_dir rfl hs
  · exact hs

end

theorem soleOwners_exec {i : Instr} {s t : State} (hi : isCoherence i = true) (hs : SoleOwners s.coh) (ht : exec i s = .next t) :
    SoleOwners t.coh := by
  cases i <;> try (exact absurd hi Bool.false_ne_true)
  case gets | getm | upgrade | putm | pute | puts => exact soleOwners_coherent hs (fun h => soleOwners_request hs h _ _) ht
  case fwdgets => exact soleOwners_execFwdgets hs ht
  case fwdgetm => exact soleOwners_execFwdgetm hs ht
  case inv => exact soleOwners_execInv hs ht
  case crossedevict => exact soleOwners_execCrossedevict hs ht
  case data => exact soleOwners_execData hs ht
  case invack => exact soleOwners_execInvack hs ht
  case putack => exact soleOwners_execPutack hs ht
  -- RECALL is left; a keyword of Mathlib hides the name of its case
  exact soleOwners_execRecall hs ht

end Sys2Proof.Machine
end

section
/-! SUPPORT. The statement on the directory's owners, settled. -/

namespace Sys2Proof.Proofs
open Sys2Proof.Machine

/-- Settles O33: message by message (`soleOwners_exec`). -/
theorem directorySingleOwner : Obligations.DirectorySingleOwner := fun _ _ _ hi hs ht => soleOwners_exec hi hs ht

end Sys2Proof.Proofs
end

section
/-! SUPPORT. The recorder's numbers: what a write to the ring and an admission do to the buffer, the ring, the next number and the mark,
and that every operation of the recorder keeps them in order (R641 to R643, R655). -/

namespace Sys2Proof.Machine

theorem lt_raiseMark (mark n : Nat) : n < raiseMark mark n := by
  unfold raiseMark
  split <;> omega

@[simp] theorem writeOut_next (m : Moraine) (r : EvRec) : (writeOut m r).next = m.next := by unfold writeOut; split <;> rfl
@[simp] theorem writeOut_mark (m : Moraine) (r : EvRec) : (writeOut m r).mark = m.mark := by unfold writeOut; split <;> rfl
@[simp] theorem writeOut_buffer (m : Moraine) (r : EvRec) : (writeOut m r).buffer = m.buffer := by unfold writeOut; split <;> rfl

theorem mem_ringPut_self (ring : List EvRec) (r : EvRec) : r ∈ ringPut ring r := by simp [ringPut]

theorem mem_ringPut {ring : List EvRec} {r x : EvRec} (h : x ∈ ringPut ring r) : x ∈ ring ∨ x = r := by
  rcases List.mem_append.mp h with hx | hx
  · exact .inl (List.mem_filter.mp hx).1
  · exact .inr (List.mem_singleton.mp hx)

theorem exists_mem_writeOut_ring (m : Moraine) (r : EvRec) : ∃ x ∈ (writeOut m r).ring, x.seq = r.seq ∧ x.code = r.code := by
  unfold writeOut
  split
  · exact ⟨_, mem_ringPut_self _ _, rfl, rfl⟩
  · exact ⟨_, mem_ringPut_self _ _, rfl, rfl⟩

/-- A write brings no number to the ring but the record's own. -/
theorem mem_writeOut_ring {m : Moraine} {r x : EvRec} (h : x ∈ (writeOut m r).ring) : x ∈ m.ring ∨ x.seq = r.seq := by
  unfold writeOut at h
  split at h
  all_goals
    rcases mem_ringPut h with hx | hx
    · exact .inl hx
    · exact .inr (by rw [hx])

@[simp] theorem foldl_writeOut_next (l : List EvRec) (m : Moraine) : (l.foldl writeOut m).next = m.next := by
  induction l generalizing m with
  | nil => rfl
  | cons r l ih => simp [ih]

@[simp] theorem foldl_writeOut_mark (l : List EvRec) (m : Moraine) : (l.foldl writeOut m).mark = m.mark := by
  induction l generalizing m with
  | nil => rfl
  | cons r l ih => simp [ih]

theorem mem_foldl_writeOut_ring {l : List EvRec} {m : Moraine} {x : EvRec} (h : x ∈ (l.foldl writeOut m).ring) :
    x ∈ m.ring ∨ ∃ r ∈ l, x.seq = r.seq := by
  induction l generalizing m with
  | nil => exact .inl h
  | cons r l ih =>
    rcases ih h with hx | ⟨q, hq, hx⟩
    · rcases mem_writeOut_ring hx with hx | hx
      · exact .inl hx
      · exact .inr ⟨r, List.mem_cons_self, hx⟩
    · exact .inr ⟨q, List.mem_cons_of_mem r hq, hx⟩

theorem numbersOk_reset : NumbersOk Moraine.reset := by simp [NumbersOk, Moraine.reset]

/-! ### Admission -/

theorem admitRec_of_through {m : Moraine} (now : Nat) (r : EvRec) (h : m.through = true) :
    admitRec m now r =
      writeOut { m with next := m.next + 1, mark := raiseMark m.mark m.next, clean := true } { r with seq := m.next } := if_pos h

theorem admitRec_of_full {m : Moraine} (now : Nat) {r : EvRec} (h : m.through = false) (hfull : placesFor r.sev ≤ m.buffer.length) :
    admitRec m now r = loseRec m r := by
  rw [admitRec, if_neg (by simp [h]), if_pos hfull]

theorem admitRec_of_place {m : Moraine} (now : Nat) {r : EvRec} (h : m.through = false) (hplace : m.buffer.length < placesFor r.sev) :
    admitRec m now r =
      { m with
        next := m.next + 1
        mark := raiseMark m.mark m.next
        clean := false
        buffer := m.buffer ++ [{ r with seq := m.next }]
        waiting := some (m.waiting.getD now)
        trigger := if 4 ≤ r.sev then some (m.trigger.getD now) else m.trigger } := by
  rw [admitRec, if_neg (by simp [h]), if_neg (by omega)]

/-- A record that takes the next number goes to the end of the buffer or to the ring; both then hold numbers below the next only. -/
theorem numbersOk_admitRec {m : Moraine} (hm : NumbersOk m) (now : Nat) (r : EvRec) : NumbersOk (admitRec m now r) := by
  obtain ⟨hbuf, hbufNext, hringNext, hpos, hmark⟩ := hm
  have hraise : m.next < raiseMark m.mark m.next := lt_raiseMark m.mark m.next
  cases hthrough : m.through with
  | true =>
    rw [admitRec_of_through now r hthrough]
    refine ⟨by simpa using hbuf, fun x hx => ?_, fun x hx => ?_, by simp, by simpa using hraise⟩
    · have := hbufNext x (by simpa using hx)
      simp only [writeOut_next]
      omega
    · simp only [writeOut_next]
      rcases mem_writeOut_ring hx with hx | hx
      · have := hringNext x hx
        omega
      · simp only at hx
        omega
  | false =>
    rcases Nat.lt_or_ge m.buffer.length (placesFor r.sev) with hplace | hfull
    · rw [admitRec_of_place now hthrough hplace]
      refine ⟨?_, fun x hx => ?_, fun x hx => Nat.lt_succ_of_lt (hringNext x hx), by simp, hraise⟩
      · exact List.pairwise_append.mpr ⟨hbuf, List.pairwise_singleton _ _, fun x hx y hy => by
          rw [List.mem_singleton.mp hy]
          exact hbufNext x hx⟩
      · rcases List.mem_append.mp hx with hx | hx
        · exact Nat.lt_succ_of_lt (hbufNext x hx)
        · rw [List.mem_singleton.mp hx]
          exact Nat.lt_succ_self m.next
    · rw [admitRec_of_full now hthrough hfull]
      exact ⟨hbuf, hbufNext, hringNext, hpos, hmark⟩

theorem numbersOk_emitRec {m : Moraine} (hm : NumbersOk m) (now : Nat) (r : EvRec) : NumbersOk (emitRec m now r) := by
  refine numbersOk_admitRec ?_ now _
  exact hm

theorem numbersOk_occur1 {m : Moraine} (hm : NumbersOk m) (lim : Option LimRec) (now : Nat) (r : EvRec) : NumbersOk (occur1 lim m now r).1 := by
  unfold occur1
  split
  split
  · exact numbersOk_emitRec hm now r
  · dsimp only
    split
    · refine numbersOk_emitRec ?_ now r
      exact hm
    · exact hm

theorem numbersOk_highWater {m : Moraine} (hm : NumbersOk m) (lim : Option LimRec) (now : Nat) (ptp : Bool) :
    NumbersOk (highWater lim m now ptp) := by
  unfold highWater
  split
  · exact numbersOk_occur1 (m := { m with high := true }) hm lim now _
  · exact hm

theorem numbersOk_occur {m : Moraine} (hm : NumbersOk m) (lim : Option LimRec) (now : Nat) (r : EvRec) : NumbersOk (occur lim m now r).1 :=
  numbersOk_highWater (numbersOk_occur1 hm lim now r) lim now r.ptp

/-! ### Ring writes, the end of a run and the next start -/

/-- Part of the buffer goes to the ring and the rest stays: the numbers are those of the buffer and the ring before. -/
theorem numbersOk_foldl_writeOut {m : Moraine} (hm : NumbersOk m) (l : List EvRec) (hl : ∀ r ∈ l, r ∈ m.buffer) {b : List EvRec}
    (hb : b.Sublist m.buffer) : NumbersOk { l.foldl writeOut m with buffer := b } := by
  obtain ⟨hbuf, hbufNext, hringNext, hpos, hmark⟩ := hm
  refine ⟨hbuf.sublist hb, fun x hx => ?_, fun x hx => ?_, by simpa using hpos, by simpa using hmark⟩
  · simpa using hbufNext x (hb.subset hx)
  · simp only [foldl_writeOut_next]
    rcases mem_foldl_writeOut_ring hx with hx | ⟨r, hr, hx⟩
    · exact hringNext x hx
    · rw [hx]
      exact hbufNext r (hl r hr)

theorem numbersOk_endWrite {m : Moraine} (hm : NumbersOk m) (n : Nat) : NumbersOk (endWrite m n) := by
  have hw : NumbersOk { (m.buffer.take n).foldl writeOut m with buffer := m.buffer.drop n } :=
    numbersOk_foldl_writeOut hm _ (fun r hr => List.mem_of_mem_take hr) (List.drop_sublist n m.buffer)
  unfold endWrite
  dsimp only
  split
  · split
    · exact hw
    · exact hw
  · exact hw

theorem numbersOk_writeAll {m : Moraine} (hm : NumbersOk m) : NumbersOk (writeAll m) :=
  numbersOk_foldl_writeOut hm m.buffer (fun _ hr => hr) (List.nil_sublist _)

theorem numbersOk_endRun {m : Moraine} (hm : NumbersOk m) : NumbersOk (endRun m) := by
  obtain ⟨-, -, hringNext, hpos, hmark⟩ := hm
  exact ⟨List.Pairwise.nil, by simp [endRun], hringNext, hpos, hmark⟩

theorem startNumbers_of_unclean {m : Moraine} (h : m.clean = false) :
    startNumbers m = { m with next := m.mark, skipped := m.mark - (lastInRing m + 1) } := if_neg (by simp [h])

/-- A start that goes on at the mark: every number in use is below the next of before, and that is no greater than the mark. -/
theorem numbersOk_startNumbers {m : Moraine} (hm : NumbersOk m) (h : m.clean = false) : NumbersOk (startNumbers m) := by
  obtain ⟨hbuf, hbufNext, hringNext, hpos, hmark⟩ := hm
  rw [startNumbers_of_unclean h]
  exact ⟨hbuf, fun x hx => (hbufNext x hx).trans_le hmark, fun x hx => (hringNext x hx).trans_le hmark, hpos.trans hmark, le_rfl⟩

end Sys2Proof.Machine
end

section
/-! SUPPORT. The statement on the recorder's numbers, settled. -/

namespace Sys2Proof.Proofs
open Sys2Proof.Machine

/-- Settles O53: each operation keeps the numbers in order, and an admission is one of three: written through, with a place, without. -/
theorem recorderNumbers : Obligations.RecorderNumbers := by
  refine ⟨⟨numbersOk_reset, rfl⟩, fun m now r hm => ⟨numbersOk_admitRec hm now r, ?_, ?_, ?_⟩, fun lim m now r hm => numbersOk_occur hm lim now r,
    fun m n hm => ⟨numbersOk_endWrite hm n, numbersOk_writeAll hm, numbersOk_endRun hm, fun h => ⟨numbersOk_startNumbers hm h, ?_⟩⟩⟩
  · intro hthrough hplace
    rw [admitRec_of_place now hthrough hplace]
    exact ⟨rfl, rfl, lt_raiseMark m.mark m.next⟩
  · intro hthrough hfull
    rw [admitRec_of_full now hthrough hfull]
    exact ⟨rfl, rfl, rfl⟩
  · intro hthrough
    rw [admitRec_of_through now r hthrough]
    exact ⟨exists_mem_writeOut_ring _ _, by simp⟩
  · rw [startNumbers_of_unclean h]

end Sys2Proof.Proofs
end

section
/-! SUPPORT. Datagrams: one that is accepted takes its effect in the state in which it was accepted, one that is dropped ends its command in
the state in which it was dropped, which differs from the one before in the count of drops, the keys used and the recorder (R360). -/

namespace Sys2Proof.Machine

theorem onGram_of_accepted {h : Hdr} {b : Body} {s t u : State} (f : State → State) (ha : accept h (gramOf b) s = (some t, u)) :
    onGram h b f s = f t := by
  simp only [onGram, ha]

theorem onGram_of_dropped {h : Hdr} {b : Body} {s t : State} (f : State → State) (ha : accept h (gramOf b) s = (none, t)) :
    onGram h b f s = t := by
  simp only [onGram, ha]

theorem gram_of_accepted {h : Hdr} {b : Body} {s t u : State} (f : State → State) (hr : receives s = true)
    (ha : accept h (gramOf b) s = (some t, u)) : gram h b f s = .next (settle (f t)) := by
  rw [gram, onlyIf_true _ _ _ hr, onGram_of_accepted _ ha]

theorem gram_of_dropped {h : Hdr} {b : Body} {s t : State} (f : State → State) (hr : receives s = true)
    (ha : accept h (gramOf b) s = (none, t)) : gram h b f s = .next t := by
  rw [gram, onlyIf_true _ _ _ hr, onGram_of_dropped _ ha]

theorem execViewSync_of_accepted {h : Hdr} {us : List MUpdate} {s t u : State} (hh : hears s = true)
    (ha : accept h (gramOf (.viewSync us)) s = (some t, u)) : execViewSync h us s = .next (settle (onViewSync h.slot us t)) := by
  rw [execViewSync, onlyIf_true _ _ _ hh, onGram_of_accepted _ ha]

theorem execViewSync_of_dropped {h : Hdr} {us : List MUpdate} {s t : State} (hh : hears s = true)
    (ha : accept h (gramOf (.viewSync us)) s = (none, t)) : execViewSync h us s = .next t := by
  rw [execViewSync, onlyIf_true _ _ _ hh, onGram_of_dropped _ ha]

/-- Every datagram of Table 8.5 but VIEW_SYNC is handled by `gram`, under its header and its body. -/
theorem exec_eq_gram {i : Instr} {h : Hdr} {b : Body} (hi : gramRule i = some (h, b)) : ∃ f, ∀ s, exec i s = gram h b f s := by
  cases i <;> try (exact absurd hi.symm (Option.some_ne_none _))
  all_goals
    simp only [gramRule, Option.some.injEq, Prod.mk.injEq] at hi
    obtain ⟨rfl, rfl⟩ := hi
    exact ⟨_, fun _ => rfl⟩

/-- What a dropped datagram leaves behind: the drop counted on a state whose keys may have been used, and a record at most. -/
theorem accept_of_dropped {h : Hdr} {g : Nat × List Byte} {s t : State} (ha : accept h g s = (none, t)) :
    ∃ (n : Nat) (u : State), (u = s ∨ ∃ k, u = useKey k s) ∧ (t = dropGram n u ∨ ∃ code p d, t = record code p d (dropGram n u)) := by
  unfold accept acceptBy at ha
  split at ha
  case h_1 n hn =>
    simp only [Prod.mk.injEq, true_and] at ha
    generalize hv : ite (n = 4 ∨ n = 5) (useKey _ s) s = v at ha
    have hu : v = s ∨ ∃ k, v = useKey k s := by
      rw [← hv]
      split
      · exact .inr ⟨_, rfl⟩
      · exact .inl rfl
    refine ⟨n, v, hu, ?_⟩
    rw [← ha]
    split
    · exact .inr ⟨_, _, _, rfl⟩
    · split
      · exact .inr ⟨_, _, _, rfl⟩
      · exact .inl rfl
  case h_2 => simp at ha

end Sys2Proof.Machine
end

section
/-! SUPPORT. The statement on datagrams that are not accepted, settled. -/

namespace Sys2Proof.Proofs
open Sys2Proof.Machine

/-- Settles O37: a drop counts, uses a key and records (`accept_of_dropped`), and each datagram's command ends there (`exec_eq_gram`). -/
theorem droppedDatagrams : Obligations.DroppedDatagrams := by
  refine ⟨fun h g s t ha => ?_, fun i h b s t hi hr ha => ?_, fun h us s t hh ha => execViewSync_of_dropped hh ha,
    fun h body s t hr => ⟨fun hty => ?_, fun hty ha => ?_⟩⟩
  · obtain ⟨n, u, hu, ht⟩ := accept_of_dropped ha
    have hdrop : (dropGram n u).kw = s.kw ∧ (dropGram n u).media = s.media ∧ (dropGram n u).ice = { s.ice with drops := (dropGram n u).ice.drops } ∧
        (dropGram n u).keeper = s.keeper ∧ (dropGram n u).boot = s.boot := by
      rcases hu with rfl | ⟨k, rfl⟩ <;> simp [dropGram]
    obtain ⟨hkw, hmedia, hice, hkeeper, hboot⟩ := hdrop
    rcases ht with rfl | ⟨code, p, d, rfl⟩
    · rw [hice]
      exact ⟨hkw, hmedia, rfl, rfl, rfl, rfl, rfl, rfl, hkeeper, hboot⟩
    · simp only [record_kw, record_media, record_ice, record_keeper, record_boot]
      rw [hice]
      exact ⟨hkw, hmedia, rfl, rfl, rfl, rfl, rfl, rfl, hkeeper, hboot⟩
  · obtain ⟨f, hf⟩ := exec_eq_gram hi
    rw [hf, gram_of_dropped f hr ha]
  · rw [exec_milmoInvalidType, execMilmoInvalidType, onlyIf_true _ _ _ hr, if_pos (by simpa using hty)]
  · rw [exec_milmoInvalidType, execMilmoInvalidType, onlyIf_true _ _ _ hr, if_neg (by simpa using hty), ha]

end Sys2Proof.Proofs
end

section
/-! SUPPORT. The I/O commands: how one is taken, and the four ways it goes on, to begin, to fail at a row of Table 3.7, to wait for its
search, or to end without its namespace's salt (R65, R103, R111, R212, R503). -/

namespace Sys2Proof.Machine

/-- An I/O command as its capsule gives it, after what a fused pair makes of it (R123, R133). -/
def ioCmd (r : CmdRule) (q : Sqe) (second : Bool) (s : State) : Cmd :=
  { q := q, key := if r.opc = 0x8A then [] else (fuse q second s).2.1.getD [], fused := (fuse q second s).2.2, pol := none
    filter := namedFilter r.opc q (fuse q second s).1 }

/-- The state in which its capsule is taken (R103). -/
def ioState (r : CmdRule) (q : Sqe) (second compact : Bool) (s : State) : State :=
  takeCapsule { opc := r.opc, q := q, key := (ioCmd r q second s).key, filter := (ioCmd r q second s).filter } compact (fuse q second s).1

/-- The command classified: itself, unless its search waits, and the state it is classified in. -/
def ioClassified (r : CmdRule) (q : Sqe) (second compact : Bool) (s : State) : Option Cmd × State :=
  classifyCmd r.opc (ioCmd r q second s) (ioState r q second compact s)

section
variable {r : CmdRule} {q : Sqe} {second compact : Bool} {c : Cmd} {s u : State} {st : Status}

theorem ioCommand_of_shutdown (h : inShutdown s = true) : ioCommand r q second compact s = answer q stNotReady 0 0 s := if_pos h

theorem ioCommand_eq_runIo (h : inShutdown s = false) :
    ioCommand r q second compact s = runIo r (ioCmd r q second s) (ioState r q second compact s) := by
  rw [ioCommand, if_neg (by simp [h])]
  rfl

theorem taken_eq_some (h : taken r q second compact s = some (c, u)) :
    ioAccepts q s = true ∧ inShutdown s = false ∧ ioClassified r q second compact s = (some c, u) := by
  unfold taken at h
  split at h
  case isTrue hacc =>
    simp only [Bool.and_eq_true, Bool.not_eq_true'] at hacc
    simp only [Option.map_eq_some_iff, Prod.mk.injEq] at h
    obtain ⟨c', hc, rfl, rfl⟩ := h
    exact ⟨hacc.1, hacc.2, Prod.ext hc rfl⟩
  case isFalse => cases h

theorem searchWaits_eq_some (h : searchWaits r q second compact s = some (c, u)) :
    ioAccepts q s = true ∧ inShutdown s = false ∧ c = ioCmd r q second s ∧ ioClassified r q second compact s = (none, u) := by
  have hdef : searchWaits r q second compact s = if ioAccepts q s && ! inShutdown s then
      (if (ioClassified r q second compact s).1.isNone then some (ioCmd r q second s, (ioClassified r q second compact s).2) else none)
    else none := rfl
  rw [hdef] at h
  split at h
  case isTrue hacc =>
    simp only [Bool.and_eq_true, Bool.not_eq_true'] at hacc
    split at h
    case isTrue hnone =>
      simp only [Option.some.injEq, Prod.mk.injEq] at h
      obtain ⟨rfl, rfl⟩ := h
      exact ⟨hacc.1, hacc.2, rfl, Prod.ext (Option.isNone_iff_eq_none.mp hnone) rfl⟩
    case isFalse => cases h
  case isFalse => cases h

theorem failsAt_eq_some (h : failsAt r q second compact s = some (c, u, st)) :
    taken r q second compact s = some (c, u) ∧ firstFail (r.fails c u) = some st := by
  simp only [failsAt, Option.bind_eq_some_iff, Option.map_eq_some_iff, Prod.mk.injEq] at h
  obtain ⟨⟨c', u'⟩, htaken, st', hfail, rfl, rfl, rfl⟩ := h
  exact ⟨htaken, hfail⟩

theorem begins_eq_some (h : begins r q second compact s = some (c, u)) :
    ∃ t, taken r q second compact s = some (c, t) ∧ firstFail (r.fails c t) = none ∧ withSalt c.q.nsid t = some u := by
  simp only [begins, Option.bind_eq_some_iff] at h
  obtain ⟨⟨c', t⟩, htaken, hsalt⟩ := h
  split at hsalt
  · cases hsalt
  case isFalse hfail =>
    simp only [Option.map_eq_some_iff, Prod.mk.injEq] at hsalt
    obtain ⟨u', hu, rfl, rfl⟩ := hsalt
    exact ⟨t, htaken, by simpa using hfail, hu⟩

/-! ### An exec of its rule -/

/-- Each of the fifteen I/O commands runs by its rule. -/
theorem exec_eq_io {i : Instr} (hi : ioRule i = some (r, q, second, compact)) : exec i s = io q (ioCommand r q second compact) s := by
  cases i <;> try (exact absurd hi.symm (Option.some_ne_none _))
  all_goals
    simp only [ioRule, Option.some.injEq, Prod.mk.injEq] at hi
    obtain ⟨rfl, rfl, rfl, rfl⟩ := hi
    rfl

variable {i : Instr} (hi : ioRule i = some (r, q, second, compact))
include hi

theorem exec_of_ioAccepts (hacc : ioAccepts q s = true) : exec i s = .next (settle (ioCommand r q second compact s)) := by
  rw [exec_eq_io hi, io, onlyIf_true _ _ _ hacc]

theorem exec_of_inShutdown (hacc : ioAccepts q s = true) (hshut : inShutdown s = true) : exec i s = .next (settle (answer q stNotReady 0 0 s)) := by
  rw [exec_of_ioAccepts hi hacc, ioCommand_of_shutdown hshut]

/-- A command that is classified goes on to its failing rows, and past them to its salt. -/
theorem exec_of_taken (h : taken r q second compact s = some (c, u)) :
    exec i s = .next (settle (match firstFail (r.fails c u) with
      | some st => countEnded r.opc (answer c.q st (failDwords c.q c.key st u).1 (failDwords c.q c.key st u).2 u)
      | none => match withSalt c.q.nsid u with
        | some t => r.begin_ c t
        | none => answer c.q stInternal 0 0 u)) := by
  obtain ⟨hacc, hshut, hcls⟩ := taken_eq_some h
  rw [exec_of_ioAccepts hi hacc, ioCommand_eq_runIo hshut]
  unfold ioClassified at hcls
  simp only [runIo, hcls] <;> rfl

theorem exec_of_failsAt (h : failsAt r q second compact s = some (c, u, st)) :
    exec i s = .next (settle (countEnded r.opc (answer c.q st (failDwords c.q c.key st u).1 (failDwords c.q c.key st u).2 u))) := by
  obtain ⟨htaken, hfail⟩ := failsAt_eq_some h
  rw [exec_of_taken hi htaken, hfail]

theorem exec_of_unsalted (h : taken r q second compact s = some (c, u)) (hfail : firstFail (r.fails c u) = none)
    (hsalt : withSalt c.q.nsid u = none) : exec i s = .next (settle (answer c.q stInternal 0 0 u)) := by
  rw [exec_of_taken hi h, hfail]
  dsimp only
  rw [hsalt]

theorem exec_of_begins (h : begins r q second compact s = some (c, u)) : exec i s = .next (settle (r.begin_ c u)) := by
  obtain ⟨t, htaken, hfail, hsalt⟩ := begins_eq_some h
  rw [exec_of_taken hi htaken, hfail]
  dsimp only
  rw [hsalt]

theorem exec_of_searchWaits (h : searchWaits r q second compact s = some (c, u)) :
    exec i s = .next (settle { u with ward := { u.ward with
      waits := u.ward.waits ++ [{ opc := r.opc, q := c.q, key := c.key, filter := c.filter }] } }) := by
  obtain ⟨hacc, hshut, rfl, hcls⟩ := searchWaits_eq_some h
  rw [exec_of_ioAccepts hi hacc, ioCommand_eq_runIo hshut]
  unfold ioClassified at hcls
  simp only [runIo, hcls]

end

end Sys2Proof.Machine
end

section
/-! SUPPORT. The statements on I/O commands, settled. -/

namespace Sys2Proof.Proofs
open Sys2Proof.Machine

/-- Settles O21: the four ways an I/O command does not begin, each by its lemma over `ioRule`. -/
theorem failingCommandsAnswer : Obligations.FailingCommandsAnswer :=
  ⟨fun _ _ _ _ _ _ _ _ _ hi h => exec_of_failsAt hi h, fun _ _ _ _ _ _ _ _ hi h => exec_of_searchWaits hi h,
    fun _ _ _ _ _ _ _ _ hi h hfail hsalt => exec_of_unsalted hi h hfail hsalt, fun _ _ _ _ _ _ hi hacc hshut => exec_of_inShutdown hi hacc hshut⟩

/-- Settles O19: each command's rule says how it begins (`exec_of_begins`). -/
theorem changingCommandsBegin : Obligations.ChangingCommandsBegin :=
  ⟨fun q _ _ _ h => (exec_of_begins (i := .flush q) rfl h :), fun q n data _ _ _ h => (exec_of_begins (i := .store q n data) rfl h :),
    fun q _ _ _ h => (exec_of_begins (i := .delete q) rfl h :), fun q n data _ _ _ h => (exec_of_begins (i := .longStore q n data) rfl h :),
    fun q _ _ _ h => (exec_of_begins (i := .longDelete q) rfl h :), fun q block _ _ _ h => (exec_of_begins (i := .keyCarrier ⟨q, block⟩) rfl h :),
    fun q off len _ _ _ h => (exec_of_begins (i := .shed q off len) rfl h :)⟩

/-- Settles O20: each command's rule says how it begins (`exec_of_begins`). -/
theorem readingCommandsBegin : Obligations.ReadingCommandsBegin :=
  ⟨fun q _ _ _ h => (exec_of_begins (i := .retrieve q) rfl h :), fun q _ _ _ h => (exec_of_begins (i := .list q) rfl h :),
    fun q _ _ _ h => (exec_of_begins (i := .exist q) rfl h :), fun q _ _ _ h => (exec_of_begins (i := .longRetrieve q) rfl h :),
    fun q _ _ _ h => (exec_of_begins (i := .longExist q) rfl h :), fun q _ _ _ h => (exec_of_begins (i := .filteredRetrieve q) rfl h :),
    fun q cursor _ _ _ h => (exec_of_begins (i := .patternList q cursor) rfl h :),
    fun q _ _ _ h => (exec_of_begins (i := .durabilityQuery q) rfl h :)⟩

end Sys2Proof.Proofs
end

section
/-! SUPPORT. The statements on the icefield's datagrams and timers, settled. -/

namespace Sys2Proof.Proofs
open Sys2Proof.Machine

/-- Settles O39: each datagram is handled by `gram`, in the state in which it was accepted. -/
theorem storeDatagrams : Obligations.StoreDatagrams := by
  refine ⟨?_, ?_, ?_, ?_, ?_, ?_, ?_, ?_, ?_⟩
  · intro h b s t u hrecv hacc
    rw [exec_fragment, execFragment, gram_of_accepted _ hrecv hacc]
  · intro h b s t u hrecv hacc
    rw [exec_fragmentAck, execFragmentAck, gram_of_accepted _ hrecv hacc]
  · intro h b s t u hrecv hacc
    rw [exec_commitRequest, execCommitRequest, gram_of_accepted _ hrecv hacc]
  · intro h b s t u hrecv hacc
    rw [exec_commitIntent, execCommitIntent, gram_of_accepted _ hrecv hacc]
  · intro h b s t u hrecv hacc
    rw [exec_intentAck, execIntentAck, gram_of_accepted _ hrecv hacc]
  · intro h b s t u hrecv hacc
    rw [exec_commitConfirm, execCommitConfirm, gram_of_accepted _ hrecv hacc]
  · intro h b s t u hrecv hacc
    rw [exec_commitNotice, execCommitNotice, gram_of_accepted _ hrecv hacc]
  · intro h b s t u hrecv hacc
    rw [exec_abortNotice, execAbortNotice, gram_of_accepted _ hrecv hacc]
  · intro h b s t u hrecv hacc
    rw [exec_statusQuery, execStatusQuery, gram_of_accepted _ hrecv hacc]

/-- Settles O41: the datagrams by `gram`, a silent piece and a late gather by their guards. -/
theorem readsAndListings : Obligations.ReadsAndListings := by
  refine ⟨?_, ?_, ?_, ?_, ?_, ?_, ?_, ?_, ?_, ?_⟩
  · intro h b s t u hrecv hacc
    rw [exec_locate, execLocate, gram_of_accepted _ hrecv hacc]
  · intro h res hint rs s t u hrecv hacc
    rw [exec_locateReply, execLocateReply, gram_of_accepted _ hrecv hacc]
  · intro h b s t u hrecv hacc
    rw [exec_readRequest, execReadRequest, gram_of_accepted _ hrecv hacc]
  · intro h b s t u hrecv hacc
    rw [exec_readData, execReadData, gram_of_accepted _ hrecv hacc]
  · intro h b s t u hrecv hacc
    rw [exec_milmoDurabilityQuery, execMilmoDurabilityQuery, gram_of_accepted _ hrecv hacc]
  · intro h res hint r s t u hrecv hacc
    rw [exec_durabilityReply, execDurabilityReply, gram_of_accepted _ hrecv hacc]
  · intro h b s t u hrecv hacc
    rw [exec_listingGatherRequest, execListingGatherRequest, gram_of_accepted _ hrecv hacc]
  · intro h b s t u hrecv hacc
    rw [exec_listingGatherReply, execListingGatherReply, gram_of_accepted _ hrecv hacc]
  · intro id n p s hrecv hsilentPiece
    rw [exec_readRequestTimeout, execReadRequestTimeout, onlyIf_true _ _ _ (by simp [hrecv, hsilentPiece])]
  · rintro id slot g c s hgatherDue hrecv rfl
    simp only [exec_listingGatherResend, execListingGatherResend, hgatherDue]
    rw [onlyIf_true _ _ _ hrecv]

/-- Settles O42: each datagram is handled by `gram`, a local failure under its guard. -/
theorem successionDatagrams : Obligations.SuccessionDatagrams := by
  refine ⟨?_, ?_, ?_, ?_, ?_, ?_, ?_, ?_, ?_⟩
  · intro h b s t u hrecv hacc
    rw [exec_recordQuery, execRecordQuery, gram_of_accepted _ hrecv hacc]
  · intro h rs floor s t u hrecv hacc
    rw [exec_recordReply, execRecordReply, gram_of_accepted _ hrecv hacc]
  · intro h bin floor s t u hrecv hacc
    rw [exec_floorNotice, execFloorNotice, gram_of_accepted _ hrecv hacc]
  · intro h bin floor s t u hrecv hacc
    rw [exec_floorAck, execFloorAck, gram_of_accepted _ hrecv hacc]
  · intro h b s t u hrecv hacc
    rw [exec_orphanNotice, execOrphanNotice, gram_of_accepted _ hrecv hacc]
  · intro h b floor s t u hrecv hacc
    rw [exec_handoverRecord, execHandoverRecord, gram_of_accepted _ hrecv hacc]
  · intro h b keep s t u hrecv hacc
    rw [exec_holderReturn, execHolderReturn, gram_of_accepted _ hrecv hacc]
  · intro h b pos s t u hrecv hacc
    rw [exec_repairOrder, execRepairOrder, gram_of_accepted _ hrecv hacc]
  · intro slot pos b s hrecv hrosterEntry
    rw [exec_localMediaFailureReport, execLocalMediaFailureReport, onlyIf_true _ _ _ (by simp [hrecv, hrosterEntry])]

/-- Settles O40: each timer finds its Store, version or item, and its guard holds. -/
theorem storeTimers : Obligations.StoreTimers := by
  refine ⟨?_, ?_, ?_, ?_, ?_, ?_, ?_, ?_⟩
  · intro id n e x s hlateChunk hrecv
    simp only [exec_d2DispatchTimeout, execD2DispatchTimeout, hlateChunk]
    rw [onlyIf_true _ _ _ hrecv]
  · rintro id n p e y s t u hsilentPos hrecv rfl rfl
    simp only [exec_fragmentResend, execFragmentResend, hsilentPos]
    rw [onlyIf_true _ _ _ hrecv]
    simp only [Bool.not_eq_true']
  · intro ns version key r v s hverAt hrecv hst hdue
    simp only [exec_versionAbortTimer, execVersionAbortTimer, hverAt]
    rw [onlyIf_true _ _ _ (by simp [hrecv, hst, hdue, secNs])]
  · intro ns version key r v s hverAt hrecv hst hunacked hdue
    simp only [exec_abortNoticeResend, execAbortNoticeResend, hverAt]
    rw [onlyIf_true _ _ _ (by simp [hrecv, hst, hunacked, hdue, resendNs])]
  · intro id e s hstoreBy hrecv hstage hversion hdue
    simp only [exec_storeLevelTimeout, execStoreLevelTimeout, hstoreBy]
    rw [onlyIf_true _ _ _ (by simp [hrecv, hstage, hversion, hdue, secNs])]
  · rintro id c e s hstoreBy hrecv hstage hdue rfl
    simp only [exec_commitRequestResend, execCommitRequestResend, hstoreBy]
    rw [onlyIf_true _ _ _ (by simp [hrecv, hstage, hdue, resendNs])]
  · intro id n i s hunsettled hrecv hdue hdue2
    simp only [exec_holderStatusQuery, execHolderStatusQuery, hunsettled]
    rw [onlyIf_true _ _ _ (by simp [hrecv, hdue, hdue2])]
  · intro ns chunk key w s hmayProceed hrecv
    simp only [exec_keywayPendingWaitEnd, execKeywayPendingWaitEnd, hmayProceed]
    rw [onlyIf_true _ _ _ hrecv]

/-- Settles O43: each timer under its guard, the two datagrams by `gram`. -/
theorem repairHandoverAndLeases : Obligations.RepairHandoverAndLeases := by
  refine ⟨?_, ?_, ?_, ?_, ?_, ?_, ?_, ?_, ?_, ?_⟩
  · intro bin s hrecv hraisesDue
    rw [exec_floorNoticeResend, execFloorNoticeResend, onlyIf_true _ _ _ (by simp [hrecv, hraisesDue])]
  · rintro bin x s a hfinalDue hrecv rfl
    simp only [exec_handoverFinal, execHandoverFinal, hfinalDue]
    rw [onlyIf_true _ _ _ hrecv]
  · intro ns key s hrecv hknownNs hreturnOver
    rw [exec_holderReturnTimeout, execHolderReturnTimeout, onlyIf_true _ _ _ (by simp [hrecv, hknownNs, hreturnOver])]
  · intro ns key s hrecv hclassGranted hrepairsDue
    rw [exec_repairRetry, execRepairRetry, onlyIf_true _ _ _ (by simp [hrecv, hclassGranted, hrepairsDue])]
  · intro slot s hrecv hclassGranted hplacingSet
    rw [exec_rebalance, execRebalance, onlyIf_true _ _ _ (by simpa [hrecv, hclassGranted] using hplacingSet)]
  · intro h b s t u hrecv hacc
    rw [exec_leaseRequest, execLeaseRequest, gram_of_accepted _ hrecv hacc]
  · intro h b s t u hrecv hacc
    rw [exec_permit, execPermit, gram_of_accepted _ hrecv hacc]
  · rintro s u hrecv hdue rfl
    rw [exec_permitTimer, execPermitTimer, onlyIf_true _ _ _ (by simp [hrecv, hdue])]
  · intro id l s hfind hrecv
    simp only [exec_leaseExpiry, execLeaseExpiry, hfind]
    rw [onlyIf_true _ _ _ hrecv]
  · rintro s t hrecv hcalendarOn hlocked rfl
    rw [exec_calendarSlot, execCalendarSlot, onlyIf_true _ _ _ (by simp [hrecv, hcalendarOn, hlocked])]

/-- Settles O38: the datagrams by `gram` (VIEW_SYNC by `execViewSync_of_accepted`), each timer under its guard. -/
theorem membershipCommands : Obligations.MembershipCommands := by
  refine ⟨?_, ?_, ?_, ?_, ?_, ?_, ?_, ?_, ?_, ?_, ?_, ?_⟩
  · intro h b s t u hrecv hacc
    rw [exec_probe, execProbe, gram_of_accepted _ hrecv hacc]
  · intro h b s t u hrecv hacc
    rw [exec_probeAck, execProbeAck, gram_of_accepted _ hrecv hacc]
  · intro h b s t u hrecv hacc
    rw [exec_probeRequest, execProbeRequest, gram_of_accepted _ hrecv hacc]
  · intro h d s t u hrecv hacc
    rw [exec_viewDigest, execViewDigest, gram_of_accepted _ hrecv hacc]
  · intro h us s t u hhears hacc
    rw [exec_viewSync, execViewSync_of_accepted hhears hacc]
  · rintro targets s a hrecv hdue hdrawn rfl
    rw [exec_probeTimer, execProbeTimer, onlyIf_true _ _ _ (by simp [hrecv, hdue, hdrawn])]
  · intro pid helpers p s hsilentProbe hrecv hdrawn
    simp only [exec_probeAckTimeout, execProbeAckTimeout, hsilentProbe]
    rw [onlyIf_true _ _ _ (by simp [hrecv, hdrawn])]
  · rintro pid x s t hrelayOver hrecv rfl
    simp only [exec_probeRequestTimeout, execProbeRequestTimeout, hrelayOver]
    rw [onlyIf_true _ _ _ hrecv]
  · intro slot v r s hviewOf hrosterOf hrecv hisolated hsuspected halive hslot hdue
    simp only [exec_lossTimeout, execLossTimeout, hviewOf, hrosterOf, hslot]
    rw [onlyIf_true _ _ _ (by simp [hrecv, hisolated, hsuspected, halive, hdue])]
  · intro slot s hrecv hdue haliveOthers
    rw [exec_digestTimer, execDigestTimer, onlyIf_true _ _ _ (by simpa [hrecv, hdue] using haliveOthers)]
  · intro s hhears hviewed hdue
    rw [exec_viewSyncRetry, execViewSyncRetry, onlyIf_true _ _ _ (by simp [hhears, hviewed, hdue])]
  · intro s hrecv hown hcausesNow hdue hentries hthreshold
    rw [exec_placingReannounce, execPlacingReannounce, onlyIf_true _ _ _ (by simp [hrecv, hown, hcausesNow, hdue, hentries, hthreshold])]

end Sys2Proof.Proofs
end

section
/-! SUPPORT. What a start and the end of a run do to the parts that the statements on starts name. -/

namespace Sys2Proof.Machine

theorem countUnsafe_eq (s : State) : countUnsafe s =
    { s with start := { s.start with unsafeEnd := false, unsafeShutdowns := s.start.unsafeShutdowns + (if s.start.unsafeEnd then 1 else 0) } } := by
  cases h : s.start.unsafeEnd with
  | false =>
    simp only [countUnsafe, h, Bool.false_eq_true, if_false, Nat.add_zero]
    rw [← h]
  | true => rw [countUnsafe, if_pos h]; rfl

@[simp] theorem releaseHold_keeper (s : State) : (releaseHold s).keeper =
    { s.keeper with drivers := false, terms := false, holdOut := false, beatOut := .release, beatOutAt := s.now } := sendStatus_keeper _

theorem endHours_eq (s : State) : ∃ n, endHours s = { s with start := { s.start with onNs := n } } := by
  unfold endHours
  split
  · exact ⟨_, rfl⟩
  · exact ⟨s.start.onNs, rfl⟩

@[simp] theorem endHours_keeper (s : State) : (endHours s).keeper = s.keeper := by
  obtain ⟨n, hn⟩ := endHours_eq s
  rw [hn]

@[simp] theorem endHours_kw (s : State) : (endHours s).kw = s.kw := by
  obtain ⟨n, hn⟩ := endHours_eq s
  rw [hn]

@[simp] theorem endHours_media (s : State) : (endHours s).media = s.media := by
  obtain ⟨n, hn⟩ := endHours_eq s
  rw [hn]

@[simp] theorem endHours_now (s : State) : (endHours s).now = s.now := by
  obtain ⟨n, hn⟩ := endHours_eq s
  rw [hn]

/-- The clocks that a power-good of step 2 finds absent (R35, R625). -/
theorem clocksOut_eq_nil_iff (f m : Bool) : clocksOut f m = [] ↔ f = true ∧ m = true := by
  cases f <;> cases m <;> simp [clocksOut]

/-- The absent clocks of a power-good as the bytes of its record. -/
theorem clocksOut_bytes (f m : Bool) :
    (clocksOut f m).flatMap (le 1) = (if f then [] else le 1 2) ++ (if m then [] else le 1 3) := by
  cases f <;> cases m <;> simp [clocksOut]

/-- The state to which the failure of a step leads, before its record: every enable is low. -/
def afterFailure (step : Nat) (s : State) : State :=
  { s with keeper := { s.keeper with phase := .retry, en := 0, pg := 0, failures := s.keeper.failures + 1, failStep := step, seqAt := s.now } }

theorem sequencingFailure_eq (step : Nat) (clocks : List Nat) (s : State) : sequencingFailure step clocks s =
    record 0x6040 pathKeeper (le 1 step ++ le 1 (s.keeper.failures + 1) ++ clocks.flatMap (le 1)) (afterFailure step s) := rfl

/-- The end of a run and a power down both begin here: the hours are counted, and HOLD_OUT is released where it is driven. -/
def hoursEnded (s : State) : State := endHours (if s.keeper.holdOut then releaseHold s else s)

theorem hoursEnded_spec (s : State) : (hoursEnded s).keeper.holdOut = false ∧ (hoursEnded s).keeper.en = s.keeper.en ∧
    (hoursEnded s).keeper.latched = s.keeper.latched ∧ (hoursEnded s).now = s.now ∧ (hoursEnded s).kw = s.kw ∧
    (hoursEnded s).media = s.media := by
  cases h : s.keeper.holdOut with
  | false => simp [hoursEnded, h]
  | true => simp [hoursEnded, h, releaseHold]

theorem endRunNow_spec (s : State) : (endRunNow s).keeper.holdOut = false ∧ (endRunNow s).keeper.en = s.keeper.en ∧
    (endRunNow s).now = s.now ∧ (endRunNow s).kw = s.kw ∧ (endRunNow s).start.serving = false ∧
    (endRunNow s).start.service = false ∧ (endRunNow s).twin.roleState = .unassigned ∧ (endRunNow s).held = [] := by
  obtain ⟨hhold, hen, -, hnow, hkw, -⟩ := hoursEnded_spec s
  exact ⟨hhold, hen, hnow, hkw, rfl, rfl, rfl, rfl⟩

end Sys2Proof.Machine
end

section
/-! SUPPORT. The statements on starts, settled. -/

namespace Sys2Proof.Proofs
open Sys2Proof.Machine

/-- Settles O8: a frame that matches is held or starts a wake, by the level of PFAIL_N. -/
theorem wakingFromDormant : Obligations.WakingFromDormant := by
  refine ⟨?_, ?_, ?_⟩
  · intro f s hphase hwakes hpfail
    rw [exec_wakeFrame, execWakeFrame, onlyIf_true _ _ _ (by simp [hphase, hwakes]), if_neg (by simp [hpfail])]
  · intro f s hphase hwakes hpfail
    rw [exec_wakeFrame, execWakeFrame, onlyIf_true _ _ _ (by simp [hphase, hwakes]), if_pos hpfail]
  · intro s hphase hwakeHeld hpfail hdue
    rw [exec_pfailWakeHold, execPfailWakeHold, onlyIf_true _ _ _ (by simp [hphase, hwakeHeld, hpfail, hdue])]

/-- Settles O10: each monitor under its guard. -/
theorem startMonitors : Obligations.StartMonitors := by
  refine ⟨?_, ?_, ?_, ?_, fun s => ⟨?_, ?_, rfl, rfl⟩⟩
  · intro t0 s hreloadAt hfirstStarting hstep hreloadMissed hdue
    simp only [exec_keywayReloadDeadline, execKeywayReloadDeadline, hreloadAt]
    rw [onlyIf_true _ _ _ (by simp [hfirstStarting, hstep, hreloadMissed, hdue]), hreloadAt]
  · intro s hreloadMissed
    simp only [exec_keywayReloadDeadline, execKeywayReloadDeadline]
    split
    · exact onlyIf_false _ (by simp [hreloadMissed])
    · rfl
  · intro t0 s hservingBy hrun hserving hdue
    simp only [exec_servingDeadline, execServingDeadline, hservingBy]
    rw [onlyIf_true _ _ _ (by simp [hrun, hserving, hdue])]
  · intro n s hrun hlend hdue
    refine ⟨_, ?_, rfl⟩
    rw [exec_lendDeadline, execLendDeadline, onlyIf_true _ _ _ (by simp [hrun, hlend, hdue])]
  · simp [returnLend]
  · simp [returnLend]

/-- Settles O5: both starts write their fields over the state in which the end of the last run is counted (`countUnsafe_eq`). -/
theorem coldAndWakeStarts : Obligations.ColdAndWakeStarts := by
  refine ⟨?_, ?_⟩
  · intro role dram te s hphase hrole
    rw [exec_coldStart, execColdStart, onlyIf_true _ _ _ (by simp [hphase, hrole])]
    refine ⟨_, rfl, ?_⟩
    simp [countUnsafe_eq, Keeper.reset]
  · intro s hphase hwakeDue hpfail
    rw [exec_wakeStart, execWakeStart, onlyIf_true _ _ _ (by simp [hphase, hwakeDue, hpfail])]
    refine ⟨_, rfl, ?_⟩
    simp [countUnsafe_eq]

/-- Settles O6: each row of the sequence under its guard; a failed step is `sequencingFailure`. -/
theorem railSequencing : Obligations.RailSequencing := by
  refine ⟨?_, ?_, ?_, ?_, ?_, ?_, ?_⟩
  · intro n f m s hphase hpg hen hlt hclocks
    have hnoFail : ¬ (n = 2 ∧ (! (clocksOut f m).isEmpty) = true) := by
      rintro ⟨hn, hout⟩
      simp [(clocksOut_eq_nil_iff f m).mpr (hclocks hn)] at hout
    rw [exec_powerGoodRise, execPowerGoodRise, onlyIf_true _ _ _ (by simp [hphase, ← hpg, ← hen, hlt.le])]
    simp only [if_neg hnoFail, if_pos hlt]
    rfl
  · intro f m s hphase hpg hen habsent
    have hfail : (! (clocksOut f m).isEmpty) = true := by
      rcases habsent with rfl | rfl <;> simp [clocksOut]
    rw [exec_powerGoodRise, execPowerGoodRise, onlyIf_true _ _ _ (by simp [hphase, hpg, hen])]
    simp only [hfail, and_self, if_true]
    refine ⟨afterFailure 2 (noteClocks 2 (clocksOut f m) { s with keeper := { s.keeper with pg := 2 } }), ?_, rfl, rfl, rfl, rfl, rfl, rfl, rfl, rfl⟩
    rw [sequencingFailure_eq, clocksOut_bytes]
    rfl
  · intro f m s hphase hpg hen
    rw [exec_powerGoodRise, execPowerGoodRise, onlyIf_true _ _ _ (by simp [hphase, hpg, hen])]
    exact ⟨_, rfl, rfl, rfl, rfl, rfl, rfl, rfl⟩
  · intro n s hphase hpg hen hdue
    rw [exec_sequencingTimeout, execSequencingTimeout, onlyIf_true _ _ _ (by simp [hphase, ← hpg, ← hen, hdue])]
    simp [sequencingFailure]
  · intro s hphase hdue
    rw [exec_sequencingRetry, execSequencingRetry, onlyIf_true _ _ _ (by simp [hphase, hdue])]
    refine ⟨_, rfl, fun h => ?_, fun h => ?_⟩
    · rw [if_pos h]
      exact ⟨rfl, rfl, rfl, rfl⟩
    · rw [if_neg (by omega)]
      exact ⟨rfl, rfl⟩
  · intro n s h2 h5 hen hrun
    have hstays : running (record 0x6041 pathKeeper (le 1 n) s) = false := by simpa [running] using hrun
    rw [exec_powerGoodFall, execPowerGoodFall, onlyIf_true _ _ _ (by simp [h2, h5, hen])]
    simp [hstays]
  · intro n s h2 h5 hen hrun
    have hstays : running (record 0x6041 pathKeeper (le 1 n) s) = true := by simpa [running] using hrun
    rw [exec_powerGoodFall, execPowerGoodFall, onlyIf_true _ _ _ (by simp [h2, h5, hen])]
    simp only [hstays, Bool.not_true, Bool.false_eq_true, if_false]
    by_cases h3 : n = 3
    · subst h3
      simp
    · simp [h3]

/-- Settles O7: the warm start over the end of a run; the monitors under their guards; the loss of VDD_KEEP over `powerDown`. -/
theorem warmStartAndKeeper : Obligations.WarmStartAndKeeper := by
  refine ⟨?_, ?_, ?_, ?_, ?_, ?_⟩
  · intro k s hwarmDue hphase hflush
    have hguard : ((running s || s.keeper.phase == .stopped || s.keeper.phase == .recovery) && s.power.flush.isNone) = true := by
      rcases hphase with h | h | h <;> simp [h, hflush]
    simp only [exec_warmStart, execWarmStart, hwarmDue]
    rw [onlyIf_true _ _ _ hguard]
    obtain ⟨hhold, hen, hnow, hkw, hserving, hservice, hrole, hheld⟩ := endRunNow_spec s
    refine ⟨_, rfl, ?_⟩
    simp [beginKeeper, countUnsafe_eq, hhold, hen, hnow, hkw, hserving, hservice, hrole, hheld]
  · intro t0 s hfillAt hphase hfillMissed hdue
    simp only [exec_fillDeadline, execFillDeadline, hfillAt]
    rw [onlyIf_true _ _ _ (by simp [hphase, hfillMissed, hdue]), hfillAt]
  · intro s hfillMissed
    simp only [exec_fillDeadline, execFillDeadline]
    split
    · exact onlyIf_false _ (by simp [hfillMissed])
    · rfl
  · intro n x t0 s hcopying hphase hdue
    simp only [exec_bankCopyDeadline, execBankCopyDeadline, hcopying]
    rw [onlyIf_true _ _ _ (by simp [hphase, hdue])]
  · intro n x t0 s hcopying
    simp only [exec_bankCopyDeadline, execBankCopyDeadline, hcopying]
    exact onlyIf_false _ (by simp)
  · intro s hphase
    rw [exec_vddKeepLoss, execVddKeepLoss, onlyIf_true _ _ _ (by simp [hphase])]
    obtain ⟨-, -, hlatched, -, hkw, hmedia⟩ := hoursEnded_spec s
    exact ⟨_, rfl, rfl, rfl, rfl, rfl, rfl, rfl, rfl, rfl, hlatched, hkw, hmedia⟩

/-- Settles O9. -/
theorem coreReleaseAndRole : Obligations.CoreReleaseAndRole := by
  refine ⟨?_, fun env s => ⟨rfl, rfl⟩, ?_, fun s => ⟨rfl, rfl, rfl, rfl, _, rfl, rfl, rfl⟩, ?_, ?_, ?_, ?_⟩
  · intro env s hphase htestEn
    rw [exec_coreRelease, execCoreRelease, onlyIf_true _ _ _ (by simp [hphase, htestEn])]
    cases hgo : (finishCopy env s).2 with
    | false => simp [hgo]
    | true => simp [hgo]
  · intro env s hcopying
    simp [finishCopy, hcopying]
  · intro s hrun hunconfigured hcfg hdue
    rw [exec_unconfiguredRetry, execUnconfiguredRetry, onlyIf_true _ _ _ (by simp [hrun, hunconfigured, hcfg, hdue])]
  · intro t0 s hwaitSince hrun hdue hholdIn hcomplete
    simp only [exec_helloWaitTimeout, execHelloWaitTimeout, hwaitSince]
    rw [onlyIf_true _ _ _ (by simp [hrun, hdue, hholdIn]), if_pos hcomplete]
  · intro t0 s hwaitSince hrun hdue hholdIn hcomplete hnoted
    simp only [exec_helloWaitTimeout, execHelloWaitTimeout, hwaitSince]
    rw [onlyIf_true _ _ _ (by simp [hrun, hdue, hholdIn]), if_neg (by simp [hcomplete]), if_pos hnoted, hwaitSince]
  · intro b s hrun
    rw [exec_twinPresentPoll, execTwinPresentPoll, onlyIf_true _ _ _ hrun]
    simp only [beq_iff_eq]

end Sys2Proof.Proofs
end

section
/-! SUPPORT. The statements on shutdown notifications, connections, and the queries and features of the admin queue, settled. -/

namespace Sys2Proof.Machine

/-- An admin command that is accepted runs on its capsule's state, and its connection is mirrored after it. -/
theorem adm_of_accepted {a : Adm} {s : State} (h : admAccepts a s = true) (opc nsid : Nat) (dws : List Nat) (f : State → State) :
    adm a opc nsid dws f s = .next (mirrorConn a.conn (f (takeAdmin a opc nsid dws [] s))) :=
  onlyIf_true _ _ _ h

/-- The controller that an admin Connect at connection `k` creates (its statement in `connectAndDisconnect` names what stands in it). -/
def createdCtrl (k : Conn) (nqn : String) (kato : Nat) (s : State) : Ctrl :=
  { id := freeCtrl s k.mgmt, mgmt := k.mgmt, disc := k.disc, nqn := nqn, kato := kato, seenAt := s.now, queues := 64, aec := 0, aers := [],
    masked := [], waiting := [], sat := 30000, cc := 0, shst := 0, props := [], errors := [], errCount := 0, changed := changedNs s nqn }

end Sys2Proof.Machine

namespace Sys2Proof.Proofs
open Sys2Proof.Machine

/-- Settles O11: the notifications under their guards, and the admin commands on their capsules' states (`adm_of_accepted`). -/
theorem shutdownCommands : Obligations.ShutdownCommands := by
  refine ⟨?_, ?_, ?_, ?_, ?_, ?_, ?_, ?_⟩
  · intro a s hadm hmgmt
    rw [exec_controllerShutdown, execControllerShutdown, onlyIf_true _ _ _ (by simp [hadm, hmgmt])]
    rfl
  · intro a s hadm hmgmt
    refine ⟨?_, ?_⟩
    · rw [exec_orderlyShutdown, execOrderlyShutdown, onlyIf_true _ _ _ (by simp [hadm, hmgmt])]
    · rw [exec_abruptShutdown, execAbruptShutdown, onlyIf_true _ _ _ (by simp [hadm, hmgmt])]
  · intro b s hshutdown hflush
    rw [notifyShutdown, if_neg (by simp [hshutdown, hflush])]
  · intro x s hshutdown hrun habrupt hfrom hto hmissed hdue
    simp only [exec_shutdownDeadline, execShutdownDeadline, hshutdown]
    rw [onlyIf_true _ _ _ (by simp [hrun, habrupt, hfrom, hto, hmissed, hdue])]
  · intro a s hadm
    rw [exec_controllerEnable, execControllerEnable, onlyIf_true _ _ _ hadm]
  · intro a off val s hadm hoff
    rw [exec_propertySet, execPropertySet, onlyIf_true _ _ _ (by simp [hoff]), adm_of_accepted hadm]
    simp [stateOf, hoff]
  · intro a val s hadm hshn
    rw [exec_propertySet, execPropertySet, onlyIf_true _ _ _ (by simp [hshn]), adm_of_accepted hadm]
    simp [stateOf]
  · intro a wide c s hadm hctrl
    rw [exec_propertyGet, execPropertyGet, adm_of_accepted hadm]
    simp only [hctrl, if_true]
    rfl

/-- Settles O12: each attempt under the guard of its listener, each of the two outcomes by `refusing` and the limits. -/
theorem connectionsOpenAndClose : Obligations.ConnectionsOpenAndClose := by
  refine ⟨?_, ?_, ?_, ?_, ?_, ?_⟩
  · intro v6 port mac mss s hup hport
    simp only [exec_tcpConnectionAttempt, execTcpConnectionAttempt]
    rw [onlyIf_true _ _ _ (by simp [hup, ← hport] <;> rfl)]
    simp
  · intro v6 port mac mss n s hserves hup hnet htcp hport
    simp only [exec_tcpConnectionAttempt, execTcpConnectionAttempt]
    rw [onlyIf_true _ _ _ (by simp [hserves, hup, hnet, htcp, hport])]
    simp
  · intro v6 mac mtu n s hserves hup hnet hrdma
    rw [exec_roceConnectionRequest, execRoceConnectionRequest, onlyIf_true _ _ _ (by simp [hserves, hup, hnet, hrdma, cmPort])]
  · intro conn s hfresh
    rw [exec_tlsHandshake, execTlsHandshake, onlyIf_true _ _ _ hfresh]
  · intro conn align hd dd s hfresh
    refine ⟨?_, ?_⟩
    · rw [exec_initializeConnection, execInitializeConnection, onlyIf_true _ _ _ hfresh]
      rfl
    · rw [exec_initializeConnection, execInitializeConnection, onlyIf_true _ _ _ hfresh, if_pos rfl]
  · intro conn s hrun hconn
    rw [exec_connectionLost, execConnectionLost, onlyIf_true _ _ _ (by simp [hrun, hconn])]

/-- Settles O13: Connect by the queue it names and the failure found, the others under `connected`. -/
theorem connectAndDisconnect : Obligations.ConnectAndDisconnect := by
  refine ⟨?_, ?_, ?_, ?_, ?_, ?_, ?_, ?_⟩
  · intro a nqn ok cntl qsize kato k st s hconn hframes hinited hcntl hor hfail
    simp only [exec_connect, execConnect, hconn]
    rw [onlyIf_true _ _ _ (by simp [hframes, hinited, hcntl, hor]), if_pos trivial, hfail]
  · intro a nqn ok cntl qsize kato k s hconn hframes hinited hcntl hor hfail
    refine ⟨createdCtrl k nqn kato s, rfl, rfl, rfl, rfl, rfl, rfl, rfl, rfl, rfl, rfl, rfl, rfl, ?_⟩
    simp only [exec_connect, execConnect, hconn]
    rw [onlyIf_true _ _ _ (by simp [hframes, hinited, hcntl, hor]), if_pos trivial, hfail] <;> rfl
  · intro a nqn ok cntl qid qsize kato k s hconn hframes hinited hcntl hor hqid
    simp only [exec_connect, execConnect, hconn]
    rw [onlyIf_true _ _ _ (by simp [hframes, hinited, hcntl, hor]), if_neg hqid] <;> rfl
  · intro a k s hconnected hconn hqid
    rw [exec_disconnect, execDisconnect, onlyIf_true _ _ _ hconnected, hconn]
    simp only [if_neg hqid]
  · intro a k s hconnected hconn hqid
    rw [exec_disconnect, execDisconnect, onlyIf_true _ _ _ hconnected, hconn]
    simp only [if_pos hqid]
  · intro a s hconnected
    refine ⟨?_, ?_⟩
    · rw [exec_authenticationSend, execAuthenticationSend, onlyIf_true _ _ _ hconnected]
    · rw [exec_authenticationReceive, execAuthenticationReceive, onlyIf_true _ _ _ hconnected]
  · intro a op k s hconnected hconn hqid hop
    simp only [exec_unsupportedOpcode, execUnsupportedOpcode]
    rw [onlyIf_true _ _ _ (by simp only [hconnected, hconn, hqid, hop]; rfl)]
  · intro a op k s hconnected hconn hqid hop hfabrics
    simp only [exec_unsupportedOpcode, execUnsupportedOpcode]
    rw [onlyIf_true _ _ _ (by simp only [hconnected, hconn, if_neg hqid, hop, beq_eq_false_iff_ne.mpr hfabrics]; rfl)]

/-- Settles O14: each query on its capsule's state (`adm_of_accepted`), by the controller found there. -/
theorem adminQueries : Obligations.AdminQueries := by
  refine ⟨?_, ?_, ?_, ?_, ?_, ?_, ?_⟩
  · rintro a lid off len lsp lsi rae c s t hadm rfl hctrl
    rw [exec_getLogPage, execGetLogPage, adm_of_accepted hadm]
    simp only [hctrl] <;> rfl
  · rintro a cns nsid cntid csi c s t hadm rfl hctrl
    rw [exec_identify, execIdentify, adm_of_accepted hadm]
    simp only [hctrl] <;> rfl
  · intro a sqid cid s hadm
    rw [exec_abort, execAbort, adm_of_accepted hadm]
  · rintro a fid sel c s t hadm rfl hctrl
    rw [exec_getFeatures, execGetFeatures, adm_of_accepted hadm]
    simp only [hctrl] <;> rfl
  · rintro a c s t hadm rfl hctrl hwaiting
    rw [exec_asynchronousEventRequest, execAsynchronousEventRequest, adm_of_accepted hadm]
    simp only [hctrl, hwaiting]
  · rintro a c k dw ws s t hadm rfl hctrl hwaiting
    rw [exec_asynchronousEventRequest, execAsynchronousEventRequest, adm_of_accepted hadm]
    simp only [hctrl, hwaiting]
  · intro a s hadm
    rw [exec_keepAlive, execKeepAlive, adm_of_accepted hadm]

/-- Settles O15: each form of Set Features on its capsule's state (`adm_of_accepted`). -/
theorem settingFeatures : Obligations.SettingFeatures := by
  refine ⟨?_, ?_, ?_, ?_, ?_, ?_, ?_, ?_⟩
  · rintro a d s t hadm rfl
    rw [exec_setPowerManagement, execSetPowerManagement, adm_of_accepted hadm]
  · rintro a d s t hadm rfl hor
    rw [exec_setNumberOfQueues, execSetNumberOfQueues, adm_of_accepted hadm]
    simp only [if_pos hor]
  · rintro a sq cq n s t hadm rfl hsq hcq rfl
    have hlow : (sq + 65536 * cq) % 65536 = sq := by omega
    have hhigh : (sq + 65536 * cq) / 65536 % 65536 = cq := by omega
    rw [exec_setNumberOfQueues, execSetNumberOfQueues, adm_of_accepted hadm]
    simp only [hlow, hhigh]
    rw [if_neg (by omega)]
  · rintro a d s t hadm rfl
    rw [exec_setAsyncEventConfiguration, execSetAsyncEventConfiguration, adm_of_accepted hadm]
  · rintro a d s t hadm rfl
    rw [exec_setKeepAliveTimer, execSetKeepAliveTimer, adm_of_accepted hadm]
  · rintro a d s t hadm rfl
    rw [exec_setStoreAdmissionTimeout, execSetStoreAdmissionTimeout, adm_of_accepted hadm]
  · intro a fid s hadm
    simp only [exec_setFeaturesInvalid, execSetFeaturesInvalid, Bool.true_or, onlyIf_true, adm_of_accepted hadm, stateOf, if_true]
  · intro a fid s hadm hunknown
    rw [exec_setFeaturesInvalid, execSetFeaturesInvalid, onlyIf_true _ _ _ (by rw [hunknown]; rfl), adm_of_accepted hadm] <;> rfl

end Sys2Proof.Proofs
end

section
/-! SUPPORT. The statements on purging, filters, downloads, commits and the banks, settled. -/

namespace Sys2Proof.Machine

/-- Four bytes hold a number below 2^32. -/
theorem ofLe_le_four {v : Nat} (h : v < 2 ^ 32) : ofLe (le 4 v) = v := by
  simp [le, ofLe]
  omega

/-- The descriptor of a filter whose lengths agree: its kind, its length and its body. -/
theorem descriptor_fields (image : Bool) {body bytes : List Byte} (hlen : body.length < 2 ^ 32)
    (hbytes : bytes = (if image then 1 else 0) :: List.replicate 7 0 ++ le 4 body.length ++ List.replicate 4 0 ++ body) :
    bytes.length = 16 + body.length ∧ (ofLe (bytes.take 1) == 1) = image ∧ ofLe (bytes.take 1) ≤ 1 ∧
      ofLe ((bytes.drop 8).take 4) = body.length ∧ bytes.drop 16 = body := by
  subst hbytes
  have hdrop : ((if image then 1 else 0) :: List.replicate 7 0 ++ le 4 body.length ++ List.replicate 4 0 ++ body).drop 8 =
      le 4 body.length ++ (List.replicate 4 0 ++ body) := by simp [List.replicate]
  refine ⟨?_, ?_, ?_, ?_, ?_⟩
  · simp [le_length]
    omega
  · cases image <;> simp [ofLe]
  · cases image <;> simp [ofLe]
  · rw [hdrop, List.take_left' (le_length 4 _), ofLe_le_four hlen]
  · have h16 := congrArg (List.drop 8) hdrop
    rwa [List.drop_drop, ← List.append_assoc, List.drop_left' (by simp [le_length])] at h16

/-- The data units of a download are refused with the reason its arrival gives, unless a configuration image is too long. -/
theorem takeBytes_of_arrival {a : Adm} {data : List Byte} {i : Incoming} {s : State}
    (hlen : isCfg (i.bytes ++ data) = true → (i.bytes ++ data).length ≤ 8388608) :
    takeBytes a data i s = match arrivalReason s i.bytes (i.bytes ++ data) with
      | some r => refuseIncoming a r { i with bytes := i.bytes ++ data, at_ := s.now } s
      | none => done a stOk { s with boot := { s.boot with incoming := some { i with bytes := i.bytes ++ data, at_ := s.now } } } := by
  rw [takeBytes, if_neg (fun ⟨hcfg, hlong⟩ => absurd (hlen hcfg) (Nat.not_le.mpr hlong))] <;> rfl

/-- A commit at a management address, with a slot it may name and no configuration image to commit, goes by its action. -/
theorem firmwareCommit_of_package {a : Adm} {slot opts : Nat} {s : State} (hmgmt : atMgmt s a = true)
    (hpackage : ∀ i, s.boot.incoming = some i → isCfg i.bytes = false) (hslot : Machine.slotOk s slot = true)
    (hopts : opts.testBit 1 = true → opts.testBit 0 = true) :
    firmwareCommit a 0 slot opts s = commitIncoming a opts false s ∧ firmwareCommit a 1 slot opts s = commitIncoming a opts true s ∧
      firmwareCommit a 2 slot opts s = commitStaged a s ∧ firmwareCommit a 3 slot opts s = commitRestart a opts s := by
  have hok : ¬ ((! Machine.slotOk s slot) = true ∨ opts.testBit 1 = true ∧ (! opts.testBit 0) = true) := by
    rintro (h | ⟨h1, h0⟩)
    · rw [hslot] at h
      exact Bool.false_ne_true h
    · rw [hopts h1] at h0
      exact Bool.false_ne_true h0
  cases hin : s.boot.incoming with
  | none => simp only [firmwareCommit, hmgmt, hin, Bool.not_true, Bool.false_eq_true, if_false, if_neg hok, and_self]
  | some i => simp only [firmwareCommit, hmgmt, hin, hpackage i hin, Bool.not_true, Bool.false_eq_true, false_and, if_false, if_neg hok, and_self]

end Sys2Proof.Machine

namespace Sys2Proof.Proofs
open Sys2Proof.Machine

/-- Settles O16: each admin command on its capsule's state, a Format NVM by the first of its conditions that fails. -/
theorem purgeAndFilters : Obligations.PurgeAndFilters := by
  have hgoes : (1024 ≠ 2 * 2 ^ 9) = False := by simp
  refine ⟨?_, ?_, ?_, ?_, ?_, ?_, ?_, ?_⟩
  · rintro a nsid c k s t b hadm hcfg herase rfl hctrl hseen hsalt rfl
    obtain ⟨d, hd⟩ := Option.isSome_iff_exists.mp hsalt
    rw [exec_formatNvm, execFormatNvm, adm_of_accepted hadm]
    simp only [takeAdmin_cfg, hcfg, herase, hctrl, hseen, hd, hgoes, Bool.not_true, Bool.false_eq_true, or_false, if_false] <;> rfl
  · rintro a nsid c k s t hadm hcfg herase rfl hctrl hseen hsalt
    rw [exec_formatNvm, execFormatNvm, adm_of_accepted hadm]
    simp only [takeAdmin_cfg, hcfg, herase, hctrl, hseen, hsalt, hgoes, Bool.not_true, Bool.false_eq_true, or_false, if_false]
  · intro a nsid dw s hadm hor
    rw [exec_formatNvm, execFormatNvm, adm_of_accepted hadm]
    refine congrArg (fun t => Host.Outcome.next (mirrorConn a.conn t)) (if_pos ?_)
    rcases hor with hdw | herase
    · exact .inl hdw
    · refine .inr ?_
      rw [takeAdmin_cfg, Bool.not_eq_true']
      exact herase
  · rintro a nsid c k s t hadm hcfg herase rfl hctrl hseen
    rw [exec_formatNvm, execFormatNvm, adm_of_accepted hadm]
    simp only [takeAdmin_cfg, hcfg, herase, hctrl, hseen, hgoes, Bool.not_true, Bool.false_eq_true, Bool.not_false, or_false, if_false, if_true]
  · intro ns conn cid is s a t hpurging hrun his ha ht
    simp only [exec_purgePassComplete, execPurgePassComplete, hpurging]
    rw [onlyIf_true _ _ _ hrun, ← his, ← ha, journal_cfg, ← ht] <;> rfl
  · rintro a image body bytes s t hadm hlen hbytes rfl
    obtain ⟨hlength, hkind, hkinds, hn, hbody⟩ := descriptor_fields image hlen hbytes
    rw [exec_filterRegister, execFilterRegister, onlyIf_true _ _ _ hadm]
    simp only [hlength, hkind, hn, hbody]
    rw [if_neg (by omega)] <;> rfl
  · rintro a h s t hadm rfl
    rw [exec_filterRelease, execFilterRelease, adm_of_accepted hadm]
  · rintro a s t hadm rfl
    rw [exec_plannedTakeover, execPlannedTakeover, adm_of_accepted hadm]
    by_cases h : hasStandby (takeAdmin a 0xC8 0 [] [] s) = true ∧ (takeAdmin a 0xC8 0 [] [] s).twin.planned.isNone = true
    · have hplanned : (takeAdmin a 0xC8 0 [] [] s).twin.planned.isSome = false := by simpa using h.2
      rw [if_pos h, if_pos h, beginPlanned, hplanned]
      rfl
    · rw [if_neg h, if_neg h]

/-- Settles O17: the download by `takeBytes_of_arrival`, the commits by `firmwareCommit_of_package`. -/
theorem downloadsAndCommits : Obligations.DownloadsAndCommits := by
  refine ⟨?_, ?_, ?_, ?_, ?_, ?_, ?_, ?_⟩
  · rintro a numd off data bs s t hadm rfl rfl
    rw [exec_firmwareImageDownload, execFirmwareImageDownload, adm_of_accepted hadm]
    simp <;> rfl
  · intro a data i t hlen hreason
    rw [takeBytes_of_arrival hlen, hreason]
  · intro a data i r t hlen hreason
    rw [takeBytes_of_arrival hlen, hreason]
  · intro a action slot opts s hadm
    refine ⟨?_, ?_, ?_, ?_, ?_⟩
    · rw [exec_commitConfiguration, execCommitConfiguration, adm_of_accepted hadm]
    · rw [exec_commitStage, execCommitStage, adm_of_accepted hadm] <;> rfl
    · rw [exec_commitStageActivate, execCommitStageActivate, adm_of_accepted hadm]
    · rw [exec_commitActivateStaged, execCommitActivateStaged, adm_of_accepted hadm]
    · rw [exec_commitActivateRestart, execCommitActivateRestart, adm_of_accepted hadm]
  · intro a action slot opts t hmgmt
    simp [firmwareCommit, hmgmt]
  · intro a action slot opts i t hmgmt hin hcfg hrefused haction
    simp [firmwareCommit, hmgmt, hin, hcfg, hrefused, haction]
  · intro a slot opts t hmgmt hpackage hslot hopts
    exact firmwareCommit_of_package hmgmt hpackage hslot hopts
  · intro t slot
    simp [Machine.slotOk]

/-- Settles O18: each timer under its guard, a block of TFTP by the first of its checks that fails. -/
theorem banksAndConfirmation : Obligations.BanksAndConfirmation := by
  refine ⟨?_, ?_, ?_, ?_, ?_, ?_, ?_, ?_, ?_⟩
  · intro x t act n s herase hrun ht
    simp only [exec_bankEraseComplete, execBankEraseComplete, herase]
    rw [onlyIf_true _ _ _ (by simp [hrun, ht])]
  · intro x t act s herase hrun ht hdue
    simp only [exec_bankEraseDeadline, execBankEraseDeadline, herase]
    rw [onlyIf_true _ _ _ (by simp [hrun, ht, hdue])]
  · intro x t act s herase
    simp only [exec_bankEraseDeadline, execBankEraseDeadline, herase]
    rw [onlyIf_false _ (by simp)]
  · intro s hrun htrial hconfirmed hunmet
    rw [exec_trialConfirm, execTrialConfirm, onlyIf_true _ _ _ (by simp [hrun, htrial, hconfirmed, hunmet])]
  · rintro c s a b hrun hconfirmed hwarm hdue rfl rfl rfl
    rw [exec_confirmationMonitor, execConfirmationMonitor, onlyIf_true _ _ _ (by simp [hrun, hconfirmed, hwarm, hdue])]
  · intro p s hruns hrun hconfirmed hclean hdue hfuse
    simp only [exec_rollbackFuseTimer, execRollbackFuseTimer, hruns]
    rw [onlyIf_true _ _ _ (by simp [hrun, hconfirmed, hclean, hdue, hfuse, dayNs]), hruns]
  · intro peer rd oc s hphase
    rw [exec_tftpWriteRequest, execTftpWriteRequest, onlyIf_true _ _ _ (by simp [hphase])]
    simp
  · rintro peer b len r got raw data s hphase htftp hraw hlen rfl hdone hnot hreason
    simp only [exec_tftpData, execTftpData, htftp]
    rw [onlyIf_true _ _ _ (by simp [hphase, hraw, hlen])]
    simp [hdone, hnot, hreason]
  · rintro peer b len got raw data s hphase htftp hraw hlen rfl hreason
    have hnone : (if blockDone (got ++ raw.take len) = true ∧ (! blockDone got) = true
        then headerReason s.boot s.serial none ⟨got ++ raw.take len⟩ else none) = none := by
      split
      · next h => exact hreason h.1 (by simpa using h.2)
      · rfl
    simp only [exec_tftpData, execTftpData, htftp]
    rw [onlyIf_true _ _ _ (by simp [hphase, hraw, hlen])]
    simp only [hnone]
    simp

end Sys2Proof.Proofs
end

section
/-! SUPPORT. The statements on Cornice admission, records, the checkpoint and the ledger, settled. -/

namespace Sys2Proof.Proofs
open Sys2Proof.Machine

/-- Settles O22: each command under its guard, with the Store or the record that it names. -/
theorem admissionAndRecords : Obligations.AdmissionAndRecords := by
  refine ⟨?_, ?_, ?_, ?_, ?_, ?_, ?_⟩
  · intro s hserves
    rw [exec_corniceAdmissionGrant, execCorniceAdmissionGrant, onlyIf_true _ _ _ hserves]
  · intro conn cid e s hframes hpair hstore hwants hdue
    rw [exec_admissionTimeout, execAdmissionTimeout, onlyIf_true _ _ _ (by simp [hframes, hpair, hstore, hwants, hdue])]
    simp only [hstore]
  · intro conn cid bytes e s hserves hstore hbytes hlength hgot
    refine ⟨?_, ?_⟩
    · rw [exec_hostToControllerData, execHostToControllerData, onlyIf_true _ _ _ (by simp [hserves, hstore, hbytes, hlength, hgot]), hstore] <;> rfl
    · rw [exec_hostToControllerData, execHostToControllerData, onlyIf_true _ _ _ (by simp [hserves, hstore, hbytes, hlength, hgot]), hstore] <;> rfl
  · intro ns chunk key w s hproceed hrecv
    simp only [exec_keywayPendingWaitEnd, execKeywayPendingWaitEnd, hproceed]
    rw [onlyIf_true _ _ _ hrecv]
  · intro ns key r s hrun hpair hraising hrec hreleasable
    rw [exec_tombstoneRelease, execTombstoneRelease, onlyIf_true _ _ _ (by simp [hrun, hpair, hraising])]
    simp only [hrec, if_pos hreleasable]
  · intro ns key version r v s hrun hpair hraising hrec hver hlapsed
    rw [exec_versionRecordLapse, execVersionRecordLapse, onlyIf_true _ _ _ (by simp [hrun, hpair, hraising])]
    simp only [hrec, hver, hlapsed, Bool.not_true, Bool.false_eq_true, if_false]
  · intro from_ ns key version off len s hrun hpair
    rw [exec_shedRecord, execShedRecord, onlyIf_true _ _ _ (by simp [hrun, hpair])]

/-- Settles O23: each pass under its guard; where it writes, by what `metaWrite` gives. -/
theorem checkpointAndLedger : Obligations.CheckpointAndLedger := by
  refine ⟨?_, ?_, ?_, ?_, ?_, ?_, ?_⟩
  · intro g ok s hgranted hnext
    rw [exec_checkpointGranuleWrite, execCheckpointGranuleWrite, onlyIf_true _ _ _ hgranted]
    simp only [hnext]
  · intro ok s hgranted hnext
    rw [exec_checkpointGranuleWrite, execCheckpointGranuleWrite, onlyIf_true _ _ _ hgranted]
    simp only [hnext]
    rfl
  · intro rs rest s hrun hpair hserving htake
    rw [exec_deltaLogSegmentWrite, execDeltaLogSegmentWrite, onlyIf_true _ _ _ (by simp [hrun, hpair, hserving])]
    simp only [htake] <;> rfl
  · intro s
    rw [exec_deltaLogSegmentWrite, execDeltaLogSegmentWrite, onlyIf_false _ (by simp)]
  · intro granule s t hgranted hincomplete ht
    rw [exec_granuleRebuild, execGranuleRebuild, onlyIf_true _ _ _ (by rw [hgranted, hincomplete]; rfl), ← ht]
  · intro ns r s hrun hpair hserving hdue hr
    rw [exec_ledgerDeltaRunWrite, execLedgerDeltaRunWrite, onlyIf_true _ _ _ (by simp [hrun, hpair, hserving, hdue]), ← hr]
    simp only [writeRun, hr] <;> rfl
  · intro ns r old s hgranted hruns hr hold
    rw [exec_ledgerMerge, execLedgerMerge, onlyIf_true _ _ _ (by simp [hgranted, hruns]), ← hr]
    simp only [writeRun, hr, hold] <;> rfl

end Sys2Proof.Proofs
end

section
/-! SUPPORT. The statements on the Ward, on Rime and on the operations of the flash, settled. -/

namespace Sys2Proof.Machine

/-- A guarded effect that settles, with its guard true. -/
theorem andSettle_onlyIf {b : Bool} (h : b = true) (f : State → State) (s : State) :
    andSettle (onlyIf b f s) = .next (settle (f s)) := by
  rw [onlyIf_true _ _ _ h, andSettle]

end Sys2Proof.Machine

namespace Sys2Proof.Proofs
open Sys2Proof.Machine

/-- Settles O24: each command under its guard, with the string that its engine runs. -/
theorem wardAndRime : Obligations.WardAndRime := by
  refine ⟨?_, ?_, ?_, ?_, ?_, ?_⟩
  · intro flips lost here skipped upset s u a b hrun hloaded hdue hu hhere ha hskipped hupset hb
    rw [exec_wardScrubTick, execWardScrubTick, onlyIf_true _ _ _ (by simp [hrun, hloaded, hdue])]
    simp only [← hu, ← hhere, ← ha, ← hskipped, ← hupset, ← hb]
  · intro bank entry g s t hg hrun hrebuilding ht
    simp only [exec_wardShadowRebuilt, execWardShadowRebuilt, ← hg]
    rw [onlyIf_true _ _ _ (by simp [hrun, hrebuilding]), ht] <;> rfl
  · intro bank s hrun hloaded hbank hlasting hunits hdue
    have hguard : (running s && s.ward.loaded && decide (bank < 64) && ! s.ward.lasting.contains bank &&
        ! s.mem.qUnits.contains (pathX 0x18 bank) && decide (s.ward.passAt + 4096000 < s.now)) = true := by
      simp only [hrun, hloaded, hlasting, hunits, hbank, hdue, decide_true, Bool.not_false, Bool.and_self]
    rw [exec_wardScrubPassDeadline, execWardScrubPassDeadline, onlyIf_true _ _ _ hguard]
  · intro bank placed l h s q hrun hloaded hlasting hplaced hl hh hq
    simp only [exec_wardGroupRelocation, execWardGroupRelocation]
    rw [onlyIf_true _ _ _ (by simp only [hrun, hloaded, hlasting, Bool.and_self])]
    simp only [← hplaced, ← hl, ← hh, ← hq]
    exact ⟨fun g hfree => by simp only [hfree], fun hfree => by simp only [hfree]⟩
  · intro engine x s t u hbusy ht hu
    simp only [exec_rimeStringEnd, execRimeStringEnd, hbusy, ← ht, hu] <;> rfl
  · intro engine x s hbusy hdue
    simp only [exec_rimeEngineStall, execRimeEngineStall, hbusy]
    rw [onlyIf_true _ _ _ (by simp [hdue])]

/-- Settles O25: each end of an operation under its guard, by what it found of the superblock, the read or the set. -/
theorem flashOperationsEnd : Obligations.FlashOperationsEnd := by
  refine ⟨?_, ?_, ?_, ?_, ?_, ?_, ?_, ?_, ?_⟩
  · intro sb t0 b s hsb hwait hstate hrun hpair hdue
    simp only [exec_programUnitTimeout, execProgramUnitTimeout, mediaProgramUnitTimeout, hsb, hwait]
    rw [andSettle_onlyIf (by simp [hrun, hpair, hstate, hdue])]
  · intro die block wl o b s t hop hrun hpair ht hsb
    refine ⟨fun hdata => ?_, fun hparity => ?_, fun c hc => ⟨fun hdata => ?_, fun hparity => ?_⟩⟩ <;>
      simp only [exec_flashProgramComplete, execFlashProgramComplete, mediaFlashProgramComplete, hop] <;>
      rw [andSettle_onlyIf (by simp [hrun, hpair]), ← ht]
    · simp only [hsb, if_true, if_neg hdata]
    · simp only [hsb, if_true, if_pos hparity]
    · simp only [hsb, hc, Bool.false_eq_true, if_false, if_neg hdata]
    · simp only [hsb, hc, Bool.false_eq_true, if_false, if_pos hparity]
  · intro id step bits levels decoded tagOk crcOk r s a hread hrun hpair ha
    simp only [exec_flashReadComplete, execFlashReadComplete, mediaFlashReadComplete, hread]
    rw [andSettle_onlyIf (by simp [hrun, hpair]), ← ha]
    refine ⟨fun hwhy hok => ?_, fun hwhy hok => ?_, fun hwhy hdecoded => ?_, fun hwhy hdecoded htag hcrc => ?_,
      fun g b t hwhy hdecoded hwrong hb hgrain ht => ?_⟩
    · simp only [if_pos hwhy, if_pos hok]
    · simp only [if_pos hwhy, hok, Bool.false_eq_true, if_false]
    · simp only [if_neg hwhy, hdecoded, Bool.not_false, if_true]
    · simp only [if_neg hwhy, hdecoded, htag, hcrc, Bool.not_true, Bool.false_eq_true, if_false, and_self, if_true]
    · have hwrong' : ¬ (tagOk = true ∧ crcOk = true) := by
        rintro ⟨rfl, rfl⟩
        exact Bool.false_ne_true hwrong.symm
      simp only [if_neg hwhy, hdecoded, Bool.not_true, Bool.false_eq_true, if_false, if_neg hwrong', ← hb, hgrain, ← ht]
  · intro die block ok o s b c d hop hrun hpair hb hc hd
    simp only [exec_flashEraseComplete, execFlashEraseComplete, mediaFlashEraseComplete, hop]
    rw [andSettle_onlyIf (by simp [hrun, hpair]), ← hb, ← hc, hd] <;> rfl
  · intro id r s b hread hrun hpair hstep hnoted hdue hb
    simp only [exec_readingLadderDeadline, execReadingLadderDeadline, mediaReadingLadderDeadline, hread]
    rw [andSettle_onlyIf (by simp [hrun, hpair, hstep, hnoted, hdue]), ← hb]
  · intro die s hrun hpair husable hsilent
    rw [exec_dieReadyTimeout, execDieReadyTimeout, mediaDieReadyTimeout, andSettle_onlyIf (by simp [hrun, hpair, husable, hsilent])]
  · intro set x s hx hrun hpair hset hstate hflush hcomplete hpe
    refine ⟨?_, ?_⟩ <;>
      simp only [exec_spillSetErase, execSpillSetErase, mediaSpillSetErase, ← hx] <;>
      rw [andSettle_onlyIf (by simp [hrun, hpair, hset, hstate, hflush, hcomplete])] <;>
      simp only [hcomplete, hpe, Bool.false_eq_true, and_false, if_false, if_true]
  · intro g die o s hop
    refine ⟨fun hfew => ?_, fun hmany => ?_⟩
    · simp only [issueRead, hop, if_pos hfew]
    · simp only [issueRead, hop, if_neg (Nat.not_lt.mpr hmany)]
  · intro die o s hnone hop
    rw [resumeDie, if_neg (by rw [hnone]; exact Bool.false_ne_true), hop]

end Sys2Proof.Proofs
end

section
/-! SUPPORT. The statements on background work, power fail and the flush, settled. -/

namespace Sys2Proof.Machine

theorem running_eq_false_of_phase {s : State} {p : Phase} (h : s.keeper.phase = p) (hp : p ≠ .released) : running s = false := by
  simpa [running, h] using hp

theorem holdsPair_eq_false_of_standby {s : State} (h : s.twin.roleState = .standby) : holdsPair s = false := by
  simp [holdsPair, h]

/-- The state in which PFAIL_N has just gone low (R446). -/
def pfailLow (s : State) : State := { s with keeper := { s.keeper with pfail := true, pfailAt := s.now } }

@[simp] theorem pfailLow_phase (s : State) : (pfailLow s).keeper.phase = s.keeper.phase := rfl
@[simp] theorem pfailLow_running (s : State) : running (pfailLow s) = running s := rfl
@[simp] theorem pfailLow_holdsPair (s : State) : holdsPair (pfailLow s) = holdsPair s := rfl
@[simp] theorem pfailLow_roleState (s : State) : (pfailLow s).twin.roleState = s.twin.roleState := rfl
@[simp] theorem pfailLow_lend (s : State) : (pfailLow s).start.lend = s.start.lend := rfl
@[simp] theorem pfailLow_cg (s : State) : (pfailLow s).gauge.cg = s.gauge.cg := rfl

/-- A detection with no flush under way in a device that is not off or down goes by what the device is. -/
theorem exec_powerFailDetected_of_detected {cause v : Nat} {s : State} (hdetected : detected cause v s = true)
    (hflush : s.power.flush = none) (hoff : s.keeper.phase ≠ .off) (hdown : s.keeper.phase ≠ .down) :
    exec (.powerFailDetected cause v) s = .next (
      if s.keeper.phase = .dormant ∨ s.keeper.phase = .stopped then pfailLow s
      else if running s ∧ holdsPair s then
        if s.gauge.cg.isNone then unheldFail cause (dropTest (if s.start.lend = 2 then releaseHold (pfailLow s) else pfailLow s))
        else record 0x6010 pathPkg (le 2 cause) (beginFlush cause 0 v (if s.start.lend = 2 then releaseHold (pfailLow s) else pfailLow s))
      else if running s ∧ s.twin.roleState = .standby then park (dropTest (pfailLow s))
      else unheldFail cause (pfailLow s)) := by
  rw [exec_powerFailDetected, execPowerFailDetected, onlyIf_true _ _ _ (by simp [hdetected, hflush, hoff, hdown])]
  rfl

end Sys2Proof.Machine

namespace Sys2Proof.Proofs
open Sys2Proof.Machine

/-- Settles O26: each unit under its guard, by what it found of its row or superblock. -/
theorem backgroundWork : Obligations.BackgroundWork := by
  refine ⟨?_, ?_, ?_, ?_, ?_, ?_, ?_, ?_, ?_, ?_⟩
  · intro kind id id2 u s hunit hrun hlevel
    simp only [exec_backgroundLevelRise, execBackgroundLevelRise, mediaBackgroundLevelRise, hunit]
    rw [andSettle_onlyIf (by simp [hrun, hlevel])]
  · intro kind id id2 u s hunit hrun hpair hfault hdue
    simp only [exec_backgroundDeadline, execBackgroundDeadline, mediaBackgroundDeadline, hunit]
    rw [andSettle_onlyIf (by simp [hrun, hpair, hfault, hdue])]
  · intro die bits bd failed s hgranted husable
    rw [exec_sweepVisit, execSweepVisit, mediaSweepVisit, if_pos rfl, andSettle_onlyIf (by rw [hgranted, husable]; rfl)]
    simp only [List.isEmpty_iff]
  · intro die block bits bd grp failed s a b c d e hgranted husable hblock hrow ha hgrp hb hc hd he
    rw [exec_sweepVisit, execSweepVisit, mediaSweepVisit, if_neg hblock, andSettle_onlyIf (by rw [hgranted, husable, hrow]; rfl), he, hd, hc, hb, hgrp, ha] <;> rfl
  · intro stale s hgranted hbegun hdone hstale
    rw [exec_sweepPassEnd, execSweepPassEnd, mediaSweepPassEnd, andSettle_onlyIf (by rw [hgranted, hdone, decide_eq_true hbegun]; rfl), ← hstale]
  · intro s hrun hpair hdue
    rw [exec_readCounterCopy, execReadCounterCopy, mediaReadCounterCopy, andSettle_onlyIf (by simp [hrun, hpair, hdue])]
  · intro die block id u b s t hid hunit hgranted hsb
    simp only [exec_rewrite, execRewrite, mediaRewrite, ← hid, hunit]
    rw [andSettle_onlyIf hgranted, hsb]
    refine ⟨fun hmeta => ?_, fun hdata ht => ?_⟩
    · simp only [if_pos hmeta]
    · simp only [if_neg hdata, ← ht]
  · intro b s hgranted hunit hvictim
    rw [exec_garbageCollection, execGarbageCollection, mediaGarbageCollection, andSettle_onlyIf (by rw [hgranted, hunit]; rfl), hvictim]
  · intro die s hgranted hunit hspread
    rw [exec_staticWearLevelling, execStaticWearLevelling, mediaStaticWearLevelling, andSettle_onlyIf (by rw [hgranted, hunit]; rfl), if_pos hspread]
  · intro die b s hgranted hunit hspread hcoldest
    rw [exec_staticWearLevelling, execStaticWearLevelling, mediaStaticWearLevelling, andSettle_onlyIf (by rw [hgranted, hunit]; rfl),
      if_neg (Nat.not_le.mpr hspread), hcoldest]

/-- Settles O27: the detection by what the device is (`exec_powerFailDetected_of_detected`), the flush's end and its deadline by the flush that runs. -/
theorem powerFailAndFlush : Obligations.PowerFailAndFlush := by
  refine ⟨?_, ?_, ?_, ?_, ?_, ?_, fun s => rfl⟩
  · intro cause v s t u hdetected hflush hrun hpair ht hu
    have hphase : s.keeper.phase = .released := by simpa [running] using hrun
    rw [exec_powerFailDetected_of_detected hdetected hflush (by simp [hphase]) (by simp [hphase]), if_neg (by simp [hphase]),
      if_pos ⟨hrun, hpair⟩, hu, ht]
    refine ⟨fun hcg => ?_, fun hcg => ?_⟩
    · rw [if_neg (by simpa using Option.isSome_iff_ne_none.mp hcg)]
      rfl
    · rw [if_pos (by simp [hcg])]
      rfl
  · intro cause v s hdetected hflush hor
    have hlive : s.keeper.phase ≠ .off ∧ s.keeper.phase ≠ .down := by rcases hor with h | h <;> simp [h]
    rw [exec_powerFailDetected_of_detected hdetected hflush hlive.1 hlive.2, if_pos hor]
    rfl
  · intro cause v s hdetected hflush hrun hstandby
    have hphase : s.keeper.phase = .released := by simpa [running] using hrun
    rw [exec_powerFailDetected_of_detected hdetected hflush (by simp [hphase]) (by simp [hphase]), if_neg (by simp [hphase]),
      if_neg (by simp [holdsPair_eq_false_of_standby hstandby]), if_pos ⟨hrun, hstandby⟩]
    rfl
  · intro cause v s hdetected hflush hor
    have hcase : s.keeper.phase ≠ .off ∧ s.keeper.phase ≠ .down ∧ ¬ (s.keeper.phase = .dormant ∨ s.keeper.phase = .stopped) ∧
        ¬ (running s = true ∧ holdsPair s = true) ∧ ¬ (running s = true ∧ s.twin.roleState = .standby) := by
      rcases hor with ⟨hrun, hpair, hrole⟩ | hphase | hphase | hphase | hphase
      · have hphase : s.keeper.phase = .released := by simpa [running] using hrun
        simp [hphase, hpair, hrole]
      all_goals simp [hphase, running]
    obtain ⟨hoff, hdown, hasleep, hholds, hstandby⟩ := hcase
    rw [exec_powerFailDetected_of_detected hdetected hflush hoff hdown, if_neg hasleep, if_neg hholds, if_neg hstandby]
    rfl
  · intro vEnd wrote f s hflush
    simp only [exec_flushComplete, execFlushComplete, hflush]
  · intro f s hflush hmissed hdue
    simp only [exec_flushDeadline, execFlushDeadline, hflush]
    rw [onlyIf_true _ _ _ (by simp [hmissed, hdue])]

end Sys2Proof.Proofs
end

section
/-! SUPPORT. The statements on the gauge, on power and temperature and on the pace loop, settled. -/

namespace Sys2Proof.Machine

/-- What the two checks of a reading change of the gauge: never the reading itself (R456, R457). -/
theorem checkReadOnly_gauge (s : State) : (checkReadOnly s).gauge.v = s.gauge.v ∧ (checkReadOnly s).gauge.eUse = s.gauge.eUse ∧
    (checkReadOnly s).gauge.aDev = s.gauge.aDev ∧
    ((checkReadOnly s).gauge.readOnly = true ↔ s.gauge.readOnly = true ∨ s.gauge.eUse < (powOf s).eMin * 1000000) := by
  unfold checkReadOnly
  by_cases hlow : s.gauge.eUse < (powOf s).eMin * 1000000
  · by_cases hro : s.gauge.readOnly = true
    · simp [hlow, hro]
    · simp [hlow, hro]
  · by_cases hback : s.gauge.readOnly = true ∧ (powOf s).eMin * 1000000 + 2000000 ≤ s.gauge.eUse
    · simp [hlow, hback]
    · simp only [if_neg hlow, if_neg hback, hlow, or_false]
      exact ⟨rfl, rfl, rfl, Iff.rfl⟩

theorem checkExcess_gauge (s : State) : (checkExcess s).gauge.v = s.gauge.v ∧ (checkExcess s).gauge.eUse = s.gauge.eUse ∧
    (checkExcess s).gauge.aDev = s.gauge.aDev ∧ (checkExcess s).gauge.readOnly = s.gauge.readOnly := by
  unfold checkExcess
  split <;> exact ⟨rfl, rfl, rfl, rfl⟩

/-- The end of a power down: the keeper with every output released, the latched causes as they stood. -/
theorem powerDown_keeper (s : State) : (powerDown false s).keeper.phase = .down ∧ (powerDown false s).keeper.holdOut = false ∧
    (powerDown false s).keeper.drivers = false ∧ (powerDown false s).keeper.en = 0 ∧
    (powerDown false s).keeper.latched = s.keeper.latched := by
  obtain ⟨-, -, hlatched, -⟩ := hoursEnded_spec s
  exact ⟨rfl, rfl, rfl, rfl, hlatched⟩

/-- A thermal trip before its power down: HOLD_OUT released, and the event latched for the next run (R470). -/
def tripped (s : State) : State :=
  { (if s.keeper.holdOut then releaseHold s else s) with mor :=
    { (if s.keeper.holdOut then releaseHold s else s).mor with carried := (if s.keeper.holdOut then releaseHold s else s).mor.carried ++
      [{ newRec s.now s.ptp.locked 0x6053 6 (pathGauge 0) (le 4 s.power.hottest.toNat) with carried := true }] } }

theorem tripped_latched (s : State) : (tripped s).keeper.latched = s.keeper.latched := by
  unfold tripped
  split
  · simp
  · rfl

theorem requestVdd_pace (v : Nat) (s : State) : (requestVdd v s).pace = { s.pace with vdd := max vddMin (min vddMax v) } := rfl

theorem noteDeficit_windows (p : Nat) (s : State) : (noteDeficit p s).pace.windows = s.pace.windows := by
  unfold noteDeficit
  split <;> rfl

theorem noteDeficit_vdd (p : Nat) (s : State) : (noteDeficit p s).pace.vdd = s.pace.vdd := by
  unfold noteDeficit
  split <;> rfl

theorem takeWindow_windows (p : Nat) (s : State) : (takeWindow p s).pace.windows = s.pace.windows + 1 := by
  simp only [takeWindow, noteDeficit_windows]
  by_cases h : p < paceTarget ∧ ¬ s.pace.frozen = true
  · rw [if_pos h, requestVdd_pace]
  · rw [if_neg h]

theorem takeWindow_vdd (p : Nat) (s : State) : (takeWindow p s).pace.vdd =
    if p < 1613 ∧ s.pace.frozen = false then max vddMin (min vddMax (s.pace.vdd + 20)) else s.pace.vdd := by
  simp only [takeWindow, noteDeficit_vdd, ← Bool.not_eq_true]
  by_cases h : p < paceTarget ∧ ¬ s.pace.frozen = true
  · rw [if_pos h, requestVdd_pace]
    exact (if_pos h).symm
  · rw [if_neg h]
    exact (if_neg h).symm

end Sys2Proof.Machine

namespace Sys2Proof.Proofs
open Sys2Proof.Machine

/-- Settles O28: each timer under its guard, with the test that runs; a reading by its two checks. -/
theorem gaugeTests : Obligations.GaugeTests := by
  refine ⟨?_, ?_, ?_, ?_, ?_, ?_, ?_, ?_, ?_⟩
  · intro s hrun hcfg htest hor
    have hdue : (s.gauge.due || s.gauge.waits || (s.gauge.testPassed && s.gauge.retryAt.isNone && decide (s.gauge.nextDue ≤ s.now))) = true := by
      rcases hor with h | h | ⟨hpassed, hretry, hnext⟩
      · simp [h]
      · simp [h]
      · simp [hpassed, hretry, hnext]
    rw [exec_gaugePeriodTimer, execGaugePeriodTimer, onlyIf_true _ _ _ (by rw [hrun, hcfg, htest, hdue]; rfl)]
  · intro t s hretry hrun htest hdue
    simp only [exec_gaugeRetryTimer, execGaugeRetryTimer, hretry]
    rw [onlyIf_true _ _ _ (by simp [hrun, htest, hdue]), hretry]
  · intro v0 t s htest hrun hstep hfull
    simp only [exec_gaugeTestStart, execGaugeTestStart, htest]
    rw [onlyIf_true _ _ _ (by simp [hrun, hstep, hfull])]
  · intro iT step fit t s htest hrun hstep hcap
    simp only [exec_gaugeTestComplete, execGaugeTestComplete, htest]
    rw [onlyIf_true _ _ _ (by simp [hrun, hstep]), hcap]
  · intro iT step fit cm esr cg t s htest hrun hstep hcap hesr hcg
    simp only [exec_gaugeTestComplete, execGaugeTestComplete, htest]
    rw [onlyIf_true _ _ _ (by simp [hrun, hstep]), hcap]
    simp only [hesr, hcg]
  · intro t s htest hrun hstep hdue
    simp only [exec_gaugeTestDeadline, execGaugeTestDeadline, htest]
    rw [onlyIf_true _ _ _ (by simp [hrun, hstep, hdue])]
  · intro v s t hrun hcfg hhold ht
    obtain ⟨hv, he, ha, hro⟩ := checkReadOnly_gauge { s with gauge := { s.gauge with v := v, eUse := usable s v, aDev := admissionFor s (usable s v) } }
    obtain ⟨hv', he', ha', hro'⟩ := checkExcess_gauge (checkReadOnly { s with gauge := { s.gauge with v := v, eUse := usable s v, aDev := admissionFor s (usable s v) } })
    subst ht
    refine ⟨?_, hv'.trans hv, he'.trans he, ha'.trans ha, ?_⟩
    · rw [exec_gaugeReading, execGaugeReading, onlyIf_true _ _ _ (by simp [hrun, hcfg, hhold])]
    · rw [hro']
      exact hro
  · intro t s hback hrun hro hdue
    simp only [exec_readOnlyExit, execReadOnlyExit, hback]
    rw [onlyIf_true _ _ _ (by simp [hrun, hro, hdue])]
  · intro t s hexcess hrun hnoted hdue
    simp only [exec_admissionExcessDeadline, execAdmissionExcessDeadline, hexcess]
    rw [onlyIf_true _ _ _ (by simp [hrun, hnoted, hdue]), hexcess]

/-- Settles O29: each measurement and timer under its guard; the trip over `powerDown`. -/
theorem powerAndThermal : Obligations.PowerAndThermal := by
  refine ⟨?_, ?_, ?_, ?_, ?_, ?_, ?_, ?_, ?_, ?_, ?_, ?_⟩
  · intro core rails flash m s hrun
    rw [exec_powerMeasurement, execPowerMeasurement, onlyIf_true _ _ _ hrun]
    refine ⟨_, rfl, rfl, rfl, ?_, rfl, rfl⟩
    simp only [Bool.not_eq_true]
  · intro t s hfloor hrun hnoted hdue
    simp only [exec_capExceededDeadline, execCapExceededDeadline, hfloor]
    rw [onlyIf_true _ _ _ (by simp [hrun, hnoted, hdue]), hfloor]
  · intro h s hrun
    have hphase : s.keeper.phase = .released := by simpa [running] using hrun
    simp only [exec_thermalAction, execThermalAction]
    rw [if_neg (by simp [hphase]), onlyIf_true _ _ _ hrun]
    rfl
  · intro h s hphase
    simp only [exec_thermalAction, execThermalAction, if_pos hphase]
  · intro s hoff hdown hdormant
    rw [exec_thermalTrip, execThermalTrip, onlyIf_true _ _ _ (by simp [hoff, hdown, hdormant])]
    obtain ⟨hphase, hhold, hdrivers, hen, hlatched⟩ := powerDown_keeper (tripped s)
    refine ⟨_, rfl, rfl, hhold, hdrivers, hen, ?_, hphase⟩
    rw [← tripped_latched s, ← hlatched]
    rfl
  · intro t s hcold hphase hdue
    simp only [exec_thermalRestart, execThermalRestart, hcold]
    rw [onlyIf_true _ _ _ (by simp [hphase, hdue])]
  · intro use count rank s hrun
    rw [exec_tokenRequest, execTokenRequest, onlyIf_true _ _ _ hrun]
  · intro r s hnext hrun hfits hthaw hclass
    simp only [exec_tokenGrant, execTokenGrant, hnext]
    rw [onlyIf_true _ _ _ (by simp [hrun, hfits, hthaw, hclass])]
  · intro i s hopen hrun hflush hdue
    simp only [exec_energyIntervalClose, execEnergyIntervalClose, hopen]
    rw [onlyIf_true _ _ _ (by simp [hrun, hflush, hdue])]
  · intro s hopen hrun hflush
    simp only [exec_energyIntervalClose, execEnergyIntervalClose, hopen]
    rw [onlyIf_true _ _ _ (by simp [hrun, hflush])]
  · intro p at_ s hasked hrun hflush
    simp only [exec_powerStateAdopt, execPowerStateAdopt, hasked]
    rw [onlyIf_true _ _ _ (by simp [hrun, hflush])]
  · intro t s hhandover hrun hrole hdue
    simp only [exec_thermalHandoverTimeout, execThermalHandoverTimeout, hhandover]
    rw [onlyIf_true _ _ _ (by simp [hrun, hrole, hdue])]

/-- Settles O30: each window, decision and transaction under its guard; what they ask for by `requestVdd_pace`. -/
theorem paceLoop : Obligations.PaceLoop := by
  refine ⟨?_, ?_, ?_, ?_, ?_, ?_, ?_, ?_⟩
  · intro paces s t hrun hdue ht
    rw [exec_paceWindow, execPaceWindow, onlyIf_true _ _ _ (by simp [hrun, hdue]), ← ht]
    refine ⟨fun hnone => by simp only [hnone], fun p hp => ⟨by simp only [hp], ?_, ?_⟩⟩
    · rw [takeWindow_windows, ht]
    · rw [takeWindow_vdd, ht]
  · intro l s hlowest hrun hwindows
    simp only [exec_paceDecision, execPaceDecision, hlowest]
    rw [onlyIf_true _ _ _ (by simp [hrun, hwindows])]
    refine ⟨_, rfl, ?_⟩
    by_cases hhigh : 104 * workingSetpoint s < 100 * l
    · by_cases hten : 10 ≤ s.pace.highs + 1
      · cases hfrozen : s.pace.frozen <;> by_cases hbelow : l < workingSetpoint s <;>
          simp [hhigh, hten, hbelow, requestVdd_pace, hfrozen]
      · cases hfrozen : s.pace.frozen <;> by_cases hbelow : l < workingSetpoint s <;>
          simp [hhigh, hten, hbelow, requestVdd_pace, hfrozen]
    · cases hfrozen : s.pace.frozen <;> by_cases hbelow : l < workingSetpoint s <;>
        simp [hhigh, hbelow, requestVdd_pace, hfrozen]
  · intro v i s hrun hfrozen
    refine ⟨?_, ?_⟩
    · rw [exec_avsbusTransaction, execAvsbusTransaction, onlyIf_true _ _ _ (by simp [hrun, hfrozen]), if_pos rfl]
    · rw [exec_avsbusTransaction, execAvsbusTransaction, onlyIf_true _ _ _ (by simp [hrun, hfrozen]), if_neg Bool.false_ne_true]
  · intro s hrun hfrozen hfails
    rw [exec_avsbusFailure, execAvsbusFailure, onlyIf_true _ _ _ (by simp [hrun, hfrozen, hfails])]
  · intro v i s hrun hfrozen hdue
    refine ⟨?_, ?_⟩
    · rw [exec_avsbusRetry, execAvsbusRetry, onlyIf_true _ _ _ (by simp [hrun, hfrozen, hdue]), if_pos rfl]
    · rw [exec_avsbusRetry, execAvsbusRetry, onlyIf_true _ _ _ (by simp [hrun, hfrozen, hdue]), if_neg Bool.false_ne_true]
  · intro t s hsince hrun hdue
    simp only [exec_paceDeficit, execPaceDeficit, hsince]
    rw [onlyIf_true _ _ _ (by simp [hrun, hdue])]
    by_cases hfirst : s.pace.deficits = 0
    · simp [hfirst, hsince]
    · simp [hfirst, hsince]
  · intro clock s t hclock ht
    have hruns : running t = running s := by rw [ht]; rfl
    rw [exec_refclockLoss, execRefclockLoss, onlyIf_true _ _ _ (by simp [hclock]), ← ht]
    simp only [hruns]
    refine ⟨fun hor => ?_, fun hrun hone => ?_, fun hrun hmain => ?_⟩
    · rcases hor with hstopped | hzero
      · simp [hstopped]
      · simp [hzero]
    · have hlink : t.twin.linkUp = s.twin.linkUp := by rw [ht]
      simp [hrun, hone, hlink]
    · have hone : clock ≠ 1 := by omega
      simp [hrun, hone, hmain]
  · intro e t s hrestart hrun hdue
    simp only [exec_commandRestartDeadline, execCommandRestartDeadline, hrestart]
    rw [onlyIf_true _ _ _ (by simp [hrun, hdue])]

end Sys2Proof.Proofs
end

section
/-! SUPPORT. The coherence requests, the lines given back and the snoops (R48 to R52): an equation for each way in which the directory serves them. -/

namespace Sys2Proof.Machine

/-! ### Requests that the directory serves -/

section Served
variable {home line : Nat} {r : CReq} {s : State}

theorem txn_none_of_not_mustQueue {k : Coherence} (h : mustQueue k line = false) : (dirOf k line).txn = none := by
  simp only [mustQueue, Bool.or_eq_false_iff] at h
  simpa using h.1

/-- A request for a line that another cluster owns goes on to its owner. -/
theorem serveReq_of_owner {o : Nat} (howner : (dirOf s.coh line).owner = some o) (ho : o ≠ r.cluster) :
    serveReq home line r s = sendCoh (forwardFor r.kind) home o line []
      (onCoh (setDir { dirOf s.coh line with region := home, txn := some ⟨r, [o], [], [], false⟩ }) s) := by
  simp only [serveReq, howner, if_neg ho]

/-- Data from memory for a line that no cluster owns: exclusive unless it is for a GetS of a shared line. -/
theorem serveReq_of_memory (howner : (dirOf s.coh line).owner = none) (hkind : r.kind < 3)
    (hserve : r.kind = 0 ∨ (dirOf s.coh line).sharers.filter (· != r.cluster) = []) :
    serveReq home line r s = sendCoh (if r.kind ≠ 0 ∨ (dirOf s.coh line).sharers.isEmpty = true then "DataExcl" else "Data") home r.cluster line (lineMem s.coh line)
      (onCoh (setDir { dirOf s.coh line with region := home, txn := some ⟨r, [], [], [], true⟩ }) s) := by
  have hserve' : r.kind = 0 ∨ ((dirOf s.coh line).sharers.filter (· != r.cluster)).isEmpty = true := by simpa using hserve
  simp only [serveReq, howner]
  rw [if_neg (by omega), if_pos hserve', if_neg (by omega)]
  simp [sendData, howner]

/-- An invalidation of every other sharer for a line that no cluster owns. -/
theorem serveReq_of_sharers {x : Nat} {xs : List Nat} (howner : (dirOf s.coh line).owner = none) (hkind : r.kind = 1 ∨ r.kind = 2)
    (hsharers : (dirOf s.coh line).sharers.filter (· != r.cluster) = x :: xs) :
    serveReq home line r s = (x :: xs).foldl (fun s o => sendCoh "Inv" home o line [] s)
      (onCoh (setDir { dirOf s.coh line with region := home, txn := some ⟨r, x :: xs, [], [], false⟩ }) s) := by
  simp only [serveReq, howner, hsharers]
  rw [if_neg (by omega), if_neg (by simp; omega)]

/-- An access without a copy to a line that no cluster holds. -/
theorem serveReq_uncached (howner : (dirOf s.coh line).owner = none) (hsharers : (dirOf s.coh line).sharers = [])
    (hkind : r.kind = 4 ∨ r.kind = 5) : serveReq home line r s = completeUncached home line r s := by
  rcases hkind with h | h <;> simp [serveReq, howner, hsharers, h]

end Served

/-! ### The commands at the region that owns the line -/

section AtHome
variable {c : Coh} {h : Nat} {s : State}

theorem coherent_atHome (hhome : atHome h c s = true) (f : Nat → State → State) : coherent c f s = .next (wake c.line (f h s)) := by
  obtain ⟨hservice, hhomeOf, -, -, -⟩ := atHome_iff hhome
  exact coherent_next f hservice hhomeOf

theorem coherent_request_served (hhome : atHome h c s = true) (hqueue : mustQueue s.coh c.line = false) {kind : Nat} (hkind : kind < 6)
    (core : Nat) : coherent c (fun h => request h c.line ⟨kind, c.cluster, core, 0, []⟩) s =
      .next (wake c.line (serveReq h c.line ⟨kind, c.cluster, core, 0, []⟩ s)) := by
  obtain ⟨-, -, huncached, hports, -⟩ := atHome_iff hhome
  rw [coherent_atHome hhome, request_served huncached hports hqueue hkind]

theorem coherent_request_queued (hhome : atHome h c s = true) (htxn : (dirOf s.coh c.line).txn.isSome = true) {kind : Nat} (hkind : kind < 6)
    (core : Nat) : coherent c (fun h => request h c.line ⟨kind, c.cluster, core, 0, []⟩) s =
      .next (wake c.line { s with coh := if roomUsed s.coh h < 256
        then { s.coh with room := s.coh.room ++ [(h, c.line, ⟨kind, c.cluster, core, 0, []⟩)] }
        else { s.coh with ports := s.coh.ports ++ [(c.line, ⟨kind, c.cluster, core, 0, []⟩)] } }) := by
  obtain ⟨-, -, huncached, hports, -⟩ := atHome_iff hhome
  rw [coherent_atHome hhome, request_queued huncached hports (by simp [mustQueue, htxn]) hkind]

theorem exec_putm_atHome (hhome : atHome h c s = true) (w : PutData) :
    exec (.putm c w) s = .next (wake c.line (putArrives h c.line c.cluster (some w.words) s)) := by
  obtain ⟨-, -, huncached, hports, hcluster⟩ := atHome_iff hhome
  rw [exec_putm, execPutm, coherent_atHome hhome, request_put huncached hports (.inl rfl), hcluster]
  rfl

theorem exec_pute_atHome (hhome : atHome h c s = true) :
    exec (.pute c) s = .next (wake c.line (putArrives h c.line c.cluster none s)) := by
  obtain ⟨-, -, huncached, hports, -⟩ := atHome_iff hhome
  rw [exec_pute, execPute, coherent_atHome hhome, request_put huncached hports (.inr rfl)]
  rfl

theorem exec_puts_atHome (hhome : atHome h c s = true) :
    exec (.puts c) s = .next (wake c.line (putArrives h c.line c.cluster none s)) := exec_pute_atHome hhome

/-- A Put of a line at rest is acknowledged, its data written to memory where it comes from the owner. -/
theorem putArrives_of_rest {ws : Option (List (Word × Bool))} (htxn : (dirOf s.coh c.line).txn = none) :
    putArrives h c.line c.cluster ws s = sendCoh "PutAck" h c.cluster c.line [] (onCoh (setDir { dirOf s.coh c.line with
      owner := if (dirOf s.coh c.line).owner = some c.cluster then none else (dirOf s.coh c.line).owner
      sharers := (dirOf s.coh c.line).sharers.filter (· != c.cluster) })
        (match ws with
          | some w => if (dirOf s.coh c.line).owner = some c.cluster then writeLine c.line w (onCoh (evictLine c) s) else onCoh (evictLine c) s
          | none => onCoh (evictLine c) s)) := by
  have hdir : dirOf (onCoh (evictLine ⟨c.cluster, c.line⟩) s).coh c.line = dirOf s.coh c.line := dirOf_dir (evictLine_dir _ _) _
  simp only [putArrives, hdir, htxn] <;> rfl

/-- A Put that crosses a snoop is kept as its answer, and serves it at once where the snoop was told that it crosses. -/
theorem putArrives_of_snooped {ws : Option (List (Word × Bool))} {x : CTxn} (htxn : (dirOf s.coh c.line).txn = some x)
    (hwaits : x.waits.contains c.cluster = true) :
    putArrives h c.line c.cluster ws s = if x.crossed.contains c.cluster
      then sendCoh "PutAck" h c.cluster c.line [] (answered h c.line c.cluster x ws (onCoh (evictLine c) s))
      else onCoh (setDir { dirOf s.coh c.line with txn := some { x with put := x.put ++ [(c.cluster, ws)] } }) (onCoh (evictLine c) s) := by
  have hdir : dirOf (onCoh (evictLine ⟨c.cluster, c.line⟩) s).coh c.line = dirOf s.coh c.line := dirOf_dir (evictLine_dir _ _) _
  simp only [putArrives, hdir, htxn, if_pos hwaits]

end AtHome

/-! ### The snoops and their answers -/

@[simp] theorem setDir_lines (d : DirLine) (k : Coherence) : (setDir d k).lines = k.lines := by
  unfold setDir
  split <;> rfl

@[simp] theorem writeLine_lines (l : Nat) (ws : List (Word × Bool)) (s : State) : (writeLine l ws s).coh.lines = s.coh.lines := rfl

theorem evictingAt_of_clusterLine {k : Coherence} {c : Coh} {x : CLine} (h : clusterLine k c = some x) : evictingAt k c = x.evicting := by
  simp [evictingAt, h]

end Sys2Proof.Machine
end

section
/-! SUPPORT. The statements on coherence requests and snoops, settled. -/

namespace Sys2Proof.Proofs
open Sys2Proof.Machine

/-- Settles O31: each request by the way in which the directory serves it, each Put by `putArrives`. -/
theorem coherenceRequests : Obligations.CoherenceRequests := by
  refine ⟨?_, ?_, ?_, ?_, ?_, ?_, wake_transient⟩
  · intro c h core o d s hhome hqueue hd howner ho
    have howner' : (dirOf s.coh c.line).owner = some o := by rw [hd] at howner; exact howner
    refine ⟨?_, ?_, ?_⟩
    · rw [exec_gets, execGets, coherent_request_served hhome hqueue (by decide), serveReq_of_owner howner' ho, hd]
      rfl
    · rw [exec_getm, execGetm, coherent_request_served hhome hqueue (by decide), serveReq_of_owner howner' ho, hd]
      rfl
    · rw [exec_upgrade, execUpgrade, coherent_request_served hhome hqueue (by decide), serveReq_of_owner howner' ho, hd]
      rfl
  · intro c h core d s hhome hqueue hd howner
    have howner' : (dirOf s.coh c.line).owner = none := by rw [hd] at howner; exact howner
    subst hd
    refine ⟨?_, fun hothers => ⟨?_, ?_⟩, fun x xs hothers => ⟨?_, ?_⟩⟩
    · rw [exec_gets, execGets, coherent_request_served hhome hqueue (by decide), serveReq_of_memory howner' (by simp) (.inl rfl)]
      simp
    · rw [exec_getm, execGetm, coherent_request_served hhome hqueue (by decide), serveReq_of_memory howner' (by simp) (.inr hothers)]
      simp
    · rw [exec_upgrade, execUpgrade, coherent_request_served hhome hqueue (by decide), serveReq_of_memory howner' (by simp) (.inr hothers)]
      simp
    · rw [exec_getm, execGetm, coherent_request_served hhome hqueue (by decide), serveReq_of_sharers howner' (.inl rfl) hothers]
    · rw [exec_upgrade, execUpgrade, coherent_request_served hhome hqueue (by decide), serveReq_of_sharers howner' (.inr rfl) hothers]
  · intro c h core kind i s hhome htxn hi
    simp only [List.mem_cons, List.not_mem_nil, or_false, Prod.mk.injEq] at hi
    rcases hi with ⟨rfl, rfl⟩ | ⟨rfl, rfl⟩ | ⟨rfl, rfl⟩
    · exact coherent_request_queued hhome htxn (by decide) core
    · exact coherent_request_queued hhome htxn (by decide) core
    · exact coherent_request_queued hhome htxn (by decide) core
  · intro c h core first ws segs s hhome hqueue howner hsharers
    simp only [uncachedTo, Bool.and_eq_true, Bool.not_eq_true', beq_iff_eq] at hhome
    obtain ⟨⟨⟨hservice, hhomeOf⟩, huncached⟩, hports⟩ := hhome
    refine ⟨?_, ?_⟩
    · rw [exec_gets, execGets, coherent_next _ hservice hhomeOf, request_uncached huncached hports hqueue (by decide),
        serveReq_uncached howner hsharers (by simp)]
      rfl
    · rw [exec_putm, execPutm, coherent_next _ hservice hhomeOf, request_uncached huncached hports hqueue (by decide),
        serveReq_uncached howner hsharers (by simp)]
      rfl
  · intro c h first ws segs d s t hhome ht hd htxn
    rw [hd] at htxn
    subst ht hd
    refine ⟨fun howner => ⟨?_, ?_⟩, fun howner => ?_⟩
    · rw [exec_putm_atHome hhome, putArrives_of_rest htxn]
      simp only [if_pos howner]
    · rw [exec_pute_atHome hhome, putArrives_of_rest htxn, if_pos howner]
    · rw [exec_puts_atHome hhome, putArrives_of_rest htxn, if_neg (by simp [howner]), howner]
  · intro c h first ws segs x s t hhome ht htxn hwaits
    subst ht
    refine ⟨fun hcrossed => ?_, fun hcrossed => ⟨?_, ?_⟩⟩
    · rw [exec_putm_atHome hhome, putArrives_of_snooped htxn hwaits, if_pos hcrossed]
    · rw [exec_putm_atHome hhome, putArrives_of_snooped htxn hwaits, if_neg (by rw [hcrossed]; exact Bool.false_ne_true)]
    · rw [exec_pute_atHome hhome, putArrives_of_snooped htxn hwaits, if_neg (by rw [hcrossed]; exact Bool.false_ne_true)]

/-- Settles O32: each snoop by the line it finds at the cluster, each answer by the transaction it finds at the directory. -/
theorem coherenceSnoops : Obligations.CoherenceSnoops := by
  refine ⟨?_, ?_, ?_, ?_, ?_, ?_, ?_⟩
  · intro c req x ws w s hservice hline hevicting hw
    have hstays : inBuffer false c s = false := by simp [inBuffer, evictingAt_of_clusterLine hline, hevicting]
    refine ⟨?_, ?_, fun htxn => ?_⟩
    · rw [exec_fwdgets, execFwdgets, coherent_inService _ hservice]
      simp only [hline, hstays, Bool.false_eq_true, if_false, ← hw]
    · rw [exec_fwdgetm, execFwdgetm, coherent_inService _ hservice]
      simp only [hline, hstays, Bool.false_eq_true, if_false, ← hw]
    · have hstays' : evictingAt s.coh c = false := (evictingAt_of_clusterLine hline).trans hevicting
      rw [exec_recall, execRecall, coherent_inService _ hservice]
      simp only [hline, htxn, inBuffer, onCoh_coh, evictingAt_setDir, hstays', Bool.or_self, Bool.false_eq_true, if_false, ← hw]
      rfl
  · intro c s hservice hstays
    rw [exec_inv, execInv, coherent_inService _ hservice, if_neg (by simp [inBuffer, hstays])]
  · intro c req x ws s hservice hline hevicting
    have hgoes : evictingAt s.coh c = true := (evictingAt_of_clusterLine hline).trans hevicting
    refine ⟨execFwdgets_crossed req false ws hservice hgoes, execFwdgetm_crossed req false ws hservice hgoes,
      execInv_crossed false hservice hgoes, fun htxn => ?_⟩
    rw [exec_recall, execRecall_crossed false ws hservice hgoes]
    simp only [recallDir, onCoh, htxn, if_true]
  · intro c x s hservice htxn hwaits
    refine ⟨fun hput => ?_, fun k w hput => ?_⟩
    · rw [exec_crossedevict, execCrossedevict, coherent_inService _ hservice]
      simp only [htxn, if_pos hwaits, hput]
    · rw [exec_crossedevict, execCrossedevict, coherent_inService _ hservice]
      simp only [htxn, if_pos hwaits, hput]
  · intro c x ws ex s hservice htxn hwaits
    refine ⟨?_, fun hkind => ?_, fun hkind hnone => ?_⟩
    · rw [exec_invack, execInvack, coherent_inService _ hservice]
      simp only [htxn, if_pos hwaits]
    · rw [exec_data, execData, coherent_inService _ hservice]
      simp only [htxn, if_true, dataAtDir, hwaits, not_true, if_false, if_neg hkind]
    · rw [exec_data, execData, coherent_inService _ hservice]
      simp only [htxn, if_true, dataAtDir, hwaits, not_true, if_false, if_pos hkind]
      rw [if_neg (by simpa [onCoh_coh] using fun l hl hc => absurd hc (hnone l hl))]
  · intro c d x ws s hservice hd htxn hcluster
    rw [hd] at htxn
    subst hd
    refine ⟨fun ex hkind => ?_, fun hkind => ?_⟩
    · rw [exec_data, execData, coherent_inService _ hservice]
      simp only [htxn, Bool.false_eq_true, if_false]
      rw [if_pos ⟨hcluster, by omega⟩]
      cases ex <;> simp [dataAtRequester, hkind]
    · have hne : x.req.kind ≠ 0 := by omega
      rw [exec_data, execData, coherent_inService _ hservice]
      simp only [htxn, Bool.false_eq_true, if_false]
      rw [if_pos ⟨hcluster, by omega⟩]
      simp [dataAtRequester, hkind, hne]
  · intro c s hservice hgoes
    rw [exec_putack, execPutack, coherent_inService _ hservice, if_pos hgoes]

end Sys2Proof.Proofs
end

section
/-! SUPPORT. The statements on memory errors, keys and entropy, settled. -/

namespace Sys2Proof.Machine

/-- The state in which a core's load has trapped: 0x1020 or 0x1022, the word of a line in state M poisoned, the site tested (R517, R525). -/
def loadTrapped (core : Nat) (x : Site) (poison : Bool) (s : State) : State :=
  if poison then memEvent 0x1022 x true 0 2 0 { s with out := s.out ++ [.trap core 2 x.addr] }
  else if dirtyLine x s then startTest x 1 (memEvent 0x1022 x true 0 2 0 { poisonLine x s with out := (poisonLine x s).out ++ [.trap core 2 x.addr] })
  else startTest x 1 (memEvent 0x1020 x false 0 1 0 { s with out := s.out ++ [.trap core 2 x.addr] })

/-- A core's load that is not fetched again traps, and goes on by the structure that the word belongs to (Table 13.3). -/
theorem memCoreLoadUncorrectable_of_trap {x : Site} {poison : Bool} {s : State} (hrun : running s = true)
    (htrap : ¬ (x.mem = 0 ∧ ¬ poison = true ∧ (unitCode x.path = 4 ∨ (cachedLine x s).isSome = true) ∧ ¬ dirtyLine x s = true))
    (core st arg : Nat) (atPeers : Bool) :
    memCoreLoadUncorrectable core x poison st arg atPeers s = .next (match st with
      | 0 => loadTrapped core x poison s
      | 1 => loadTrapped core x poison s
      | 2 => loadTrapped core x poison s
      | 3 => loadTrapped core x poison s
      | 4 => restartOn (pathCore core) (loadTrapped core x poison s)
      | 5 => cannotRebuild (some arg) atPeers x (loadTrapped core x poison s)
      | _ => cannotRebuild none false x (loadTrapped core x poison s)) := by
  rw [memCoreLoadUncorrectable, if_neg htrap, onlyIf_true _ _ _ hrun]
  cases poison with
  | true => rfl
  | false => cases hdirty : dirtyLine x s <;> simp only [loadTrapped, hdirty] <;> rfl

/-- With one source excluded anew and the other one not, both are not excluded. -/
theorem not_both_excluded {src : Nat} {l : List Nat} (hsrc : src < 2) (hother : l.contains (1 - src) = false) :
    ¬ ((sIns src l).contains 0 = true ∧ (sIns src l).contains 1 = true) := by
  obtain rfl | rfl : src = 0 ∨ src = 1 := by omega
  · rw [contains_sIns 0 1, hother]
    simp
  · rw [contains_sIns 1 0, hother]
    simp

/-- A key that is used stands first in the key cache, before those that stood there. -/
theorem touchKey_eq (c : Sec) (k : KeyUse) (x : KeyCache) : ∃ e d,
    touchKey c k x = { entries := (⟨k, e⟩ :: x.entries.filter (fun e => e.use != k)).take 256, draws := d } := by
  unfold touchKey
  split
  · exact ⟨_, _, rfl⟩
  · exact ⟨_, _, rfl⟩

end Sys2Proof.Machine

namespace Sys2Proof.Proofs
open Sys2Proof.Machine

/-- Settles O34: a core's load by `memCoreLoadUncorrectable_of_trap` where it traps, the other accesses under their guards. -/
theorem memoryErrors : Obligations.MemoryErrors := by
  refine ⟨?_, ?_, ?_, ?_, ?_, ?_, ?_⟩
  · intro core st arg x s hrun hmem hclean hdirty
    rw [exec_coreLoadUncorrectable, execCoreLoadUncorrectable, memCoreLoadUncorrectable,
      if_pos ⟨hmem, Bool.false_ne_true, hclean, by rw [hdirty]; exact Bool.false_ne_true⟩, andSettle_onlyIf hrun]
  · intro core st arg poison x s b hrun hplain hb
    have htrap : ¬ (x.mem = 0 ∧ ¬ poison = true ∧ (unitCode x.path = 4 ∨ (cachedLine x s).isSome = true) ∧ ¬ dirtyLine x s = true) := by
      simpa only [Bool.not_eq_true] using hplain
    have hb' : loadTrapped core x poison s = b := hb.symm
    simp only [exec_coreLoadUncorrectable, execCoreLoadUncorrectable, memCoreLoadUncorrectable_of_trap hrun htrap, hb', andSettle]
    refine ⟨fun hst => ?_, fun hst => ?_, fun hst => ?_, fun hst => ?_⟩
    · obtain rfl | rfl | rfl | rfl : st = 0 ∨ st = 1 ∨ st = 2 ∨ st = 3 := by omega
      all_goals rfl
    · subst hst
      rfl
    · subst hst
      rfl
    · obtain ⟨n, rfl⟩ := Nat.exists_eq_add_of_le' hst
      rfl
  · intro cluster x s hrun hcluster
    refine ⟨?_, ?_⟩
    · rw [exec_instructionFetchUncorrectable, execInstructionFetchUncorrectable, memInstructionFetchUncorrectable,
        andSettle_onlyIf (by simp [hrun, hcluster])] <;> rfl
    · rw [exec_instructionFetchUncorrectable, execInstructionFetchUncorrectable, memInstructionFetchUncorrectable,
        andSettle_onlyIf (by simp [hrun, hcluster])] <;> rfl
  · intro ch n x poison s t hrun hhalted hn ht
    simp only [exec_dmaReadUncorrectable, execDmaReadUncorrectable, memDmaReadUncorrectable]
    rw [andSettle_onlyIf (by rw [hrun, hhalted]; rfl), ← hn, ← ht]
    refine ⟨fun hrime => ?_, fun hother hpoison => ?_, fun hother hpoison => ?_⟩
    · rw [if_pos hrime]
    · rw [if_neg hother, hpoison, if_neg Bool.false_ne_true]
    · rw [if_neg hother, hpoison, if_pos rfl]
  · intro ch s hrun hhalted
    rw [exec_dmaChannelRestart, execDmaChannelRestart, memDmaChannelRestart, andSettle_onlyIf (by rw [hrun, hhalted]; rfl)]
  · intro core x s hrun
    rw [exec_narrowWrite, execNarrowWrite, memNarrowWrite, andSettle_onlyIf hrun]
  · intro x s hrun
    rw [exec_correctableRead, execCorrectableRead, memCorrectableRead, andSettle_onlyIf hrun]

/-- Settles O36: the tests and sources under their guards, the key cache by `touchKey` and `dropKeys`. -/
theorem keysAndEntropy : Obligations.KeysAndEntropy := by
  refine ⟨?_, ?_, ?_, ?_, ?_, ?_, ?_, ?_, ?_⟩
  · intro path s hrun hunit
    refine ⟨?_, ?_⟩
    · rw [exec_knownAnswerTest, execKnownAnswerTest, onlyIf_true _ _ _ (by simp [hrun, hunit])] <;> rfl
    · rw [exec_knownAnswerTest, execKnownAnswerTest, onlyIf_true _ _ _ (by simp [hrun, hunit])] <;> rfl
  · intro s hrun hdue hstopped hentropy
    rw [exec_drbgReseed, execDrbgReseed, onlyIf_true _ _ _ (by simp [hrun, hdue, hstopped]), if_neg (by simp [hentropy])]
  · intro s hrun hdue hstopped hentropy
    rw [exec_drbgReseed, execDrbgReseed, onlyIf_true _ _ _ (by simp [hrun, hdue, hstopped]), if_pos hentropy]
  · intro s hrun hdue hentropy hstopped
    rw [exec_maskReseed, execMaskReseed, onlyIf_true _ _ _ (by simp [hrun, hdue, hentropy, hstopped])]
  · intro src test s hrun hsrc hexcluded hother
    rw [exec_entropyHealthFail, execEntropyHealthFail, onlyIf_true _ _ _ (by rw [hrun, hexcluded, decide_eq_true hsrc]; rfl)]
    refine congrArg Host.Outcome.next (if_neg ?_)
    rw [noEntropy, record_sec, Bool.and_eq_true]
    exact not_both_excluded hsrc hother
  · intro src test s t hrun hsrc hexcluded ht hnone
    rw [exec_entropyHealthFail, execEntropyHealthFail, onlyIf_true _ _ _ (by rw [hrun, hexcluded, decide_eq_true hsrc]; rfl), ← ht]
    simp only [if_pos hnone]
  · intro s hrun hlocked hepoch
    rw [exec_keyEpochChange, execKeyEpochChange, onlyIf_true _ _ _ (by simp [hrun, hlocked, hepoch])]
  · intro k s
    obtain ⟨e, d, htouch⟩ := touchKey_eq s.sec k s.keys
    simp only [useKey, htouch]
    refine ⟨rfl, by simp, fun x hx => ?_⟩
    rcases List.mem_cons.mp (List.mem_of_mem_take hx) with rfl | hkept
    · exact .inl rfl
    · exact .inr (List.mem_filter.mp hkept).1
  · intro ns g s x hx
    have hkept := (List.mem_filter.mp hx).2
    rintro ⟨hgen, hns⟩
    simp [hgen, hns] at hkept

end Sys2Proof.Proofs
end

section
/-! SUPPORT. The statement on the forwarding of updates, settled. -/

namespace Sys2Proof.Proofs
open Sys2Proof.Machine

/-- Settles O44: each frame in the state in which it was accepted, by the package and the forwarder that stand there; each timer under its guard. -/
theorem updateForwarding : Obligations.UpdateForwarding := by
  refine ⟨?_, ?_, ?_, ?_, ?_, ?_, ?_, ?_, ?_, ?_⟩
  · intro h b have_ s t u hrecv hacc hhave
    rw [exec_updateOffer, execUpdateOffer, gram_of_accepted _ hrecv hacc]
    refine ⟨fun htrue => ?_, fun hfalse hbusy => ?_, fun i hfalse hfree hin => ?_, fun i hfalse hfree hin hi => ?_⟩ <;>
      refine congrArg (fun u => Host.Outcome.next (settle u)) ?_
    · exact if_pos (hhave.symm.trans htrue)
    · exact (if_neg (Bool.eq_false_iff.mp (hhave.symm.trans hfalse))).trans (if_pos hbusy)
    · refine (if_neg (Bool.eq_false_iff.mp (hhave.symm.trans hfalse))).trans ((if_neg (Bool.eq_false_iff.mp hfree)).trans ?_)
      rw [hin]
    · refine (if_neg (Bool.eq_false_iff.mp (hhave.symm.trans hfalse))).trans ((if_neg (Bool.eq_false_iff.mp hfree)).trans ?_)
      rw [hin, hi]
  · intro h b s t u hrecv hacc
    rw [exec_updatePull, execUpdatePull, gram_of_accepted _ hrecv hacc]
    refine ⟨fun hnone => by simp only [hnone], fun p hp => ?_⟩
    simp only [hp, Bool.not_eq_true']
  · intro h b s t u hrecv hacc
    rw [exec_updateSegment, execUpdateSegment, gram_of_accepted _ hrecv hacc]
    refine ⟨fun hnone => by simp only [hnone], fun i hin hor => by simp only [hin, if_pos hor],
      fun i j v hin hsource hfrom hpkg hoff hdata hj hv => ⟨fun r hdone hopen hreason => ?_, fun hnone => ?_⟩⟩
    · have htakes : ¬ (i.source ≠ 1 ∨ i.from_ ≠ h.slot ∨ i.pkg ≠ b.pkg ∨ b.off ≠ i.bytes.length ∨ b.data.isEmpty = true) := by
        simp [hsource, hfrom, hpkg, hoff, hdata]
      subst hj
      dsimp only at hdone hreason
      simp only [hin, if_neg htakes, hdone, hopen, Bool.not_false, and_self, if_true, hreason]
    · have htakes : ¬ (i.source ≠ 1 ∨ i.from_ ≠ h.slot ∨ i.pkg ≠ b.pkg ∨ b.off ≠ i.bytes.length ∨ b.data.isEmpty = true) := by
        simp [hsource, hfrom, hpkg, hoff, hdata]
      subst hj hv
      dsimp only at hnone ⊢
      have hgoes : (if blockDone (i.bytes ++ b.data) = true ∧ (! blockDone i.bytes) = true then chainReason t i (i.bytes ++ b.data) else none) = none := by
        split
        · next hblock => exact hnone hblock.1 (by simpa using hblock.2)
        · rfl
      simp only [hin, if_neg htakes, hgoes]
      refine ⟨fun hmore => ?_, fun hend hdone => ?_, fun hend hdone hdigest => ?_, fun hend hdone hdigest => ?_⟩
      · rw [if_pos hmore]
      · rw [if_neg (Nat.not_lt.mpr hend), hdone, if_pos (by decide)]
      · rw [if_neg (Nat.not_lt.mpr hend), hdone, if_neg (by decide), hdigest, if_pos (by decide)]
      · rw [if_neg (Nat.not_lt.mpr hend), hdone, if_neg (by decide), hdigest, if_neg (by decide)]
  · intro h b s t u hrecv hacc
    rw [exec_updateStaged, execUpdateStaged, gram_of_accepted _ hrecv hacc]
    refine ⟨fun hor => ?_, fun p f g hp hf hg => ?_⟩
    · rcases hor with hnone | hnone
      · simp only [hnone]
      · cases hs : spreads t b.pkg <;> simp only [hnone]
    · subst hg
      simp only [hp, hf, Bool.not_eq_true']
  · intro h b s t u hrecv hacc
    rw [exec_updateRefused, execUpdateRefused, gram_of_accepted _ hrecv hacc]
    refine ⟨fun hor => ?_, fun p f hp hf => ?_⟩
    · rcases hor with hnone | hnone
      · simp only [hnone]
      · cases hs : t.boot.staged <;> simp only [hnone]
    · simp only [hp, hf, Bool.not_eq_true']
  · intro h b s t u hrecv hacc
    rw [exec_updateConfirmed, execUpdateConfirmed, gram_of_accepted _ hrecv hacc]
    exact ⟨fun hnone => by simp only [hnone], fun p hp => by simp only [hp]⟩
  · intro p f x s a hp ha hf htarget
    simp only [exec_offerTimer, execOfferTimer, hp]
    rw [onlyIf_true _ _ _ rfl, ← ha]
    simp only [hf, htarget]
  · intro p f x s hp hf htarget hstopped hmask hdue
    simp only [exec_pullProgressTimeout, execPullProgressTimeout, hp, hf, htarget]
    rw [onlyIf_true _ _ _ (by simp [hstopped, hmask, hdue])]
  · intro p f s hp hf hstopped hdue
    simp only [exec_chainGiveUp, execChainGiveUp, hp, hf]
    rw [onlyIf_true _ _ _ (by simp [hstopped, hdue, dayNs])]
  · intro p f x s a hp hrun hpair hforward hconfirmed ha hf htarget
    simp only [exec_confirmedTimer, execConfirmedTimer, hp]
    rw [onlyIf_true _ _ _ (by simp [hrun, hpair, hforward, hconfirmed]), ← ha]
    simp only [hf, htarget]

end Sys2Proof.Proofs
end

section
/-! SUPPORT. The statements on HOLD and the beat, on takeover and on yield, settled. -/

namespace Sys2Proof.Machine

/-- What HOLD_IN rising does, over the state that has noted the level (R403, R442, R443). -/
def heldIn (s : State) : State := { s with keeper := { s.keeper with holdIn := true, holdInAt := s.now } }

theorem exec_holdInRise_of_low {s : State} (hlow : s.keeper.holdIn = false) (hoff : s.keeper.phase ≠ .off) :
    exec .holdInRise s = .next (
      if s.keeper.holdOut = true then collide (heldIn s)
      else if running s = false then heldIn s
      else if s.twin.roleState = .yielded ∧ s.twin.yieldAt.isSome = true then
        (yieldSites (heldIn s)).foldl (fun u x => startTest x 2 u) { heldIn s with twin := { s.twin with yieldAt := none } }
      else if s.twin.roleState = .standby ∧ s.keeper.beatOut = .release then
        { heldIn s with keeper := { (heldIn s).keeper with beatOut := .normal, beatOutAt := s.now } }
      else waitJoin (heldIn s)) := by
  rw [exec_holdInRise, execHoldInRise, onlyIf_true _ _ _ (by simp [hlow, hoff])]
  cases hrun : running s with
  | false =>
    have hrun' : running (heldIn s) = false := hrun
    exact congrArg Host.Outcome.next (if_congr Iff.rfl rfl (by rw [← heldIn, hrun']; rfl))
  | true =>
    have hrun' : running (heldIn s) = true := hrun
    exact congrArg Host.Outcome.next (if_congr Iff.rfl rfl (by rw [← heldIn, hrun']; rfl))

/-- What a criterion that has just become true does to the device by its role (R421 to R423). -/
theorem exec_yieldCriterion_of_shown {c d : Nat} {s t : State} (hrun : running s = true) (hshown : criterionShown c s = true)
    (hnew : s.twin.criterion ≠ c)
    (ht : t = { s with twin := { s.twin with criterion := c, detail := d }, boot := { s.boot with spoiled := true } }) :
    exec (.yieldCriterion c d) s = .next (match s.twin.roleState with
      | .active => if s.twin.trainSince.isSome then t else if mayYield t then doYield c d t
          else if cutsOff c d then { record 0x4022 pathTwin (le 1 c ++ le 1 1) t with
            start := { (record 0x4022 pathTwin (le 1 c ++ le 1 1) t).start with stoppedServing := true } }
          else record 0x4022 pathTwin (le 1 c ++ le 1 1) t
      | .standby => { t with twin := { t.twin with healthy := false } }
      | .solo => if cutsOff c d then { t with start := { t.start with stoppedServing := true } } else t
      | _ => t) := by
  subst ht
  rw [exec_yieldCriterion, execYieldCriterion, onlyIf_true _ _ _ (by simp [hrun, hshown, hnew])]
  simp only [criterionTrue] <;> rfl

end Sys2Proof.Machine

namespace Sys2Proof.Proofs
open Sys2Proof.Machine

/-- Settles O45: each edge and level under its guard, a rise of HOLD_IN by what the device is (`exec_holdInRise_of_low`). -/
theorem holdAndBeat : Obligations.HoldAndBeat := by
  refine ⟨?_, ?_, ?_, ?_, ?_, ?_, ?_, ?_, ?_, ?_⟩
  · intro s t hlow hoff ht
    have ht' : heldIn s = t := ht.symm
    rw [exec_holdInRise_of_low hlow hoff, ht']
    refine ⟨fun hout => ?_, fun hout hrun => ?_, fun hout hrun hrole hyield => ?_, fun hout hrun hrole hbeat => ?_, fun hout hrun hyield hstandby => ?_⟩
    · rw [if_pos hout]
    · rw [if_neg (by simp [hout]), if_pos hrun]
    · rw [if_neg (by simp [hout]), if_neg (by simp [hrun]), if_pos ⟨hrole, hyield⟩, ht]
    · rw [if_neg (by simp [hout]), if_neg (by simp [hrun]), if_neg (by simp [hrole]), if_pos ⟨hrole, hbeat⟩]
    · rw [if_neg (by simp [hout]), if_neg (by simp [hrun]), if_neg hyield, if_neg hstandby]
  · intro s hoff hhigh
    rw [exec_holdInFall, execHoldInFall, onlyIf_true _ _ _ (by simp [hoff]), if_pos hhigh]
  · intro s hoff hlow
    rw [exec_holdInFall, execHoldInFall, onlyIf_true _ _ _ (by simp [hoff]), if_neg (by simp [hlow])]
  · intro c cs s a hcollision hrun hrole hhigh hout hdue hcs ha
    simp only [exec_holdCollisionTimeout, execHoldCollisionTimeout, hcollision]
    rw [onlyIf_true _ _ _ (by simp [hrun, hrole, hhigh, hout, hdue]), ← hcs, ← ha]
    simp only [decide_eq_true_eq]
  · intro s hrun
    rw [exec_keeperFeed, execKeeperFeed, onlyIf_true _ _ _ hrun]
  · intro s hrun hbeat hdue
    rw [exec_beatEdge, execBeatEdge, onlyIf_true _ _ _ (by simp [hrun, hbeat, hdue])]
  · intro s hdriven hdue
    exact execHoldDriverTimer_of_expired hdue hdriven
  · intro s t hoff hsoon ht
    rw [exec_beatInEdge, execBeatInEdge, onlyIf_true _ _ _ (by simp [hoff])]
    simp only [if_pos hsoon, ← ht]
    cases running t <;> rfl
  · intro s t hoff hlate ht
    rw [exec_beatInEdge, execBeatInEdge, onlyIf_true _ _ _ (by simp [hoff])]
    simp only [if_neg (Nat.not_le.mpr hlate), ← ht]
    cases running t <;> rfl
  · intro s t hoff hdue ht
    rw [exec_beatInSilent, execBeatInSilent, onlyIf_true _ _ _ (by simp [hoff, hdue]), ← ht]

/-- Settles O46: each trigger and timer under its guard, a criterion by the device's role (`exec_yieldCriterion_of_shown`). -/
theorem takeoverAndYield : Obligations.TakeoverAndYield := by
  refine ⟨?_, ?_, ?_, ?_, ?_, ?_⟩
  · intro s hrun hrole hlend hmay
    refine ⟨fun hhealthy => ?_, fun hhealthy hsince => ?_, fun t hhealthy hsince => ?_⟩
    · rw [exec_takeoverTrigger, execTakeoverTrigger, onlyIf_true _ _ _ (by simp [hrun, hrole, hlend, hmay, hhealthy])]
    · rw [exec_standbyRoleRetake, execStandbyRoleRetake, onlyIf_true _ _ _ (by simp [hrun, hrole, hlend, hmay, hhealthy]), hsince]
    · rw [exec_standbyRoleRetake, execStandbyRoleRetake, onlyIf_true _ _ _ (by simp [hrun, hrole, hlend, hmay, hhealthy]), hsince]
  · intro t n s hrun htakeover hdue
    simp only [exec_takeoverMonitor, execTakeoverMonitor, htakeover]
    rw [onlyIf_true _ _ _ (by simp [hrun, hdue])]
  · intro c d s t hrun hshown hnew ht
    rw [exec_yieldCriterion_of_shown hrun hshown hnew ht]
    refine ⟨fun hrole => ?_, fun hrole hlink hmay => ?_, fun hrole hlink => ?_, fun u hrole hlink hmay hu => ?_, fun hrole => ?_, fun hactive hstandby hsolo => ?_⟩
    · simp only [hrole]
    · simp only [hrole, hlink, Option.isSome_none, Bool.false_eq_true, if_false, if_pos hmay]
    · simp only [hrole, if_pos hlink]
    · simp only [hrole, hlink, Option.isSome_none, hmay, Bool.false_eq_true, if_false, ← hu]
    · simp only [hrole]
    · cases hrole : s.twin.roleState with
      | active => exact absurd hrole hactive
      | standby => exact absurd hrole hstandby
      | solo => exact absurd hrole hsolo
      | _ => rfl
  · intro t s hrun hyield hrole hlow hdue
    simp only [exec_yieldReturnTimeout, execYieldReturnTimeout, hyield]
    rw [onlyIf_true _ _ _ (by simp [hrun, hrole, hlow, hdue])]
  · intro t s hrun hrelease hdue
    simp only [exec_keeperReleaseRestart, execKeeperReleaseRestart, hrelease]
    rw [onlyIf_true _ _ _ (by simp [hrun, hdue])]
    rfl
  · intro s hrun htrain hdue
    rw [exec_healthReportTimeout, execHealthReportTimeout, onlyIf_true _ _ _ (by simp [hrun, htrain, hdue])]

end Sys2Proof.Proofs
end

section
/-! SUPPORT. The statements on the Hinge link and on the frames of its session, settled. -/

namespace Sys2Proof.Machine

@[simp] theorem gotFrame_roleState (f : Nat) (s : State) : (gotFrame f s).twin.roleState = s.twin.roleState := rfl

@[simp] theorem gotFrame_inShutdown (f : Nat) (s : State) : inShutdown (gotFrame f s) = inShutdown s := rfl

/-- A stage of the join past the third (Table 10.8). -/
theorem three_lt_of_ne {n : Nat} (h0 : n ≠ 0) (h1 : n ≠ 1) (h2 : n ≠ 2) (h3 : n ≠ 3) : 3 < n := by omega

end Sys2Proof.Machine

namespace Sys2Proof.Proofs
open Sys2Proof.Machine

/-- Settles O47: each event of the link under its guard. -/
theorem hingeLink : Obligations.HingeLink := by
  refine ⟨?_, ?_, ?_, ?_, ?_, ?_, ?_, ?_, ?_⟩
  · intro l s hrun hup hl hretired
    rw [exec_linkLaneFail, execLinkLaneFail, onlyIf_true _ _ _ (by simp [hrun, hup, hl, hretired])]
  · intro t s hrun hsince hor
    have hguard : (running s && (decide (t + 500000 < s.now) || widest s.twin.retired == 0)) = true := by simpa [hrun] using hor
    simp only [exec_linkRetrainTimeout, execLinkRetrainTimeout, hsince]
    rw [onlyIf_true _ _ _ hguard]
    refine ⟨fun hup => ?_, fun hdown => ?_⟩
    · rw [if_pos hup]
    · rw [if_neg (by simp [hdown])]
  · intro s hrun hpair htwin hdown hsince hclock hdue
    rw [exec_linkRetrainRetry, execLinkRetrainRetry, onlyIf_true _ _ _ (by simp [hrun, hpair, htwin, hdown, hsince, hclock, hdue])]
  · intro w s t hrun hlink hclock hwidth hwidest ht
    have hguard : (running s && (! s.twin.linkUp || s.twin.trainSince.isSome) && ! s.pace.clocksLost.contains 1 &&
        (w == 4 || w == 8 || w == 16) && decide (w ≤ widest s.twin.retired)) = true := by
      simp only [List.mem_cons, List.not_mem_nil, or_false] at hwidth
      simp [hrun, hlink, hclock, hwidth, hwidest, or_assoc]
    rw [exec_hingeTrainingComplete, execHingeTrainingComplete, onlyIf_true _ _ _ hguard, ht]
    rfl
  · intro seq ack kind credits s t hup ht
    subst ht
    refine ⟨?_, fun hkind => ?_, fun hkind => ?_, ?_⟩ <;> rw [exec_flitReceive, execFlitReceive, onlyIf_true _ _ _ hup]
    · rw [if_pos (by decide)]
    · rw [if_neg (by decide), if_pos hkind]
    · rw [if_neg (by decide), if_neg (by omega)]
      simp only [if_neg (show ¬ kind = 1 by omega)]
    · rw [if_neg (by decide), if_neg (by decide)]
      simp only [if_true]
  · intro good s t hup ht
    rw [exec_replayRequest, execReplayRequest, onlyIf_true _ _ _ hup, ← ht]
  · intro s hup hdue
    rw [exec_idleFlitTimer, execIdleFlitTimer, onlyIf_true _ _ _ (by simp [hup, hdue])]
  · intro s hsession hdue
    rw [exec_hingeStatusTimer, execHingeStatusTimer, onlyIf_true _ _ _ (by simp [hsession, hdue])]
  · intro s hrun hsession hrole hdue
    rw [exec_healthReportTimer, execHealthReportTimer, onlyIf_true _ _ _ (by simp [hrun, hsession, hrole, hdue])]

/-- Settles O48: each frame under its guard, a Join Stage by the role and the stage. -/
theorem sessionFrames : Obligations.SessionFrames := by
  refine ⟨?_, ?_, ?_, ?_, ?_, ?_, ?_, ?_, ?_, ?_, ?_⟩
  · intro f b s a hrun hup htwin ha
    rw [exec_hello, execHello, onlyIf_true _ _ _ (by simp [hrun, hup, htwin]), ← ha]
    refine ⟨fun hsession hhandoff => ?_, fun hor hagrees => ?_, fun r hor hrefused => ?_⟩
    · rw [if_pos ⟨hsession, hhandoff⟩]
    · rw [if_neg (by rcases hor with h | h <;> simp [h])]
      simp only [hagrees]
    · rw [if_neg (by rcases hor with h | h <;> simp [h])]
      simp only [hrefused]
  · intro s hrun hup hrefused hsession hdue
    rw [exec_joinRetry, execJoinRetry, onlyIf_true _ _ _ (by simp [hrun, hup, Option.isSome_iff_ne_none.mpr hrefused, hsession, hdue])]
  · intro f b s t hrun hsession ht
    rw [exec_status, execStatus, onlyIf_true _ _ _ (by simp [hrun, hsession]), ← ht]
  · intro f b s t hrun hsession hrole ht
    rw [exec_healthReport, execHealthReport, onlyIf_true _ _ _ (by simp [hrun, hsession, hrole]), ← ht] <;> rfl
  · intro f held j s t hrun hsession hrole ht
    rw [exec_mirrorAck, execMirrorAck, onlyIf_true _ _ _ (by simp [hrun, hsession, hrole]), ← ht]
    exact ⟨fun hnone => by simp only [hnone], fun n conn cid hplanned => by simp only [hplanned]⟩
  · intro f ty t rest s b hunacked hrun hrole htrain hdue hb
    simp only [exec_mirrorAckDeadline, execMirrorAckDeadline, hunacked, List.head?_cons]
    rw [onlyIf_true _ _ _ (by simp [hrun, hrole, htrain, hdue]), ← hb]
  · intro f n u s t hrun hsession ht
    have hrole : t.twin.roleState = s.twin.roleState := by rw [ht, gotFrame_roleState]
    have hshut : inShutdown t = inShutdown s := by rw [ht, gotFrame_inShutdown]
    rw [exec_joinStage, execJoinStage, onlyIf_true _ _ _ (by simp [hrun, hsession]), ← ht]
    simp only [hrole, hshut]
    refine ⟨fun hstandby hlive => ?_, fun hactive => ?_, fun hother hor => ?_⟩
    · rw [if_pos ⟨hstandby, by rw [hlive]; rfl⟩]
      split
      any_goals rfl
      next h0 h1 h2 h3 h16 => rw [if_neg h0, if_neg (three_lt_of_ne h0 h1 h2 h3).not_ge, if_neg h16]
    · rw [if_neg (by simp [hactive]), if_pos hactive]
      split
      any_goals rfl
      next h0 h1 h2 h3 => rw [if_neg h0, if_neg (three_lt_of_ne h0 h1 h2 h3).not_ge]
    · rw [if_neg (by rcases hor with h | h <;> simp [h]), if_neg hother]
      split
      · simp
      · simp
      next h16 h17 => rw [if_neg (fun h => h16 h.1), if_neg (fun h => h17 h.1)]
  · intro f c d t s hrun hsession hrole
    simp only [exec_yield, execYield]
    rw [onlyIf_true _ _ _ (by simp [hrun, hsession, hrole])]
  · intro ty s hrun hsession hty
    simp only [exec_hingeInvalidFrame, execHingeInvalidFrame]
    rw [onlyIf_true _ _ _ (by simpa [hrun, hsession] using hty)]
  · intro cs s hrun hsession hrole hcs
    rw [exec_transportProgressTimer, execTransportProgressTimer, onlyIf_true _ _ _ (by simp [hrun, hsession, hrole]), ← hcs]
  · intro n c s hconn hrun hsent
    simp only [exec_retransmissionTimeout, execRetransmissionTimeout, hconn]
    rw [onlyIf_true _ _ _ (by simp [hrun, hsent])]

end Sys2Proof.Proofs
end

section
/-! SUPPORT. The statements on mirrored and copied frames, on the recorder and on the management interface, settled. -/

namespace Sys2Proof.Machine

section Applied
variable {f : Nat} {s : State}

theorem onMirrored_of_applies (h : applies f s = true) (g : State → State) :
    onMirrored f g s = .next (becomeHealthy (ackFrames (gotFrame f (g s)))) := onlyIf_true _ _ _ h

theorem onMirrored_of_not_applies (h : applies f s = false) (g : State → State) : onMirrored f g s = .next s := onlyIf_false _ h

theorem onCopied_of_applies (h : applies f s = true) (g : State → State) : onCopied f g s = .next (gotFrame f (g s)) := onlyIf_true _ _ _ h

theorem onCopied_of_not_applies (h : applies f s = false) (g : State → State) : onCopied f g s = .next s := onlyIf_false _ h

/-- A frame applies at a STANDBY only, which no ACTIVE is. -/
theorem not_active_of_applies (h : applies f s = true) : ¬ (running s = true ∧ s.twin.session = true ∧ s.twin.roleState = .active) := by
  rintro ⟨-, -, hactive⟩
  simp [applies, hactive] at h

end Applied

end Sys2Proof.Machine

namespace Sys2Proof.Proofs
open Sys2Proof.Machine

/-- Settles O49: each frame is mirrored or copied (`onMirrored`, `onCopied`), the Settings frame at an ACTIVE apart. -/
theorem mirroredFrames : Obligations.MirroredFrames := by
  intro f s
  refine ⟨fun happlies => ?_, fun happlies => ?_, fun hrun hsession hrole hnew fs p feats => ?_⟩
  · have mirrored := onMirrored_of_applies happlies
    have copied := onCopied_of_applies happlies
    refine ⟨fun n rs => ?_, fun i gs => ?_, fun rs => ?_, fun es => ?_, fun es gone => ?_, fun ms => ?_, fun fs p feats => ?_, fun cs => ?_,
      fun n i t ht => ?_, fun rs es ops ms => ?_, fun gs => ?_, fun g t ws => ?_, fun l => ?_⟩
    · rw [exec_journal, execJournal, mirrored]
    · rw [exec_corniceWrite, execCorniceWrite, mirrored]
    · rw [exec_corniceRelease, execCorniceRelease, copied]
    · rw [exec_transport, execTransport, mirrored]
    · rw [exec_operation, execOperation, mirrored]
    · rw [exec_milmoState, execMilmoState, mirrored]
    · rw [exec_settings, execSettings, if_neg (not_active_of_applies happlies), mirrored]
    · rw [exec_counters, execCounters, copied]
    · rw [exec_flushProgress, execFlushProgress, copied, ht]
    · rw [exec_copyFirn, execCopyFirn, copied]
    · rw [exec_copyCornice, execCopyCornice, copied]
    · rw [exec_copyGranule, execCopyGranule, copied]
    · simp only [exec_handoff, execHandoff, mirrored]
  · have mirrored := onMirrored_of_not_applies happlies
    have copied := onCopied_of_not_applies happlies
    refine ⟨fun n rs => ?_, fun i gs => ?_, fun rs => ?_, fun es => ?_, fun es gone => ?_, fun ms => ?_, fun cs => ?_, fun n i => ?_,
      fun rs es ops ms => ?_, fun gs => ?_, fun g t ws => ?_, fun l => ?_, fun hactive fs p feats => ?_⟩
    · rw [exec_journal, execJournal, mirrored]
    · rw [exec_corniceWrite, execCorniceWrite, mirrored]
    · rw [exec_corniceRelease, execCorniceRelease, copied]
    · rw [exec_transport, execTransport, mirrored]
    · rw [exec_operation, execOperation, mirrored]
    · rw [exec_milmoState, execMilmoState, mirrored]
    · rw [exec_counters, execCounters, copied]
    · rw [exec_flushProgress, execFlushProgress, copied]
    · rw [exec_copyFirn, execCopyFirn, copied]
    · rw [exec_copyCornice, execCopyCornice, copied]
    · rw [exec_copyGranule, execCopyGranule, copied]
    · simp only [exec_handoff, execHandoff, mirrored]
    · rw [exec_settings, execSettings]
      split
      · next h => exact onlyIf_false _ (decide_eq_false (fun hnew => hactive ⟨h.1, h.2.1, h.2.2, hnew⟩))
      · exact mirrored _
  · rw [exec_settings, execSettings, if_pos ⟨hrun, hsession, hrole⟩, onlyIf_true _ _ _ (decide_eq_true hnew)]

/-- Settles O50: each timer under its guard, with the write, the summary or the controller that it finds; a command by its message and opcode. -/
theorem recorderAndManagement : Obligations.RecorderAndManagement := by
  refine ⟨?_, ?_, ?_, ?_, ?_, ?_, ?_, ?_, ?_, ?_⟩
  · intro t s htrigger hwriting hrun hbuffer
    simp only [exec_ringWrite, execRingWrite, htrigger, hwriting]
    rw [onlyIf_true _ _ _ (by simp [hrun, hbuffer])]
  · intro n t b s hwriting hrun
    simp only [exec_ringWriteComplete, execRingWriteComplete, hwriting]
    rw [onlyIf_true _ _ _ hrun]
  · intro n t s hwriting hrun hdue
    simp only [exec_ringWriteDeadline, execRingWriteDeadline, hwriting]
    rw [onlyIf_true _ _ _ (by simp [hrun, hdue])]
  · intro code x s hsupp hrun hdue
    simp only [exec_summaryRecordTimer, execSummaryRecordTimer, hsupp]
    rw [onlyIf_true _ _ _ (by simp [hrun, hdue])]
  · intro i c s hctrl hrun hkato hdue
    simp only [exec_keepAliveTimeout, execKeepAliveTimeout, hctrl]
    rw [onlyIf_true _ _ _ (by simp [hrun, hkato, hdue])]
  · intro c n s hor
    have hguard : (running s || s.keeper.phase == .recovery || s.keeper.phase == .dormant || (s.keeper.phase == .failed && decide (s.keeper.failStep ≠ 1))) = true := by
      rcases hor with h | h | h | ⟨h, hstep⟩
      · simp [h]
      · simp [h]
      · simp [h]
      · simp [h, hstep]
    rw [exec_nvmeMiBasicManagement, execNvmeMiBasicManagement, onlyIf_true _ _ _ hguard]
  · intro op args r s hrun hr
    rw [exec_nvmeMiCommand, execNvmeMiCommand, onlyIf_true _ _ _ (by simp [hrun])]
    simp only [if_true, ← hr]
  · intro cns nsid csi s hrun
    rw [exec_nvmeMiCommand, execNvmeMiCommand, onlyIf_true _ _ _ (by simp [hrun])] <;> rfl
  · intro lid off len s hrun
    rw [exec_nvmeMiCommand, execNvmeMiCommand, onlyIf_true _ _ _ (by simp [hrun])] <;> rfl
  · intro op args s hrun hidentify hlog
    rw [exec_nvmeMiCommand, execNvmeMiCommand, onlyIf_true _ _ _ (by simp [hrun])]
    simp only [Nat.one_ne_zero, if_false]
    split
    · exact absurd ⟨rfl, rfl⟩ hidentify
    · exact absurd ⟨rfl, rfl⟩ hlog
    · rfl

end Sys2Proof.Proofs
end

section
/-! SUPPORT. The statements on frames, links, pauses, addresses and time, settled. -/

namespace Sys2Proof.Machine

/-- What a sync of the parent does, by the counts that it leaves (R645, R646). -/
theorem exec_ptpSync_of_parent {mac dom par pr : Nat} {off : Int} {s : State} (hon : ptpOn s mac dom = true)
    (hparent : s.ptp.parent = some (mac, par, pr)) (good bad : Nat)
    (hgood : (if off.natAbs ≤ 250 then min 16 (s.ptp.good + 1) else 0) = good)
    (hbad : (if 500 < off.natAbs then min 4 (s.ptp.bad + 1) else 0) = bad) (t : State)
    (ht : t = bump mac 88 1 { s with ptp := { s.ptp with offset := off, good := good, bad := bad, syncAt := s.now } }) :
    exec (.ptpSync mac dom off par) s = .next (
      if s.ptp.locked = false ∧ good = 16 then record 0x3110 (pathX 0x34 0) [] (stepTime off { t with ptp := { t.ptp with locked := true } })
      else if s.ptp.locked = true ∧ bad = 4 then record 0x3111 (pathX 0x34 0) [] { t with ptp := { t.ptp with locked := false } }
      else t) := by
  rw [exec_ptpSync, execPtpSync, onlyIf_true _ _ _ (by simp [hon, hparent]), hgood, hbad, ht]
  simp only [Bool.not_eq_true']

end Sys2Proof.Machine

namespace Sys2Proof.Proofs
open Sys2Proof.Machine

/-- Settles O59: each frame and each timer under its guard, with the MAC that it names. -/
theorem framesAndLinks : Obligations.FramesAndLinks := by
  refine ⟨?_, ?_, ?_, ?_, ?_, ?_, ?_, ?_, ?_⟩
  · intro f c s htakes hup hdrop
    rw [exec_frameReceive, execFrameReceive, onlyIf_true _ _ _ (by simp [htakes, hup]), hdrop]
  · intro f m kind s htakes hmac hup hpass hkind
    have hisUp : isUp s f.mac = true := by simp [isUp, hmac, hup]
    rw [exec_frameReceive, execFrameReceive, onlyIf_true _ _ _ (by simp [htakes, hisUp]), hpass, hkind, hmac] <;> rfl
  · intro mac fault s hup
    refine ⟨fun hrun => ?_, fun hphase hmm => ?_⟩
    · rw [exec_linkDown, execLinkDown, onlyIf_true _ _ _ (by simp [linkRuns, hrun, hup]), if_pos hrun]
    · have hstopped : running s = false := running_eq_false_of_phase hphase (by decide)
      have hruns : linkRuns s mac = true := by simp [linkRuns, hphase, hmm]
      rw [exec_linkDown, execLinkDown, onlyIf_true _ _ _ (by rw [hruns, hup]; rfl), if_neg (by simp [hstopped])]
  · intro mac m s t hmac hruns hdown hlane hdue hparked hclock ht
    have hclock' : (! (decide (mac < 16) && s.pace.clocksLost.contains 0)) = true := by
      rcases hclock with h | h
      · simp [Nat.not_lt.mpr h]
      · rw [h, Bool.and_false]
        rfl
    simp only [exec_linkUp, execLinkUp, hmac]
    rw [onlyIf_true _ _ _ (by simp only [hruns, hdown, hlane, hdue, hparked, hclock', decide_true, Bool.not_false, Bool.and_self]), ← ht]
  · intro mac s hframes hup
    rw [exec_pauseFrame, execPauseFrame, onlyIf_true _ _ _ (by simp [hframes, hup])]
  · intro mac c m s hmac hrun hbit
    simp only [exec_counterBit31, execCounterBit31, hmac]
    rw [onlyIf_true _ _ _ (by rw [hrun, decide_eq_true hbit]; rfl)]
  · intro s hrun hdue
    rw [exec_counterSweep, execCounterSweep, onlyIf_true _ _ _ (by simp [hrun, hdue])]
  · intro mac m s hmac hrun hup hstalled hxoff hdue
    simp only [exec_receiveBufferStall, execReceiveBufferStall, hmac]
    rw [onlyIf_true _ _ _ (by simp [hrun, hup, hstalled, hxoff, hdue])]
  · intro mac q m x s hmac hfirst hrun hdue
    simp only [exec_txFrameAge, execTxFrameAge, hmac, hfirst]
    rw [onlyIf_true _ _ _ (by simp [hrun, hdue])]

/-- Settles O60: each frame and timer under its guard; a sync by the counts it leaves (`exec_ptpSync_of_parent`). -/
theorem pausesAddressesAndTime : Obligations.PausesAddressesAndTime := by
  refine ⟨?_, ?_, ?_, ?_, ?_, ?_, ?_, ?_, ?_, ?_, ?_, ?_⟩
  · intro mac qs s hframes hup hmac
    rw [exec_pfcFrameReceive, execPfcFrameReceive, onlyIf_true _ _ _ (by simp [hframes, hup, hmac])]
  · intro mac prio share m n s hm hnet hlossless hrun hup hmac hstalled
    refine ⟨fun hpaused => ?_, fun hnone => ?_, fun hor => ?_⟩
    · simp only [exec_pfcXoffRefresh, execPfcXoffRefresh, hm, hnet]
      rw [onlyIf_true _ _ _ (by rw [hrun, hup, decide_eq_true hmac, hlossless, hstalled]; rfl), if_pos trivial, if_pos hpaused]
    · simp only [exec_pfcXoffRefresh, execPfcXoffRefresh, hm, hnet]
      rw [onlyIf_true _ _ _ (by rw [hrun, hup, decide_eq_true hmac, hlossless, hstalled]; rfl), if_pos trivial, if_neg (by simp [hnone])]
    · simp only [exec_pfcXoffRefresh, execPfcXoffRefresh, hm, hnet]
      rw [onlyIf_true _ _ _ (by rw [hrun, hup, decide_eq_true hmac, hlossless, hstalled]; rfl)]
      rcases hor with ⟨hnone, hshare⟩ | ⟨hshare, x, hx, hdue⟩
      · simp [hnone, hshare]
      · simp [hx, hshare, hdue]
  · intro mac prio a b m s hm hpaused hrun hdue hnow
    simp only [exec_pfcPauseDeadline, execPfcPauseDeadline, hm, hpaused]
    rw [onlyIf_true _ _ _ (by simp [hrun, hdue, hnow])]
  · intro mac x s htakes hup hheld
    rw [exec_arpRequest, execArpRequest, onlyIf_true _ _ _ (by rw [htakes, hup, hheld]; rfl)]
  · intro mac x s htakes hup hheld
    rw [exec_neighbourSolicitation, execNeighbourSolicitation, onlyIf_true _ _ _ (by rw [htakes, hup, hheld]; rfl)]
  · intro mac x v6 bytes m rs s hm htakes hup hheld hrs
    simp only [exec_echoRequest, execEchoRequest, hm]
    refine ⟨fun hfits => ?_, fun hlong => ?_⟩
    · rw [onlyIf_true _ _ _ (by rw [htakes, hup, hheld, decide_eq_true (show _ ≤ maxPacket from hfits)]; rfl), ← hrs]
    · rw [onlyIf_false _ (by rw [decide_eq_false (show ¬ _ ≤ maxPacket from Nat.not_le.mpr hlong), Bool.and_false])]
  · intro mac dom par pr off s hon hparent
    refine ⟨fun t hnear ht => ?_, fun t hfar ht => ?_, fun hfrom hto => ?_⟩
    · have hfull : min 16 (s.ptp.good + 1) = 16 ↔ 15 ≤ s.ptp.good := by omega
      rw [exec_ptpSync_of_parent hon hparent _ _ (if_pos hnear) (if_neg (by omega)) t ht]
      simp [hfull]
    · have hfull : min 4 (s.ptp.bad + 1) = 4 ↔ 3 ≤ s.ptp.bad := by omega
      rw [exec_ptpSync_of_parent hon hparent _ _ (if_neg (by omega)) (if_pos hfar) t ht]
      simp [hfull]
    · rw [exec_ptpSync_of_parent hon hparent _ _ (if_neg (by omega)) (if_neg (by omega)) _ rfl, if_neg (by simp), if_neg (by simp)]
  · intro s hrun hlocked hdue
    rw [exec_ptpSyncTimeout, execPtpSyncTimeout, onlyIf_true _ _ _ (by simp [hrun, hlocked, hdue])]
  · intro mac dom pr par s hon
    refine ⟨fun hnone => ?_, fun k q r hparent hsame => ?_, fun k q r hparent hother => ?_⟩
    · rw [exec_ptpAnnounce, execPtpAnnounce, onlyIf_true _ _ _ hon]
      simp [hnone]
    · rw [exec_ptpAnnounce, execPtpAnnounce, onlyIf_true _ _ _ hon]
      simp [hparent, hsame]
    · have hnew : (k == mac && q == par) = false := by
        rw [Bool.eq_false_iff]
        simpa using hother
      rw [exec_ptpAnnounce, execPtpAnnounce, onlyIf_true _ _ _ hon]
      by_cases hbetter : pr < r ∨ pr = r ∧ par < q
      · have htakes : (decide (pr < r) || pr == r && decide (par < q)) = true := by simpa using hbetter
        simp only [hparent, hnew, htakes, if_pos hbetter, Bool.or_false, Bool.not_true, Bool.not_false, Bool.false_eq_true, if_false, if_true]
      · have hkeeps : (decide (pr < r) || pr == r && decide (par < q)) = false := by
          rw [Bool.eq_false_iff]
          simpa using hbetter
        simp only [hparent, hnew, hkeeps, if_neg hbetter, Bool.or_false, Bool.not_false, if_true]
  · intro s hrun hdue
    rw [exec_lldpTransmit, execLldpTransmit, onlyIf_true _ _ _ (by simp [hrun, hdue])]
  · intro s a b hrun hor hdue ha hb
    have hguard : (running s && (s.start.service && decide (0 < s.net.annLeft) || decide (0 < s.net.repLeft)) &&
        decide (s.net.annAt + 1000000000 ≤ s.now)) = true := by simpa [hrun, hdue] using hor
    rw [exec_announcementRepeat, execAnnouncementRepeat, onlyIf_true _ _ _ hguard, ← ha, hb]
  · intro s hrun hor
    rw [exec_nrefclkLoss, execNrefclkLoss, onlyIf_true _ _ _ (by rcases hor with h | h <;> simp_all)]

end Sys2Proof.Proofs
end
